-- ==== Sys2Proof/Word.lean ====
section
/-! DEFINITION. The word types of the G48 and the type of sparse tables. Bytes are 8 bits and registers 64 bits
(R13, R15, R16); a table is a list of key and value pairs, strictly rising in the key, that lists no value equal to the
table's default (the operations stand in `Machine/Ops.lean`). -/

namespace Sys2Proof

abbrev Byte := BitVec 8
abbrev Word16 := BitVec 16
abbrev Word32 := BitVec 32
abbrev Word64 := BitVec 64

/-- A sparse table: keys rise, values equal to the default are not listed. -/
abbrev Tab (β : Type) := List (Nat × β)

end Sys2Proof
end

