-- ==== Sys2Proof/Syntax.lean ====
section
/-! DEFINITION. The commands of the G48: one constructor of `Instr` for each row of spec/opcode_table.json, whole.
A command is one indivisible step of the part (spec/95). Its operands name the unit it happens at (a context, a logical
core, a link, a port, an engine) and carry what arrives from outside with it (bytes of a posted write, a frame, a shot, a
message, a sensor reading, the errors that the hardware finds while it reads). A charge's own row names the charge by its
context and sequence number: its parameters lie in the hopper. -/

namespace Sys2Proof

/-- The two PCI Express ports (R49). -/
inductive HostPort where
  | a
  | b
deriving DecidableEq, Repr

/-- What the host configures of a port (R49): maximum payload and maximum read request size in bytes, ECRC generation and
checking. The defaults are those of PCI Express (log 87). -/
structure PortCfg where
  mps      : Nat := 128
  mrrs     : Nat := 512
  ecrcGen  : Bool := false
  ecrcChk  : Bool := false
deriving DecidableEq, Repr

/-- What the error correction finds while a command reads (R122, R200, R240, R241): the words or units whose first read is
uncorrectable, each with `true` when the repeat fails too (lasting) and `false` when the repeat reads cleanly.
`mem` holds 64-byte-aligned device addresses, `sp` scratchpad word addresses (of the core the command reads, or device addresses
of a window, which name the core), `acc` accumulator pairs
(array × 16,384 + row × 64 + pair). `memC`, `spC` and `accC` name, in the same way, what is read with a corrected error. -/
structure Finds where
  mem  : List (Nat × Bool) := []
  sp   : List (Nat × Bool) := []
  acc  : List Nat := []
  memC : List Nat := []
  spC  : List Nat := []
  accC : List Nat := []
deriving DecidableEq, Repr

/-- A shot (R252) with its signal tail (R254; 0 when `rcarry` is false). -/
structure Shot where
  dest    : Nat
  core    : Nat
  vl      : Nat
  epoch   : Nat
  typ     : Nat
  flow    : Nat
  seq     : Nat
  last    : Bool
  rcarry  : Bool
  mcast   : Bool
  payload : List Byte
  tail    : Nat
  replay  : Bool := false     -- a replayed charge sent it (R402)
  mirror  : Bool := false     -- mirror traffic at its sending module (R393)
deriving DecidableEq, Repr

/-- What a fault does to one computation of a check group (R119, R121): staged results that differ from the fault-free
ones, as (row in the group, column, FP32 bits), a check that a fault of the checksum path fails, as (column check, index,
residual and S in check format), and whether a duplicated unit disagreed. -/
structure GroupFault where
  staged : List (Nat × Nat × Word32) := []
  check  : Option (Bool × Nat × Nat × Nat) := none
  dup    : Bool := false
deriving DecidableEq, Repr

/-- A seal record (R372, R373): members counted, divergence mask, balances by group, log overflow, statistics by layer as
(MAXMAG, NONZERO, UNDER). -/
structure SealRec where
  members : Nat
  mask    : Nat
  balance : List (Nat × Word64)
  ovf     : Bool
  layers  : List (Nat × Nat × Nat)
deriving DecidableEq, Repr

/-- The fields of a collective message line (R318): the common words and the words 0x10, 0x18 and 0x20. -/
structure CollLine where
  group   : Nat
  opcode  : Nat
  k       : Nat
  collSeq : Nat
  ghash   : Word64
  w10     : Nat
  w18     : Nat
  w20     : Nat
deriving DecidableEq, Repr

/-- What a self-test finds (R462): of the fast tier the row of each failing unit, as bits [63:35] of its candidate entry (R245);
of the deep tier each failing unit's device address; of a link its eye width, eye height and error exponent. -/
structure BistFound where
  rows  : List Nat := []
  units : List Nat := []
  links : List (Nat × Nat × Nat × Nat) := []
deriving DecidableEq, Repr

/-- A memory image piece (R392): address of a 64 KiB block and its bytes. -/
abbrev Piece := Nat × List Byte

inductive Instr where
  -- host ports, intake, dispatch and retirement (03)
  | intakeWrite (p : HostPort) (ctx off : Nat) (data : List Byte)
  | chargeDispatch (ctx : Nat) (f : Finds)
  | executorFinishReport (ctx cseq : Nat)
  | abortMark (ctx : Nat)
  | chargeRetire (ctx : Nat)
  | consumedCountPoll (ctx : Nat) (value : Nat)
  | takeoverApply (ctx : Nat)
  | bar4Write (p : HostPort) (off : Nat) (data : List Byte) (f : Finds)
  | bar4Read (p : HostPort) (off len : Nat) (f : Finds)
  | registerWrite (p : HostPort) (off : Nat) (data : List Byte)
  | portReset (p : HostPort)
  | functionLevelReset (p : HostPort)
  | d3hotEntry (p : HostPort)
  | portLinkLoss (p : HostPort)
  | busMasterEnableClear (p : HostPort)
  | ctxOpen (ctx : Nat)
  | ctxClose (ctx cseq : Nat)
  | ctxTakeover (ctx : Nat)
  | ctxReset (ctx cseq : Nat)
  | hopperFlush (ctx cseq : Nat)
  | chargeAbort (ctx cseq : Nat)
  | nop (ctx cseq : Nat)
  | mapLoad (ctx cseq : Nat) (f : Finds)
  | mapRead (ctx cseq : Nat)
  -- memory and load charges (04, 10)
  | copy (ctx cseq : Nat) (f : Finds)
  | fill (ctx cseq : Nat) (f : Finds)
  | hostRead (ctx cseq : Nat) (data : List Byte) (f : Finds)
  | hostWrite (ctx cseq : Nat) (f : Finds)
  | gather (ctx cseq : Nat) (f : Finds)
  | progLoad (ctx cseq : Nat) (f : Finds)
  | tableLoad (ctx cseq : Nat) (f : Finds)
  | launch (ctx cseq : Nat) (f : Finds)
  | workQueueItemStart (core : Nat)
  | launchStop (core : Nat)
  -- collectives (13)
  | groupDefine (ctx cseq : Nat)
  | allReduce (ctx cseq : Nat) (f : Finds)
  | reduceScatter (ctx cseq : Nat) (f : Finds)
  | allGather (ctx cseq : Nat) (f : Finds)
  | allToAllV (ctx cseq : Nat) (f : Finds)
  | broadcast (ctx cseq : Nat) (f : Finds)
  | barrier (ctx cseq : Nat)
  -- step control (15, 16); `mirror` holds the pieces that the holder of the mirror sends back
  | phaseMarkForward (ctx cseq : Nat)
  | phaseMarkBackward (ctx cseq : Nat)
  | phaseMarkExchange (ctx cseq : Nat)
  | phaseMarkUpdate (ctx cseq : Nat)
  | seal (ctx cseq : Nat)
  | rollbackRedo (ctx cseq : Nat) (mirror : List Piece)
  | rollbackAbandon (ctx cseq : Nat) (mirror : List Piece)
  | replayRun (ctx cseq : Nat) (needs : Option (Nat × Nat))
  | replayCapture (ctx cseq : Nat)
  | replayRestore (ctx cseq : Nat)
  -- link, route, power, security, telemetry and test charges (11, 12, 17, 18, 19, 20)
  | linkStatus (ctx cseq : Nat)
  | linkRetrain (ctx cseq : Nat)
  | routeTableLoad (ctx cseq : Nat)
  | routeEpochSwitch (ctx cseq : Nat)
  | mcastTreeLoad (ctx cseq : Nat)
  | powerStateSet (ctx cseq : Nat)
  | powerLimitSet (ctx cseq : Nat)
  | ladleStatus (ctx cseq : Nat)
  | attestQuote (ctx cseq : Nat)
  | fwUpdate (ctx cseq : Nat) (f : Finds)
  | debugOpen (ctx cseq : Nat) (fuseBurns : Bool) (f : Finds)
  | debugClose (ctx cseq : Nat)
  | lifecycleAdvance (ctx cseq : Nat) (f : Finds)
  | countersRead (ctx cseq : Nat)
  | phaseRecordsRead (ctx cseq : Nat)
  | eventRingSet (ctx cseq : Nat)
  | bistRun (ctx cseq : Nat) (found : BistFound)
  | loopbackTestEnd (link errors : Nat)
  | hbmRepair (ctx cseq : Nat) (f : Finds)
  | mbistRead (ctx cseq : Nat)
  | coreFence (ctx cseq : Nat)
  | siteTest (ctx cseq : Nat) (failingUnit : Nat)
  -- the Salfel instructions (04 R90), each the instruction at the program counter of a core
  | salfelNop (core : Nat)
  | add (core : Nat)
  | sub (core : Nat)
  | mul (core : Nat)
  | mulhu (core : Nat)
  | and (core : Nat)
  | or (core : Nat)
  | xor (core : Nat)
  | shl (core : Nat)
  | shr (core : Nat)
  | sar (core : Nat)
  | min (core : Nat)
  | max (core : Nat)
  | sethi (core : Nat)
  | cmpeq (core : Nat)
  | cmplt (core : Nat)
  | cmpltu (core : Nat)
  | pset (core : Nat)
  | br (core : Nat)
  | call (core : Nat)
  | jmp (core : Nat)
  | loop (core : Nat)
  | halt (core : Nat)
  | trap (core : Nat)
  | ld (core : Nat) (f : Finds)
  | st (core : Nat)
  | aadd (core : Nat) (f : Finds)
  | aadds (core : Nat) (f : Finds)
  | aswap (core : Nat) (f : Finds)
  | arr (core : Nat) (f : Finds)
  | vec (core : Nat) (f : Finds)
  | mov (core : Nat) (f : Finds)
  | qwait (core : Nat)
  | push (core : Nat) (ptrMismatch : Bool) (f : Finds)
  | pop (core : Nat) (ptrMismatch : Bool) (f : Finds)
  | popw (core : Nat) (ptrMismatch : Bool) (f : Finds)
  | sig (core : Nat)
  | waitc (core : Nat)
  | waito (core : Nat)
  | rset (core : Nat)
  | rread (core : Nat)
  | time (core : Nat)
  | whoami (core : Nat)
  -- engines: grants, arrays, completion (05, 17)
  | ladleGrant (core engine : Nat)
  | arrayDescriptorStart (core array : Nat) (f : Finds)
  | checkGroupVerdict (core array : Nat) (first again other : GroupFault) (f : Finds)
  | strikeExpiry (core array : Nat)
  | completionSignal (core engine : Nat) (f : Finds)
  -- vector functions (07)
  | convert (core : Nat) (f : Finds)
  | vecAdd (core : Nat) (f : Finds)
  | vecMul (core : Nat) (f : Finds)
  | fma (core : Nat) (f : Finds)
  | axpby (core : Nat) (f : Finds)
  | residAdd (core : Nat) (f : Finds)
  | relu (core : Nat) (f : Finds)
  | sigmoid (core : Nat) (f : Finds)
  | tanh (core : Nat) (f : Finds)
  | exp (core : Nat) (f : Finds)
  | gelu (core : Nat) (f : Finds)
  | silu (core : Nat) (f : Finds)
  | swiglu (core : Nat) (f : Finds)
  | softmaxRow (core : Nat) (f : Finds)
  | softmaxParts (core : Nat) (f : Finds)
  | rmsnorm (core : Nat) (f : Finds)
  | layernorm (core : Nat) (f : Finds)
  | rowSumsq (core : Nat) (f : Finds)
  | scaleRows (core : Nat) (f : Finds)
  | dropout (core : Nat) (f : Finds)
  | rowStats (core : Nat) (f : Finds)
  | update (core : Nat) (f : Finds)
  | pwpoly (core : Nat) (f : Finds)
  -- movers (10)
  | moveCopy (core mover : Nat) (hostData : List Byte) (f : Finds)
  | moveFill (core mover : Nat) (f : Finds)
  | moveSend (core mover : Nat) (f : Finds)
  | moveSendAtomic (core mover : Nat) (f : Finds)
  | moveRunnerPush (core mover : Nat) (ptrMismatch : Option Nat) (f : Finds)
  | moveRunnerPop (core mover : Nat) (ptrMismatch : Option Nat) (f : Finds)
  | moveGather (core mover : Nat) (f : Finds)
  -- scrubbers, runners, memory, bridges (08, 09, 10, 01)
  | patrolScrubRow (core bank row : Nat) (f : Finds)
  | runnerFlush (core runner : Nat)
  | runCfgWrite (core runner : Nat) (value : Word64)
  | runSpillWrite (core runner : Nat) (value : Word64)
  | spillTailWrite (core runner : Nat) (ptrMismatch : Bool)
  | spillHeadRefill (core runner : Nat) (ptrMismatch : Bool) (f : Finds)
  | memoryPatrol (addr : Nat) (corrected : Bool) (f : Finds)
  | bridgeUnit (die : Nat) (good : Bool)
  | bridgeLost (die : Nat)
  -- links (11)
  | linkDataFrame (link : Nat) (wire : List Byte) (fecOk : Bool)
  | ackOnlyFrame (link : Nat) (wire : List Byte) (fecOk : Bool)
  | idleFrameTimer (link : Nat)
  | ackTimeout (link : Nat)
  | retryLimit (link : Nat)
  | lossOfLock (link : Nat)
  | linkTrained (link : Nat)
  | trainingFailed (link : Nat)
  | dropRetrainTimer (link : Nat)
  | dropAllowanceSpanEnd (link : Nat)
  | linkLeaveBundle (link : Nat)
  | challenge (link : Nat) (wire : List Byte) (fecOk : Bool)
  | identity (link : Nat) (wire : List Byte) (fecOk : Bool)
  | verdict (link : Nat) (wire : List Byte) (fecOk : Bool)
  | drop (link : Nat) (wire : List Byte) (fecOk : Bool)
  | leave (link : Nat) (wire : List Byte) (fecOk : Bool)
  | drawnIntent (link : Nat) (wire : List Byte) (fecOk : Bool)
  | linkControlRepeat (link : Nat)
  | neighborSolicitation (link : Nat) (target : Nat)
  | echoRequest (link : Nat) (dest : Nat) (data : List Byte)
  -- shots (11, 12)
  | shotForward (port : Nat)
  | openFlow (core : Nat) (shot : Shot)
  | write (core : Nat) (shot : Shot) (f : Finds)
  | atomic (core : Nat) (shot : Shot) (f : Finds)
  | atomicSat (core : Nat) (shot : Shot) (f : Finds)
  | entry (core : Nat) (shot : Shot) (ptrMismatch : Bool)
  | nack (core : Nat) (shot : Shot)
  | drain (port : Nat) (shot : Shot)
  | drainEmit (port : Nat)
  -- Afiup messages of twins, seals and collectives (13, 15, 16)
  | piece (coord : Nat) (head data : List Byte)
  | commit (coord : Nat) (head : List Byte)
  | ack (coord : Nat) (head : List Byte)
  | restoreReq (coord : Nat) (head : List Byte)
  | restoreEnd (coord : Nat) (head : List Byte)
  | fold (head : List Byte)
  | sealStage (head data : List Byte)
  | collEndMessage (payload : List Byte)
  | ready (core box : Nat) (f : Finds)
  | grant (core box : Nat) (f : Finds)
  | count (core box : Nat) (f : Finds)
  | digest (core box : Nat) (f : Finds)
  | finish (core box : Nat) (f : Finds)
  -- liveness checks (13, 15, 16)
  | collStalled (ctx cseq : Nat)
  | sealStalled
  | twinMirrorLagging
  | twinUnreachable
  -- fences and faults (16)
  | fenceStart (die : Nat)
  | fenceStopComplete (die stopNs : Nat)
  | transplantComplete (die transplantNs : Nat) (f : Finds)
  | transplantFailed (die transplantNs : Nat)
  | fenceBindComplete (die : Nat)
  | storeReloaded (core store index : Nat) (corrected : Bool)
  | faultWindowExpiry (site cls : Nat)
  | afiupRestartComplete
  -- power (17, 02)
  | inputLow (mv : Nat)
  | inputHigh (mv : Nat)
  | inputLost (mv : Nat)
  | powerOverdraw
  | poolRestore
  | autoIdle
  | powerTransitionComplete
  | powerDrawTimeout
  | junctionSensorRead (hottest : Nat)
  | coreRailLow (mv : Nat)
  | fabRateWindow (dieA dieB : Nat)
  -- debug and events (18, 19)
  | debugTokenExpiry
  | nonceExpiry
  | dbgCoreHalt (core : Nat) (halt : Bool)
  | dbgCoreStep (core : Nat) (ptrMismatch : Bool) (f : Finds)
  | dbgCoreBpEn (core : Nat) (en : Bool) (pc : Nat)
  | eventRingWrite (consumed : Nat)
  -- resets, boot, ports and pins (20, 21)
  | powerOnReset (mv : Nat)
  | modResetN
  | sidebandResetRequest
  | modEn (level : Bool)
  | bootStageComplete (badActive badOther : Nat) (memOk : Bool)
  | perstDeassert (p : HostPort)
  | pcieDetectExit (p : HostPort)
  -- boundary scan and sideband (20, 21)
  | bypass
  | idcode
  | samplePreload
  | extest
  | clamp
  | highz
  | entdaa (addr : Nat)
  | mctpMessage (request : Nat)
  -- later rows of the table
  | inputInOperatingRange (mv : Nat)
  | inputPowerMeasurement (mv watts peak avg : Nat)
  | modResetNRelease
  | busMasterEnableSet (p : HostPort) (cfg : PortCfg)
  | portLinkUp (p : HostPort)
  | d3hotExit (p : HostPort)
  | pcieCompletionTimeout (p : HostPort) (ctx cseq : Nat)
  | tapPrivateInstruction (code : Nat)
deriving DecidableEq, Repr

end Sys2Proof
end

