-- ==== Sys2Proof/Decode.lean ====
section
/-! DEFINITION. The reading of a table word as a command. The rows of spec/opcode_table.json give no bits: a command of this
block is an event, not a word, so no word spells one. -/

namespace Sys2Proof

/-- The command that a word spells: none, since no row gives bits. -/
def decodeTableWord (_nbits _w : Nat) : Option Instr := none

end Sys2Proof
end

