-- ==== Sys2Proof/Config.lean ====
section
/-! DEFINITION. What an implementation fixes and the values that the spec leaves open. Each constant without a body is a free
value: nothing can prove a value of it. The log entry of each is named beside it. -/

namespace Sys2Proof.Config

/-- Result bits of a library function, of which the spec states a bound that the model holds them to (R174, R178), from the library version, the
function code, and the FP32 operands and row values; log 8. -/
opaque vecLib : (version func : Nat) → List Word32 → Word32

/-- Open bits: the n-th free value; log 7. -/
opaque freeWord : Nat → Word64

/-- An open byte; log 7. -/
opaque freeByte : Nat → Byte

/-- An open choice; log 7. -/
opaque freeBit : Nat → Bool

/-- SHAKE256 with a 512-bit output as 64 bytes (R424, R425), uninterpreted; log 9. -/
opaque shake512 : List Byte → List Byte

/-- SHAKE256 with a 256-bit output as 32 bytes (R431), uninterpreted; log 9. -/
opaque shake256 : List Byte → List Byte

/-- The Ed448 signature of a module's identity key over a message, 114 bytes (R420); log 9. -/
opaque sign : (serial : Nat) → List Byte → List Byte

/-- Whether a signature verifies: key (0 production, 1 engineering, 2 debug authority, 3 service authority), message,
signature (R424, R431); log 9. -/
opaque verifies : (key : Nat) → List Byte → List Byte → Bool

/-- The device public key generated by the Crucible, 57 bytes (R420, R428); log 9. -/
opaque publicKey : (serial : Nat) → List Byte

/-- Whether a certificate chain passes R421 for a serial and a key; log 9. -/
opaque chainValid : List Byte → (serial : Nat) → List Byte → Bool

/-- The public key that a device certificate certifies, 57 bytes (R421); log 9. -/
opaque certKey : List Byte → List Byte

/-- Whether an Ed448 signature verifies under a public key: key, message, signature (R269, R421); log 9. -/
opaque verifiesBy : List Byte → List Byte → List Byte → Bool

/-- The address of a D link assigned at manufacture, by serial and link, taken modulo 2^48 (R277); log 96. -/
opaque linkMac : (serial link : Nat) → Nat

/-- The n-th nonce of the Crucible, 16 bytes (R432), and the n-th link challenge (R269); log 9. -/
opaque nonceBytes : Nat → List Byte

/-- The journal's digest of bytes, folded piece by piece (R400): the spec names no function; log 9. -/
opaque journalDigest : Word64 → List Byte → Word64

/-- Word of the collective or update library at an instruction index, by its version (R302, R366): the firmware image is
not given; log 9. -/
opaque libraryWord : (version index : Nat) → Word64

/-- Highest and lowest link protocol level of a link firmware version (R280, R398); log 61. -/
opaque linkLevels : (version : Nat) → Nat × Nat

/-- The identifier that PCI-SIG assigned to Renhild (R50), taken modulo 2^16; log 87. -/
opaque pciVendor : Nat

/-- The manufacturer identities that JEDEC and MIPI assigned to Renhild (R466, R472); log 62. -/
opaque jedecId : Nat
opaque mipiId : Nat

/-- Where the spread profile of R44 stands at power-on, in oscillator periods, taken modulo 800; log 2. -/
opaque oscillator : Nat

end Sys2Proof.Config
end

