-- ==== Sys2Proof/Machine/State.lean ====
section
/-! DEFINITION. The state of one G48 module as plain data: every register, queue, store and mode that the spec gives it,
the queue of waiting commands and the trace of what the module sends outside. Every structure's field defaults are its
values right after power-on reset; `State.reset` is the structure of defaults. Sparse tables (`Tab`) list what differs from
the default entry of their kind. INVENTORY.md names the rule and the reset value of each piece. -/

namespace Sys2Proof.Machine

/-- Why a step stops with a fault. -/
inductive Fault where
  /-- Raised by `inputHigh`, `inputLost`, `inputLow`, `inputInOperatingRange`, `inputPowerMeasurement` and `powerOnReset`
  when the input voltage lies beyond the absolute maximum of R476, where the spec gives the module no behaviour. Safe. -/
  | absoluteMaximum
deriving DecidableEq, Repr

/-- Why a command is refused. -/
inductive Refusal where
  /-- Raised only by an arm of `exec` whose command has no meaning yet. Safe. -/
  | notModelled (mnemonic : String)
deriving DecidableEq, Repr

/-- What the module sends outside: the model's own trace, newest first (R68, R75 to R78, R252, R261, R272, R472). -/
inductive Output where
  | hostWrite (p : HostPort) (addr : Nat) (data : List Byte)
  | msix (p : HostPort) (vector : Nat)
  | readData (p : HostPort) (data : List Byte)          -- a completion with data
  | readPoisoned (p : HostPort) (data : List Byte)      -- a completion with EP set (R241)
  | readUnsupported (p : HostPort)                      -- Unsupported Request (R58)
  | aerReport (p : HostPort)                            -- an error message of AER (R49, R241)
  | frame (link : Nat) (wire : List Byte)               -- a link frame as bytes (R261, R262, R277)
  | local_ (shot : Shot)                                -- a shot delivered to this module's mesh
  | neighborAdvert (link : Nat)
  | echoReply (link : Nat) (data : List Byte)
  | tdo (bits : Nat)
  | sideband (value : Nat) (data : List Byte)
deriving DecidableEq, Repr

/-! ## Identity, boot, pins -/

/-- The ordering code (R1). -/
inductive Code where
  | l8
  | s6
deriving DecidableEq, Repr

/-- What is fixed when the module is made (R4, R22, R420). -/
structure Ident where
  code     : Code := .l8
  stepping : Nat := 0
  serial   : Nat := 0x4800000000010001
  /-- The factory map: reserve sites in the layout of `CORE_BIND[7:0]` (R24: die bit 7, row bits 6 to 4, column bits 2 to
  0); four of each die, here row 0, columns 0 to 3. -/
  reserves : List Nat := [0, 1, 2, 3, 128, 129, 130, 131]
deriving DecidableEq, Repr

/-- Boot progress and `BOOT_STAT` (R458 to R461). -/
structure Boot where
  ready    : Bool := false
  failed   : Bool := false
  stepLost : Bool := false
  stage    : Nat := 0
  done     : Nat := 0
  fallback : Nat := 0
  cause    : Nat := 0
  tReady   : Nat := 0
  /-- The module has no power (R408 OFF). -/
  off      : Bool := false
  /-- A `THERMAL_SHUTDOWN` has removed every rail but the management rail (R415). -/
  shutdown : Bool := false
  /-- A module reset is held by MOD_RESET_N (R470). -/
  held     : Bool := false
  /-- 0 none, 1 firmware failure at stages 3 to 7 (R426), 2 memory failure (R460), 3 boot halted at stages 0 to 2. -/
  failKind : Nat := 0
  /-- This boot zeroes the memories: power-on or a reset of cause 3 (R455, R458). -/
  zeroMem  : Bool := true
  /-- `STEP_STATE_LOST` is still to be raised (R457). -/
  lostDue  : Bool := false
deriving DecidableEq, Repr

/-- Levels on control pins, the boundary-scan instruction and the sideband address (R466, R469, R472). -/
structure Pins where
  modEn    : Bool := true
  modReset : Bool := false      -- MOD_RESET_N asserted (low)
  perstA   : Bool := true       -- PERSTA_N asserted (low)
  perstB   : Bool := true
  /-- 0 BYPASS, 1 IDCODE, 2 SAMPLE/PRELOAD, 3 EXTEST, 4 CLAMP, 5 HIGHZ, 6 private. -/
  tap      : Nat := 1
  i3cAddr  : Option Nat := none
deriving DecidableEq, Repr

/-! ## Host ports and contexts -/

/-- An event counter (R439, R440): 48 bits and its sticky overflow. -/
structure Counter where
  count : Nat := 0
  ovf   : Bool := false
deriving DecidableEq, Repr

/-- One host port (R49 to R57). -/
structure Port where
  winBase  : Nat := 0
  discard  : Counter := {}
  bme      : Bool := false
  mse      : Bool := false
  linkUp   : Bool := false
  d3hot    : Bool := false
  detected : Bool := false        -- the port has left Detect (R459)
  msix     : Tab Byte := []       -- MSI-X table bytes by offset
  pba      : List Nat := []       -- pending vectors, rising
  cfg      : PortCfg := {}
deriving DecidableEq, Repr

/-- The four context states (R59). -/
inductive CtxSt where
  | closed
  | opened
  | faulted
  | orphaned
deriving DecidableEq, Repr

/-- The states of a retire-stage entry (R80). -/
inductive EntrySt where
  | waiting
  | finished
  | abortPending
deriving DecidableEq, Repr

/-- An accepted charge in its context's hopper or retire stage (R62, R66, R68, R80). -/
structure Entry where
  cseq       : Nat
  opcode     : Nat
  tag        : Nat := 0
  quiet      : Bool := false
  fence      : Bool := false
  notify     : Bool := false
  reserved   : Bool := false       -- a reserved header bit is set (R17)
  params     : List Byte := []
  size       : Nat := 0            -- bytes in the intake stream
  moved      : Bool := false       -- moved from the intake ring into the hopper (R64)
  dispatched : Bool := false
  /-- The acceptance act of CTX_RESET, HOPPER_FLUSH or CHARGE_ABORT has been done (R74). -/
  acted      : Bool := false
  st         : EntrySt := .waiting
  status     : Nat := 0
  result     : Nat := 0
  /-- What the executors will report: status and RESULT. -/
  report     : Option (Nat × Nat) := none
  /-- The executors have ended (an ABORT_PENDING entry may retire). -/
  ended      : Bool := false
  /-- Cores whose item of this charge has not ended (R104). -/
  items      : List Nat := []
  /-- Cores that trapped, with status and program counter (R108). -/
  traps      : List (Nat × Nat × Nat) := []
  /-- The data that the charge staged at dispatch (R483). -/
  staged     : List Byte := []
  /-- Where a multi-step charge stands: 0 not started. -/
  phase      : Nat := 0
  /-- The port that owned the context when the charge was dispatched (R71). -/
  port       : HostPort := .a
deriving DecidableEq, Repr

/-- A completion record that is retired and not yet written (R59, R75). -/
structure Rec where
  cseq   : Nat
  time   : Nat
  result : Nat
  status : Nat
  opcode : Nat
  tag    : Nat
  notify : Bool
deriving DecidableEq, Repr

/-- One context (R59 to R61, R72, R73). -/
structure Ctx where
  st       : CtxSt := .closed
  owner    : HostPort := .a
  lastFault : Nat := 0
  admin    : Bool := false
  forceAllowed : Bool := false
  nextCseq : Nat := 0
  tail     : Nat := 0
  head     : Nat := 0
  hopBase  : Nat := 0
  hopLog2  : Nat := 0
  hopPos   : Nat := 0             -- where the next accepted charge goes in the hopper region (log 86)
  ringBase : Nat := 0
  ringLog2 : Nat := 0
  consAddr : Nat := 0
  shadow   : Nat := 0
  msixEn   : Bool := false
  msixVec  : Nat := 0
  written  : Nat := 0
  consumed : Nat := 0
  lastCseq : Nat := 0
  partialBuf : List Byte := []
  entries  : List Entry := []
  marks    : List (Nat × Nat) := []          -- (abort's CSEQ, target CSEQ)
  /-- Charges taken at aperture offset 0, waiting for the Afiup, with the writing port. -/
  arrivals : List (HostPort × List Byte) := []
  /-- An accepted takeover and its charge bytes, waiting for the charge boundary (R73). -/
  takeover : Option (HostPort × List Byte) := none
  /-- Records of charges that retired while the context was ORPHANED, in order (R59). -/
  held     : List Rec := []
  pollTime : Nat := 0
deriving DecidableEq, Repr

/-! ## Cores -/

/-- A riser (R212) with its waiters (R216): the sequencer is 4, mover m is m. -/
structure Riser where
  cur   : Nat := 0
  nxt   : Nat := 0
  round : Nat := 0
  fault : Nat := 0
  queue : List Nat := []              -- consuming waiters in order
  watch : Option Nat := none          -- the sequencer's observing threshold
deriving DecidableEq, Repr

/-- A runner (R202 to R208). -/
structure Runner where
  cfg     : Word64 := 0
  spill   : Word64 := 0
  cfgNew  : Option Word64 := none     -- held for the core's next item
  spillNew : Option Word64 := none
  enabled : Bool := false             -- the configuration in force passed R208
  wp      : Nat := 0                  -- ring pointers, or middle pointers in spill mode
  rp      : Nat := 0
  tail    : List (List Byte) := []    -- spill buffers, oldest first
  head    : List (List Byte) := []
  ptrFault : Bool := false
  cfgErr  : Bool := false
  reason  : Nat := 0
deriving DecidableEq, Repr

/-- A flow context (R255, R257): 0 IDLE, 1 OPEN, 2 FAULTED, with the opening record. -/
structure Flow where
  st       : Nat := 0
  kind     : Nat := 0
  atomSat  : Bool := false
  runner   : Nat := 0
  srcCore  : Nat := 0
  srcMover : Nat := 0
  srcCoord : Nat := 0
  dst      : Nat := 0
  stride   : Nat := 0
  rowLen   : Nat := 0
  rowsM1   : Nat := 0
  count    : Nat := 0
  got      : Nat := 0                 -- data shots written; the next SEQ is got + 1
deriving DecidableEq, Repr

/-- The kinds of work-queue item (R104, R303, R304, R366). -/
inductive ItemKind where
  | progLoad
  | tableLoad
  | launch
  | groupDefine
  | collective
  | update
deriving DecidableEq, Repr

/-- A work-queue item: its charge and the values it brings. -/
structure Item where
  kind  : ItemKind
  ctx   : Nat
  cseq  : Nat
  entry : Nat := 0                    -- launch entry index, store index or slot, group number
  args  : List Word64 := []
  data  : List Byte := []
deriving DecidableEq, Repr

/-- The item that a core runs, and where its sequencer stands (R85, R88, R107, R108). -/
structure Run where
  item     : Item
  halted   : Bool := false            -- HALT executed
  g1       : Word64 := 0              -- g1 at HALT
  stopping : Bool := false            -- a stop of R108 or R109 is on its way to this core
  stopped  : Bool := false            -- it trapped, or the stop has reached it
  holding  : Bool := false            -- a waiting instruction holds (R88)
  waiting  : Bool := false            -- a wait stands at a riser
  cores    : Nat := 0                 -- `MOD_CORES.LOGICAL` when it started (R100)
deriving DecidableEq, Repr

/-- A descriptor in progress at the head of an engine's queue (R93, R126, R230). -/
structure Job where
  addr    : Nat
  pc      : Nat                       -- of the dispatching instruction
  ctx     : Nat
  cseq    : Nat
  desc    : List Byte := []
  /-- 0 checked or waiting for a grant, 1 waiting for its start riser, 2 ready, 3 running, 4 done, 5 failed, 6 held. -/
  stage   : Nat := 0
  granted : Nat := 0                  -- watts held
  base    : Nat := 0                  -- its grant at 0.78 V
  since   : Nat := 0                  -- when it asked for a grant
  seed    : Word64 := 0
  step    : Word64 := 0
  thr     : Nat := 64
  kt      : Nat := 0
  row     : Nat := 0
  fail    : Option (Nat × Nat × Bool) := none -- a runner kind's failure to come: status, address, its own record raised
  sent    : Nat := 0                  -- entries moved by a runner kind
  ovf     : Nat × Nat × Nat := (0, 0, 0)      -- merge overflows of this tile: count, first BLOCK, its FP32 bits
  latched : Bool := false             -- an array descriptor has passed its checks and latched the registers (R125, R154)
  preload : Bool := false             -- its tile 0 was loaded during the last tile of the descriptor before it (R127)
  resDone : Bool := false             -- the class 2 record of the current group has been raised (R162)
  xDone   : Bool := false             -- the X scale records of the current group have been raised (R162)
  wSeen   : Nat := 0                  -- tiles whose W scale records have been raised (R162)
deriving DecidableEq, Repr

/-- One engine: its dispatch queue of (descriptor address, dispatching pc, context, CSEQ), its job, and of an array the
descriptor behind the running one, checked and waiting for its grant or holding it (R127). -/
structure Engine where
  queue : List (Nat × Nat × Nat × Nat) := []
  job   : Option Job := none
  ahead : Option Job := none
deriving DecidableEq, Repr

/-- One tile of the stationary operand in an array's cells (R111, R115): its number, the active rows of element codes, the
scale bytes by block of 32 rows, and the weight checksum of each row as 48 bits of the check format (R130). -/
structure Tile where
  kt     : Nat
  elems  : List (List Word16)
  scales : List (List Byte)
  sums   : List Nat
deriving DecidableEq, Repr

/-- The cells, shadow registers and staging buffers of one array (R111, R115, R119): the tile in place, the tile loaded behind
it, the rows of columns of the two last groups staged, and which buffer holds the latest. -/
structure Cells where
  tile    : Option Tile := none
  shadow  : Option Tile := none
  staging : List (List Word32) × List (List Word32) := ([], [])
  second  : Bool := false
deriving DecidableEq, Repr

/-- A group-table entry (R304 to R306). -/
structure Group where
  params  : List Nat := []            -- the six words at 0x00 to 0x28
  hash    : Word64 := 0
  nextSeq : Nat := 0
  sentMail : List (Nat × Nat) := []   -- of a core's entry: messages sent, by 2 × rank + mailbox (R318)
  took    : List (Nat × Nat) := []    -- of a core's entry: lines taken, by mailbox
deriving DecidableEq, Repr

/-- One logical core (R82 to R85). -/
structure Core where
  g        : Tab Word64 := []
  p        : Word16 := 0
  pc       : Nat := 0
  instr    : Tab Word64 := []
  tables   : Tab Byte := []
  scratch  : Tab Byte := []
  spBad    : List Nat := []           -- lasting-uncorrectable word addresses
  acc      : Tab Word32 := []         -- array × 32,768 + row × 128 + column
  accBad   : List Nat := []           -- uncorrectable pairs
  region   : List (Nat × Word64) := []    -- registers that differ from R195's reset values
  regionL  : List (Nat × Word64) := []    -- the latched copy (R197)
  runners  : Tab Runner := []
  risers   : Tab Riser := []
  flows    : Tab Flow := []
  queue    : List Item := []          -- at most four (R104)
  hubItems : List Item := []          -- items that the hub holds for the full queue, in arrival order (R104)
  run      : Option Run := none
  engines  : Tab Engine := []         -- 0, 1 arrays; 2 vector unit; 3 to 6 movers (R90 QWAIT)
  cells    : Tab Cells := []          -- of arrays 0 and 1
  /-- Array descriptors (array, address) that were dispatched and whose operands or accumulator rows have been written since
  (R123). -/
  breached : List (Nat × Nat) := []
  reservoir : Nat := 0
  halt     : Bool := false
  haltedAt : Bool := false            -- holding at a breakpoint
  bpEn     : Bool := false
  bpPc     : Nat := 0
  bpSkip   : Bool := false            -- resumed from a breakpoint: the instruction at BP_PC runs once
  dirtyColl : Bool := false
  dirtyUpd : Bool := false
  /-- Versions of the collective and the update library that the store's library ranges hold (R302, R366). -/
  libs     : Option Nat × Option Nat := (none, none)
  ucode    : Nat := 0                 -- vector library version of the microcode store
  timeCopy : Nat := 0
  imgInstr : Tab Word64 := []         -- the Afiup's image copies (R102)
  imgTables : Tab Byte := []
  /-- Transfers sent, 1,024 × mover + flow: dispatching pc, context, CSEQ of the latest one (R229). -/
  sends    : Tab (Nat × Nat × Nat) := []
  groups   : Tab Group := []          -- its group table, in the firmware's working store (R302, R304)
deriving DecidableEq, Repr

/-- A binding of a logical core as `CORE_BIND` shows it (R24); it follows from the factory map and the fence record (R22). -/
structure Bind where
  bound : Bool := false
  fromReserve : Bool := false
  site  : Nat := 0                    -- in the layout of CORE_BIND[7:0] (R24)
deriving DecidableEq, Repr

/-! ## Links, ports, routing -/

/-- The link states of R268, in the order of their codes. -/
inductive LinkSt where
  | dark
  | training
  | identify
  | active
  | keepalive
  | dropped
  | quarantined
deriving DecidableEq, Repr

/-- A frame kept for replay (R265). -/
structure Kept where
  fseq  : Nat
  bseq  : Nat
  shots : List Shot
deriving DecidableEq, Repr

/-- A peer record as observed (R269, R276). -/
structure Peer where
  serial  : Nat := 0
  port    : Nat := 0
  link    : Nat := 0
  level   : Nat := 0
  min     : Nat := 0
  code    : Nat := 0
  mapVer  : Nat := 0
  coord   : Nat := 0
deriving DecidableEq, Repr

/-- One link end (R261 to R272, R280). -/
structure Link where
  st       : LinkSt := .dark
  reason   : Nat := 0
  level    : Nat := 0
  drops    : Nat := 0
  txFseq   : Nat := 0                 -- next FSEQ to send
  rxFseq   : Nat := 4095              -- last FSEQ received in order
  retryReq : Bool := false
  kept     : List Kept := []
  replays  : Nat := 0                 -- consecutive failed replays of the oldest frame
  retryTimes : List Nat := []         -- times of the retry events of the last 1 ms
  stuck    : Bool := false            -- the drop allowance is spent: stays DROPPED until a retrain or map change
  leaving  : Bool := false
  darkNext : Bool := false            -- goes DARK instead of TRAINING (R275)
  noLeave  : Bool := false            -- leaves on a peer's LEAVE: announces none
  mseq     : Nat := 0
  chal     : List Byte := []          -- the challenge this end sent
  peer     : Option Peer := none      -- last identity record observed
  ownOk    : Option Bool := none      -- this end's verdict
  ownReason : Nat := 0
  negLevel : Nat := 0
  peerOk   : Option Bool := none
  peerReason : Nat := 0
  loopback : Option LinkSt := none    -- prior state during test 3 (R462)
  loopDst  : Nat := 0
  reps     : List (Nat × Nat × Nat × Nat) := []   -- DROP and LEAVE to repeat: type, link index, reason, times left
  told     : Bool := false            -- its LEAVE has been announced
  parts    : List (Nat × Nat × List Byte) := []   -- fragments held: MSEQ, FRAG, content (R272)
deriving DecidableEq, Repr

/-- One link port (R263, R264, R272, R295). -/
structure LPort where
  txBseq  : Nat := 0
  rxBseq  : Nat := 0                  -- next BSEQ expected
  held    : List (Nat × List Shot) := []   -- frames held for reassembly
  used    : List (Nat × Nat) := []    -- credits used by lane
  owed    : List (Nat × Nat) := []    -- credits to return by lane
  inbuf   : List Shot := []           -- shots taken, oldest first
  outq    : List Shot := []           -- shots waiting for a frame
  intentOut : Bool := false
  intentIn : Bool := false
  cursor  : Nat := 0                  -- link index after which the next frame goes
  resend  : List (Nat × List Shot) := []   -- frames of dropped links to send again, by BSEQ
  steady  : Bool := false             -- UP or DEGRADED without interruption since the switch (R295)
  mirrorq : List Shot := []           -- mirror shots of this module's Afiup (R393)
  sinceMirror : Nat := 0              -- data shots that have left since the last of them
  ctlNext  : Nat := 2                 -- the control lane, and the data lane, whose turn it is (R289)
  dataNext : Nat := 0
  lastIn  : List (Nat × Nat) := []    -- by lane, the input port served last (R289)
  fwHold  : Bool := false             -- its links retrain under a firmware update: its traffic is held (R398)
deriving DecidableEq, Repr

/-- A route table (R290, R291): directions by axis, entry 0 +, 1 −, 2 unreachable. -/
structure RouteTab where
  version : Nat := 0
  dirs    : List (List Nat) := [[], [], [], [], []]
deriving DecidableEq, Repr

/-- A multicast entry (R296). -/
structure Mcast where
  inPort : Nat := 0
  outs   : Nat := 0
  cores  : Nat := 0
deriving DecidableEq, Repr

/-- A shot that the hub or a mesh holds for a core (R26): the input port whose lane's credit it keeps (12 for the mesh), and a
key that the held copies of one shot share. -/
structure Held where
  shot : Shot
  port : Nat
  lane : Nat
  key  : Nat
deriving DecidableEq, Repr

/-- The router (R290 to R299). -/
structure Route where
  epoch   : Nat := 0
  cur     : RouteTab := {}
  old     : Option (Nat × RouteTab) := none
  next    : Option RouteTab := none
  drainIn : List Nat := []            -- 64 × epoch + 4 × port + lane: no further shot of the epoch will arrive
  drainSent : List Nat := []          -- 4 × port + lane
  dieDrained : Bool := false
  windows : List (Nat × Nat) := []    -- reason, time of its last record (R287)
  mcast   : List (Nat × Mcast) := []
  ret     : List (Nat × Nat × Nat × Nat) := []  -- core × 1,024 + flow, source coordinate, core, mover (R259)
  nacked  : List Nat := []            -- transfers already acknowledged by a drop
  heldShots : List Held := []         -- shots held for a core, oldest first (R26)
  holds   : Nat := 0                  -- shots forwarded so far, the key of the last one
  waitDrain : Option (Nat × Nat) := none      -- the waiting ROUTE_EPOCH_SWITCH
  switchTime : Nat := 0
deriving DecidableEq, Repr

/-! ## Collectives and steps -/

/-- A collective that is placed on this module (R303, R310, R323). -/
structure Coll where
  ctx     : Nat
  cseq    : Nat
  opcode  : Nat
  group   : Nat
  collSeq : Nat
  started : List Nat := []            -- cores whose item has started
  readyIn : List (Nat × Nat) := []    -- (core, 0 predecessor / 1 successor) heard
  grants  : List (Nat × Nat × Nat) := []      -- (core, slot, segment)
  counts  : List (Nat × Nat) := []    -- source rank, count
  owners   : List (Nat × Nat × Word64 × Nat) := []   -- chunk, slice, digest and bytes reported by its owner
  hop      : Option Nat := none       -- the rank before the bypassed link, in detour mode (R327)
  relay    : Bool := false            -- this module relays
  finishes : List Nat := []           -- ranks of detour members that have finished
  portDown : Bool := false            -- a PORT_DOWN since it began (R326)
  axis     : Nat := 0                 -- DETOUR_AXIS and DETOUR_DIR
  dir      : Nat := 0
  sends    : List Nat := []           -- send counts of ALL_TO_ALL_V
  -- by 2 × core + direction (0 from the predecessor, 1 from the successor): grants given, segments landed, segments sent, and
  -- the bytes that landed (R317)
  granted  : List (Nat × Nat) := []
  landed   : List (Nat × Nat) := []
  sent     : List (Nat × Nat) := []
  got      : List (Nat × List Byte) := []
deriving DecidableEq, Repr

/-- The step states (R356). -/
inductive StepSt where
  | idle
  | forward
  | backward
  | exchange
  | updating
  | updated
  | diverged
deriving DecidableEq, Repr

/-- A seal on this module (R372 to R375). -/
structure SealRun where
  ctx    : Nat
  cseq   : Nat
  group  : Nat
  stage  : Nat := 0                   -- index into the selected axes
  own    : SealRec                    -- stage-input record; the combined record when done
  sent   : List (Nat × SealRec) := [] -- stage-input records sent, by axis
  done   : Bool := false              -- completed: it answers until the next FORWARD mark
deriving DecidableEq, Repr

/-- A chunk in flight (R366, R368): the step of the procedure that it has passed, its undo slot, and the buffer in the scratchpad. -/
structure ChunkWork where
  chunk : Nat
  stage : Nat := 1
  slot  : Nat := 0
  buf   : List Byte := []
  grads : List Byte := []
deriving DecidableEq, Repr

/-- The step state (R355 to R376). -/
structure Step where
  st       : StepSt := .idle
  ctx      : Nat := 0
  step     : Nat := 0
  lastSealed : Option Nat := none
  attempts : Nat := 1
  plan     : List Nat := []           -- words of the backward plan (R347)
  planHash : Option Word64 := none    -- of the first UPDATE mark (R365)
  updPlan  : Nat := 0                 -- address of the update plan
  stepGs   : Word32 := 0
  logBase  : Nat := 0
  logBytes : Nat := 0
  logUsed  : List (Nat × Nat) := []   -- records by core
  logOvf   : Bool := false
  log      : List (Nat × List Byte) := []     -- core, record, oldest first
  spillSeen : Bool := false
  shortSeen : Bool := false
  wrote    : Bool := false            -- the UPDATE mark in force has written a chunk (R369)
  touched  : Bool := false            -- some UPDATE mark of the step has written a chunk (R457)
  divMask  : Nat := 0
  folds    : List (Nat × Nat × Nat × Word64) := []   -- folds heard: step, group, COLL_SEQ, value
  stages   : List (Nat × Nat × Nat × SealRec) := []  -- seal records heard: step, axis, origin, record
  sealing  : Option SealRun := none
  updCtx   : Nat × Nat := (0, 0)      -- context and CSEQ of the running UPDATE mark
  updCores : List Nat := []           -- the bound cores that its items went to
  inUpdate : Bool := false            -- an UPDATE mark has been accepted since the EXCHANGE mark or the REDO
  work     : List ChunkWork := []     -- chunks in flight on the cores of the UPDATE mark, oldest first
  nonfinite : Nat := 0                -- weights written non-finite
deriving DecidableEq, Repr

/-- A piece that the holder keeps (R394): address in the partner's fast tier, step, digest, and the serial under which the digest was
formed. -/
structure HeldPiece where
  addr   : Nat
  step   : Nat
  digest : Word64
  serial : Nat
deriving DecidableEq, Repr

/-- Twins (R391 to R397). -/
structure Twin where
  -- as holder
  bound    : Option (Nat × Nat) := none       -- partner coordinate and serial
  committed : Option Nat := none
  pieces   : List HeldPiece := []
  newPieces : Nat := 0                        -- pieces written since the last commit
  asked    : Bool := false                    -- NO_IMAGE has gone out and no image has come since
  discarding : Bool := false                  -- the pieces of the delta in progress are discarded
  -- as partner
  acked    : Option Nat := none
  sending  : Option (Nat × Bool × Nat) := none          -- delta in progress: step, full, pieces
  queued   : Option (Nat × Bool × List Nat) := none     -- the delta that follows its acknowledgement
  own      : List Nat := []                   -- piece addresses of a full delta of the last sealed step
  -- restore in progress
  restore  : Option (Nat × Nat) := none       -- context and CSEQ
  restored : List Nat := []                   -- addresses written back
  corrupt  : Bool := false
deriving DecidableEq, Repr

/-- A journalled charge as accepted, with its status and RESULT once it has retired (R400). -/
structure JCharge where
  entry  : Entry
  status : Nat := 0
  result : Nat := 0
  done   : Bool := false
deriving DecidableEq, Repr

/-- A collective of a captured group that ended: the charge's CSEQ, and what its messages and segments brought (R401). -/
structure JColl where
  cseq   : Nat
  coll   : Coll
deriving DecidableEq, Repr

/-- A journalled transfer across the module boundary (R400), with its shots when it is captured (R401); an outbound one with
the CSEQ of the charge that sent it. -/
structure JTransfer where
  cseq     : Nat := 0
  inbound  : Bool
  peer     : Nat                      -- coordinate
  peerCore : Nat
  own      : Nat                      -- logical core
  flow     : Nat
  shots    : Nat
  digest   : Word64 := 0
  before   : Nat := 0                 -- transfers sent to the peer before its OPEN
  capture  : Bool := false
  data     : List Shot := []
deriving DecidableEq, Repr

/-- A journal entry (R400). -/
structure JEntry where
  step    : Nat
  seed    : Word64
  astep   : Word64
  thr     : Nat
  versions : List Nat
  admin   : Bool := false                     -- the step context is administrative
  charges : List JCharge := []
  hostDigests : List (Nat × Word64) := []     -- CSEQ, digest
  log     : List (List Byte) := []
  colls   : List JColl := []
  transfers : List JTransfer := []            -- newest first
  captured : Nat := 0                         -- bytes captured
  capStop  : Bool := false                    -- capture has stopped for this step
  opened  : Bool := true
deriving DecidableEq, Repr

/-- The journal and the capture selection (R400, R401). -/
structure Journal where
  entries : List JEntry := []                 -- newest first, at most four
  capGroups : List Nat := []
  capSends : Bool := false
  nextGroups : List Nat := []
  nextSends : Bool := false
  running : Option (Nat × Nat) := none        -- a RUN in progress
  shadow  : Option JEntry := none             -- what the RUN has formed so far (R402)
  saved   : Option Step := none               -- the step state that the RUN found
  landed  : List Nat := []                    -- captured transfers that have landed, by position in the entry
deriving DecidableEq, Repr

/-! ## Fences -/

/-- A fence in progress on a die (R383): stage 1 held, 2 stopped, 3 transplanted, 5 transplant failed. -/
structure Fence where
  core    : Nat
  cause   : Nat
  charges : List (Nat × Nat) := []    -- CORE_FENCE charges that wait for it
  stage   : Nat := 0
  newSite : Option Nat := none
  stopNs  : Nat := 0
  moveNs  : Nat := 0
  badWords : Nat := 0
  item    : Nat := 0
deriving DecidableEq, Repr

/-- Fencing (R380 to R389). -/
structure Fencing where
  waiting : List Fence := []                  -- requests of both dies in order of arrival
  active  : List (Nat × Fence) := []          -- die, fence in progress
  fenced  : List Nat := []                    -- fence record: fenced sites (non-volatile)
  withdrawn : List Nat := []                  -- withdrawn logical cores (non-volatile)
  bound   : List (Nat × Nat) := []            -- fence record: logical core, reserve site bound
  faults  : List (Nat × Nat × Nat) := []      -- site, class, events in the open window
  strikes : List (Nat × Nat × Nat) := []      -- site and array with a strike, check groups since then (R135)
  restarting : Bool := false                  -- an Afiup restart is in progress (R398)
  heldMsgs : List (Nat × List Byte × List Byte) := []   -- messages to the Afiup that the restart holds: coordinate, opening payload, data
  testing : List (Nat × Nat × Nat) := []      -- sites under SITE_TEST with context and CSEQ
deriving DecidableEq, Repr

/-! ## Power, security, telemetry, repair -/

/-- Power states that registers name (R408, R417). -/
inductive PwrSt where
  | active
  | idleLit
  | drawn
deriving DecidableEq, Repr

/-- The power governor (R405 to R417). -/
structure Power where
  st       : PwrSt := .idleLit
  autoIdle : Bool := true
  rail     : Nat := 2                         -- code set by POWER_LIMIT_SET
  railMv   : Nat := 0
  threshold : Nat := 660                      -- rail supervisor threshold [mV] (R39)
  limitW   : Nat := 2200
  vinMv    : Nat := 0
  pinW     : Nat := 0
  peakW    : Nat := 0
  avgW     : Nat := 0                         -- 100 ms average
  low      : Bool := false
  high     : Bool := false
  vinNow   : Nat := 40000                     -- input voltage that limits the pool [mV]
  cuts     : Nat := 0                         -- cuts of 5 % in force (R414)
  excess   : Bool := false                    -- the overdraw that was recorded last goes on (R414)
  heat     : Nat := 0                         -- steps of 5 % that a throttle took off the pool (R415)
  throttle : Bool := false
  tjMax    : Nat := 0
  applied  : Nat := 2                         -- rail code applied in ACTIVE; below `rail` while a raise waits
  wake     : Bool := false                    -- the wake from IDLE_LIT is in progress
  drawMs   : Nat := 0
  waiting  : List (Nat × Nat) := []           -- waiting requests: core, engine
  target   : Option PwrSt := none             -- of the POWER_STATE_SET in progress
  charge   : Option (Nat × Nat) := none       -- its charge
  intent   : Bool := false                    -- drawn intent sent
  railLow  : Bool := false                    -- CORE_RAIL_LOW halts fabric and dispatch
  lowDrawn : Bool := false                    -- it came in DRAWN: contents renewed on leaving (R39)
deriving DecidableEq, Repr

/-- A firmware image as the store holds it (R423, R424). -/
structure Image where
  valid   : Bool := true                      -- signature, digest and family check
  eng     : Bool := false
  svn     : Nat := 0
  version : Nat := 1
  bytes   : List Byte := []                   -- manifest and payload
deriving DecidableEq, Repr

/-- The Crucible (R420 to R437). -/
structure Sec where
  lifecycle : Nat := 2
  fieldOpens : Nat := 0
  key      : Bool := true
  eng      : List Bool := [false, false, false, false, false, false, false, false]   -- image in force is an engineering one
  applying : Option (Nat × Nat × Nat) := none   -- FW_UPDATE being applied: context, CSEQ, subsystem
  sincePor : Bool := false
  scopes   : Nat := 0
  debug    : Nat := 0
  nonce    : Option Nat := none               -- number of the live nonce
  nonces   : Nat := 0                         -- nonces issued
  svn      : List Nat := [0, 0, 0, 0, 0, 0, 0, 0]
  version  : List Nat := [0, 0, 0, 0, 0, 0, 0, 0]
  meas     : List (List Byte) := [[], [], [], [], [], [], [], []]     -- [] stands for 64 zero bytes
  fw       : List (Image × Image) := [({}, {}), ({}, {}), ({}, {}), ({}, {}), ({}, {}), ({}, {}), ({}, {}), ({}, {})]
  cert     : List Byte := []
  staged   : Bool := false                    -- LIFECYCLE_ADVANCE stage 0 done in BLANK
  timed    : Bool := false                    -- the open session has a duration
  line     : List (Nat × Nat) := []           -- charges of class 0x7xx in order of dispatch: context, CSEQ (R433)
deriving DecidableEq, Repr

/-- A buffered event record (R448): all but PHASE, which the ring gives. -/
structure Event where
  status   : Nat
  severity : Nat
  source   : Nat
  eseq     : Nat
  time     : Nat
  subject  : Nat := 0
  where_   : Nat := 0
  valA     : Nat := 0
  valB     : Nat := 0
deriving DecidableEq, Repr

/-- The event ring (R451). -/
structure Ring where
  ctx      : Nat
  base     : Nat
  consAddr : Nat
  log2     : Nat
  msixEn   : Bool
  msixVec  : Nat
  written  : Nat := 0
  consumed : Nat := 0
  pollTime : Nat := 0
deriving DecidableEq, Repr

/-- A phase timing record (R444, R445). -/
structure PhaseRec where
  step     : Nat
  sat      : Nat := 0
  fin      : Nat := 0
  attempts : Nat := 1
  times    : List Nat := [0, 0, 0, 0, 0, 0, 0]   -- FORWARD, BACKWARD, EXCHANGE, UPDATE, UPDATED, SEAL, END
  accs     : List Nat := [0, 0, 0, 0, 0, 0, 0, 0, 0, 0, 0, 0]
  busyRem  : Nat := 0                             -- array-steps below one unit of 256
  waitRem  : Nat := 0                             -- nanoseconds of waiting below one unit of 1 µs
deriving DecidableEq, Repr

/-- Telemetry (R439 to R453). Counters are keyed 4,096 × set + index. -/
structure Tel where
  counters : List (Nat × Counter) := []
  buffer   : List Event := []                 -- oldest first, at most 4,096
  eseq     : Nat := 0
  lost     : Counter := {}
  lostNow  : Nat := 0                         -- lost since the buffer filled
  firstLost : Nat := 0
  ring     : Option Ring := none
  warnTime : Option Nat := none               -- last MSI-X message after a warning
  phases   : List PhaseRec := []              -- newest first
deriving DecidableEq, Repr

/-- Repair state of the fast tier (R244 to R247); a row is STACK, PCH, BANK, ROW packed as in R245 [63:35]. -/
structure Repair where
  cands    : List (Nat × Nat × Nat × Nat) := []   -- row, UNITS, SOURCE, STATE
  unlisted : Nat := 0
  hardUsed : List Nat := []                   -- bank groups: (stack × 64 + pch) × 16 + group
  softUsed : List Nat := []
  fails    : List (Nat × Nat) := []           -- (stack × 64 + pch), rows failed by the last test
  passes   : List (Nat × Nat) := []
deriving DecidableEq, Repr

/-- The bridges (R29): consecutive failed resends, and whether the die is lost. -/
structure Bridge where
  fails : Nat := 0
  lost  : Bool := false
deriving DecidableEq, Repr

/-! ## The module -/

structure State where
  /-- The commands that wait, first in, first out. -/
  pending : List Instr := []
  ident   : Ident := {}
  boot    : Boot := {}
  pins    : Pins := {}
  time    : Nat := 0                          -- MOD_TIME.NS, modulo 2^64
  osc     : Nat := 0                          -- oscillator periods of the spread profile passed (R44), below 800
  oscPs   : Nat := 0                          -- picoseconds that MOD_TIME has not yet counted, below 1,000
  fabA    : Nat := 0                          -- FAB_RATE
  fabB    : Nat := 0
  fabWin  : Nat := 0
  portA   : Port := {}
  portB   : Port := {}
  ctxs    : Tab Ctx := []
  cores   : Tab Core := []
  mem     : List (Nat × Byte) := []           -- fast and deep tier, by device address
  poison  : List Nat := []                    -- lasting units, by device address
  seed    : Word64 := 0                       -- ARITH_SEED
  astep   : Word64 := 0                       -- ARITH_STEP
  thr     : Nat := 64                         -- ARITH_CTL.SR_THRESHOLD
  links   : Tab Link := []
  lports  : Tab LPort := []
  protoLevel : Nat := 0x10
  protoMin : Nat := 0x0E
  protoVer : Nat := 1                         -- link firmware version that they belong to
  map     : Option (List Byte) := none        -- the installation map in force
  route   : Route := {}
  groups  : Tab Group := []
  colls   : List Coll := []
  ends    : List (Word64 × Nat × Nat × Nat) := []   -- end messages: hash, COLL_SEQ, status, origin
  rings   : List (Word64 × List Nat) := []          -- hash and parameters of groups that an early end has withdrawn (R323)
  mail    : List (Nat × Nat × CollLine) := []       -- mailbox lines that no item has taken yet: core, CTYPE, line (R318)
  step    : Step := {}
  twin    : Twin := {}
  journal : Journal := {}
  fence   : Fencing := {}
  power   : Power := {}
  sec     : Sec := {}
  tel     : Tel := {}
  repair  : Repair := {}
  bridgeA : Bridge := {}
  bridgeB : Bridge := {}
  /-- What the module has sent outside, newest first (the model's own field). -/
  out     : List Output := []
  /-- Numbers the free values taken so far (the model's own field). -/
  free    : Nat := 0
deriving DecidableEq, Repr

/-- The module right after power-on reset. -/
def State.reset : State := {}

end Sys2Proof.Machine
end

