-- ==== Sys2Proof/Machine/Status.lean ====
section
/-! DEFINITION. The status values of the module, each with the value that the spec's status tables give it (R79, R110,
R139, R166, R183, R201, R220, R248, R282, R301, R328, R354, R379, R404, R419, R438, R454, R467), and their severities. -/

namespace Sys2Proof.Machine

namespace Status

-- R79
def completed : Nat := 0x0000
def nothingToAbort : Nat := 0x0001
def chargeAborted : Nat := 0x0002
def chargeFlushed : Nat := 0x0003
def fieldReserved : Nat := 0x0004
def featureAbsent : Nat := 0x0005
def addressUnpopulated : Nat := 0x0006
def contextMismatch : Nat := 0x0007
def chargeSequence : Nat := 0x0008
def chargeMalformed : Nat := 0x0009
def intakeOffset : Nat := 0x000A
def intakeOverrun : Nat := 0x000B
def contextOwned : Nat := 0x000C
def contextNotAdmin : Nat := 0x000D
def twinVariantMismatch : Nat := 0x000E
def hopperRegionInvalid : Nat := 0x000F
def hopperRegionProtected : Nat := 0x0010
def hostPortLost : Nat := 0x0011
def peerAborted : Nat := 0x0012
def bridgeLost : Nat := 0x0013

-- R110
def salfelIllegal : Nat := 0x0100
def salfelAlign : Nat := 0x0101
def salfelAddress : Nat := 0x0102
def salfelTrap : Nat := 0x0103
def coreWithdrawn : Nat := 0x0104
def coreMaskEmpty : Nat := 0x0105
def progLoadRange : Nat := 0x0106

-- R139
def arrayCheckTransient : Nat := 0x0200
def arrayCheckLasting : Nat := 0x0201
def arrayCheckRounding : Nat := 0x0202
def arrayDescInvalid : Nat := 0x0203
def arrayFormatPair : Nat := 0x0204
def arrayAccRange : Nat := 0x0205
def arrayOperandRange : Nat := 0x0206
def accUncorrectable : Nat := 0x0207

-- R166
def arithSettingInvalid : Nat := 0x0300

-- R183
def vecDescInvalid : Nat := 0x0400
def vecFormat : Nat := 0x0401
def vecOperandRange : Nat := 0x0402
def vecTableInvalid : Nat := 0x0403

-- R201
def scratchRegion : Nat := 0x0500
def scratchUncorrectable : Nat := 0x0501
def scratchAtomicSaturated : Nat := 0x0502

-- R220
def runnerPointerFault : Nat := 0x0600
def runnerDisabled : Nat := 0x0601
def runnerConfigInvalid : Nat := 0x0602
def runnerRemoteRefused : Nat := 0x0603
def runnerRemoteFull : Nat := 0x0604
def riserLap : Nat := 0x0605
def riserSaturated : Nat := 0x0606
def riserSignalInvalid : Nat := 0x0607

-- R248
def moveDescInvalid : Nat := 0x0700
def moveTargetInvalid : Nat := 0x0701
def moveOverlap : Nat := 0x0702
def memLasting : Nat := 0x0703
def memRetryTransient : Nat := 0x0704
def gatherIndexRange : Nat := 0x0705
def repairNoSpare : Nat := 0x0706
def repairTargetInvalid : Nat := 0x0707

-- R282
def linkQuarantined : Nat := 0x0800
def linkDropped : Nat := 0x0801
def linkRetryTransient : Nat := 0x0802
def portDown : Nat := 0x0803
def flowProtocol : Nat := 0x0804
def flowBusy : Nat := 0x0805
def flowAbandoned : Nat := 0x0806
def mapInvalid : Nat := 0x0807
def mapInService : Nat := 0x0808
def linkRetrainRefused : Nat := 0x0809

-- R301
def routeUnreachable : Nat := 0x0900
def routeEpochStale : Nat := 0x0901
def routeTableInvalid : Nat := 0x0902
def routeEpochOrder : Nat := 0x0903
def routeEpochBusy : Nat := 0x0904
def mcastTreeInvalid : Nat := 0x0905
def mcastTreeMismatch : Nat := 0x0906
def shotFencedDrop : Nat := 0x0907

-- R328
def collGroupUndefined : Nat := 0x0A00
def collGroupInvalid : Nat := 0x0A01
def collGroupBusy : Nat := 0x0A02
def collNotMember : Nat := 0x0A03
def collDescInvalid : Nat := 0x0A04
def collSequence : Nat := 0x0A05
def collShapeMismatch : Nat := 0x0A06
def collA2aOverflow : Nat := 0x0A07
def collStalled : Nat := 0x0A08
def linkLost : Nat := 0x0A09

-- R354
def stashSpilled : Nat := 0x0B00
def stashExhausted : Nat := 0x0B01
def stashPlanInvalid : Nat := 0x0B02
def gradFormatChanged : Nat := 0x0B03
def gradFp16Saturated : Nat := 0x0B04

-- R379
def digestDiverged : Nat := 0x0C00
def stepRolledBack : Nat := 0x0C01
def frozenSkipped : Nat := 0x0C02
def frozenWriteRefused : Nat := 0x0C03
def stepPhaseOrder : Nat := 0x0C04
def stepContext : Nat := 0x0C05
def stepMarkInvalid : Nat := 0x0C06
def updatePlanInvalid : Nat := 0x0C07
def updatePlanChanged : Nat := 0x0C08
def updateInterrupted : Nat := 0x0C09
def twinMirrorLagging : Nat := 0x0C0A
def twinUnreachable : Nat := 0x0C0B
def sealStalled : Nat := 0x0C0C
def digestLogFull : Nat := 0x0C0D
def rollbackNotCovered : Nat := 0x0C0E

-- R404
def coreFenced : Nat := 0x0D00
def transplantFailed : Nat := 0x0D01
def capacityShort : Nat := 0x0D02
def storeReloaded : Nat := 0x0D03
def twinHolderBusy : Nat := 0x0D04
def twinMirrorCorrupt : Nat := 0x0D05
def twinMirrorIncomplete : Nat := 0x0D06
def journalStepAbsent : Nat := 0x0D07
def replayNotAllowed : Nat := 0x0D08
def replayDiverged : Nat := 0x0D09
def replayIncomplete : Nat := 0x0D0A
def journalCapturePartial : Nat := 0x0D0B

-- R419
def inputLow : Nat := 0x0E00
def inputHigh : Nat := 0x0E01
def inputLost : Nat := 0x0E02
def thermalThrottle : Nat := 0x0E03
def thermalShutdown : Nat := 0x0E04
def powerOverdraw : Nat := 0x0E05
def powerStateBusy : Nat := 0x0E06
def powerDrawTimeout : Nat := 0x0E07
def powerStateDrawn : Nat := 0x0E08
def powerLimitInvalid : Nat := 0x0E09
def coreRailLow : Nat := 0x0E0A

-- R438
def securityState : Nat := 0x0F00
def securityBusy : Nat := 0x0F01
def fwSignatureInvalid : Nat := 0x0F02
def fwImageInvalid : Nat := 0x0F03
def fwRollback : Nat := 0x0F04
def fwBootFallback : Nat := 0x0F05
def lifecycleOrder : Nat := 0x0F06
def debugTokenInvalid : Nat := 0x0F07
def debugNonceInvalid : Nat := 0x0F08
def debugCounterExhausted : Nat := 0x0F09
def debugMarkFailed : Nat := 0x0F0A

-- R454
def phaseTimerSaturated : Nat := 0x1000
def drossRecorded : Nat := 0x1001
def eventRingOverflow : Nat := 0x1002
def eventRingInvalid : Nat := 0x1003

-- R467
def memTrainFailed : Nat := 0x1100
def testBusy : Nat := 0x1101
def testTargetInvalid : Nat := 0x1102
def testPreempted : Nat := 0x1103
def siteTestFailed : Nat := 0x1104
def fenceNoReserve : Nat := 0x1105
def stepStateLost : Nat := 0x1106

end Status

/-- The statuses that are warnings (R18). -/
def warnings : List Nat :=
  [0x0001, 0x0200, 0x0202, 0x0502, 0x0704, 0x0705, 0x0800, 0x0801, 0x0802, 0x0803,
   0x0806, 0x0B00, 0x0B03, 0x0B04, 0x0C01, 0x0C02, 0x0D00, 0x0D03, 0x0D09, 0x0D0A,
   0x0D0B, 0x0E00, 0x0E01, 0x0E03, 0x0E05, 0x0F05, 0x1000, 0x1001, 0x1002, 0x1106]

/-- The severity of a status (R75, R448): 0 success, 1 warning, 2 failure. -/
def severity (status : Nat) : Nat :=
  if status = 0 then 0 else if warnings.contains status then 1 else 2

end Sys2Proof.Machine
end

