-- ==== Sys2Proof/Machine/Ops.lean ====
section
/-! DEFINITION. The named operations that the meanings share: sparse tables, bit fields and byte order (R15), free values,
outputs, event counters and event records (R439 to R452), and the small accessors of ports, contexts, cores and links. -/

namespace Sys2Proof.Machine

/-- The outcome of a command. -/
abbrev Res := Host.Outcome State Fault Refusal

/-! ## Sparse tables -/

/-- The entry of key `i`, or the default. -/
def tget {β : Type} (d : β) : Tab β → Nat → β
  | [], _ => d
  | (k, v) :: r, i => if k = i then v else tget d r i

/-- Put an entry in its place, in rising key order. -/
def tput {β : Type} : Tab β → Nat → β → Tab β
  | [], i, v => [(i, v)]
  | (k, w) :: r, i, v =>
    if i < k then (i, v) :: (k, w) :: r else if k = i then (i, v) :: r else (k, w) :: tput r i v

/-- Write an entry; the default value is not listed. -/
def tset {β : Type} [DecidableEq β] (d : β) (t : Tab β) (i : Nat) (v : β) : Tab β :=
  if v = d then t.filter (fun e => e.1 != i) else tput t i v

/-- Change an entry. -/
def tmod {β : Type} (d : β) (t : Tab β) (i : Nat) (f : β → β) : Tab β := tput t i (f (tget d t i))

/-- Keys rise strictly and no entry holds the default. -/
def tabWf {β : Type} [DecidableEq β] (d : β) (t : Tab β) : Bool :=
  (t.map Prod.fst).Pairwise (· < ·) && t.all (fun e => e.2 != d)

/-- The canonical form of device memory. -/
def Memory.wf (m : List Host.Cell) : Bool := tabWf 0 m

/-! ## Bits and bytes (R15) -/

/-- The field [hi:lo] of a word. -/
def fld (w hi lo : Nat) : Nat := (w >>> lo) % 2 ^ (hi + 1 - lo)

/-- One bit of a word. -/
def bitOf (w i : Nat) : Bool := (w >>> i) % 2 = 1

/-- A Bool as a bit. -/
def b2n (b : Bool) : Nat := if b then 1 else 0

/-- Little-endian value of bytes. -/
def leNat : List Byte → Nat
  | [] => 0
  | b :: r => b.toNat + 256 * leNat r

/-- `n` little-endian bytes of a value. -/
def toLE : Nat → Nat → List Byte
  | 0, _ => []
  | n + 1, w => BitVec.ofNat 8 w :: toLE n (w / 256)

/-- The `n` bytes at offset `off`; bytes beyond the end read 0. -/
def slice (bs : List Byte) (off n : Nat) : List Byte :=
  let r := (bs.drop off).take n
  r ++ List.replicate (n - r.length) 0

/-- The `n`-byte word at an offset. -/
def wordAt (bs : List Byte) (off n : Nat) : Nat := leNat ((bs.drop off).take n)

/-- The 8-byte word at an offset. -/
def w64 (bs : List Byte) (off : Nat) : Nat := wordAt bs off 8

/-- Sign extension of the low `n` bits of a value to an integer. -/
def sext (n w : Nat) : Int :=
  let v := w % 2 ^ n
  if v < 2 ^ (n - 1) then (v : Int) else (v : Int) - 2 ^ n

/-- Bytes from `a` on. -/
def readB (t : Tab Byte) (a n : Nat) : List Byte := (List.range n).map (fun i => tget 0 t (a + i))

/-- Write bytes from `a` on. -/
def writeB (t : Tab Byte) (a : Nat) : List Byte → Tab Byte
  | [] => t
  | b :: r => writeB (tset 0 t a b) (a + 1) r

/-- Round up to a multiple. -/
def roundUp (n k : Nat) : Nat := (n + k - 1) / k * k

/-- Ceiling of a quotient. -/
def cdiv (n k : Nat) : Nat := (n + k - 1) / k

/-- Two byte ranges meet. -/
def overlaps (a n b m : Nat) : Bool := n ≠ 0 && m ≠ 0 && a < b + m && b < a + n

/-- The first entry of a pair list, or a default. -/
def lookD {β : Type} (d : β) (l : List (Nat × β)) (i : Nat) : β := tget d l i

/-- Insert into a rising list without repeats. -/
def insNat : List Nat → Nat → List Nat
  | [], i => [i]
  | k :: r, i => if i < k then i :: k :: r else if k = i then k :: r else k :: insNat r i

/-- The set bits of a mask below `n`. -/
def bitsOf (n mask : Nat) : List Nat := (List.range n).filter (bitOf mask)

/-! ## Outputs and free values -/

/-- The module sends something outside. -/
def emit (s : State) (o : Output) : State := { s with out := o :: s.out }

/-- Take the next number of the free values. -/
def bumpFree (s : State) : State := { s with free := s.free + 1 }

/-! ## Accessors -/

def getPort (s : State) : HostPort → Port
  | .a => s.portA
  | .b => s.portB

def setPort (s : State) (p : HostPort) (x : Port) : State :=
  match p with
  | .a => { s with portA := x }
  | .b => { s with portB := x }

def otherPort : HostPort → HostPort
  | .a => .b
  | .b => .a

/-- The port can master: Bus Master Enable set, link up, in D0 (R51). -/
def canMaster (s : State) (p : HostPort) : Bool :=
  let x := getPort s p
  x.bme && x.linkUp && !x.d3hot

/-- The private context in which a RUN of REPLAY re-executes charges (R402). -/
def replayCtx : Nat := 1024

/-- No context: the step context of a step whose context has been closed (R355). -/
def noCtx : Nat := 2048

def getCtx (s : State) (c : Nat) : Ctx := tget {} s.ctxs c
def setCtx (s : State) (c : Nat) (x : Ctx) : State := { s with ctxs := tput s.ctxs c x }
def modCtx (s : State) (c : Nat) (f : Ctx → Ctx) : State := setCtx s c (f (getCtx s c))

def getCore (s : State) (l : Nat) : Core := tget {} s.cores l
def setCore (s : State) (l : Nat) (x : Core) : State := { s with cores := tput s.cores l x }
def modCore (s : State) (l : Nat) (f : Core → Core) : State := setCore s l (f (getCore s l))

def getLink (s : State) (n : Nat) : Link := tget {} s.links n
def setLink (s : State) (n : Nat) (x : Link) : State := { s with links := tput s.links n x }
def modLink (s : State) (n : Nat) (f : Link → Link) : State := setLink s n (f (getLink s n))

def getLPort (s : State) (p : Nat) : LPort := tget {} s.lports p
def setLPort (s : State) (p : Nat) (x : LPort) : State := { s with lports := tput s.lports p x }
def modLPort (s : State) (p : Nat) (f : LPort → LPort) : State := setLPort s p (f (getLPort s p))

/-! ## The instruction store (R84, R302, R366) -/

/-- What an instruction index holds when the store lists no other word: a word of the library that a library range holds,
else 0. -/
def instrDefault (x : Core) (i : Nat) : Word64 :=
  if 30720 ≤ i then (match x.libs.1 with
    | some v => Config.libraryWord v i
    | none => 0)
  else if 28672 ≤ i then (match x.libs.2 with
    | some v => Config.libraryWord v i
    | none => 0)
  else 0

/-- A word of the instruction store. -/
def getInstr (x : Core) (i : Nat) : Word64 := tget (instrDefault x i) x.instr i

/-- Write a word of the instruction store. -/
def putInstr (x : Core) (i : Nat) (w : Word64) : Core := { x with instr := tset (instrDefault x i) x.instr i w }

/-! ## Event counters (R439 to R443) -/

/-- An event counter advances by `n`: it wraps at 2^48 and sets OVF. -/
def Counter.addN (c : Counter) (n : Nat) : Counter :=
  { count := (c.count + n) % 2 ^ 48, ovf := c.ovf || decide (2 ^ 48 ≤ c.count + n) }

/-- The 64-bit word of an event counter (R440). -/
def Counter.word (c : Counter) : Nat := c.count + b2n c.ovf * 2 ^ 63

/-- Counter `i` of counter set `set` advances. -/
def bump (s : State) (set i n : Nat) : State :=
  { s with tel := { s.tel with counters := tmod {} s.tel.counters (4096 * set + i) (·.addN n) } }

/-- Counter `i` of counter set `set`; counter 1 of set 0 is `EVT_LOST` (R443). -/
def counterOf (s : State) (set i : Nat) : Counter :=
  if set = 0 ∧ i = 1 then s.tel.lost else tget {} s.tel.counters (4096 * set + i)

/-- Counter `i` of core `l` (set 1) advances. -/
def bumpCore (s : State) (l i n : Nat) : State := bump s 1 (32 * l + i) n

/-! ## Ordering code, sites and bindings (R1, R11, R21 to R25) -/

/-- The module is a GT48-L8. -/
def isL8 (s : State) : Bool := s.ident.code = .l8

/-- The die of a logical core (R21). -/
def dieOf (l : Nat) : Nat := if l < 44 then 0 else 1

/-- The sites of a die in row order, in the layout of `CORE_BIND[7:0]`. -/
def dieSites (d : Nat) : List Nat :=
  (List.range 6).flatMap (fun r => (List.range 8).map (fun c => 128 * d + 16 * r + c))

/-- The sites of a die that are not reserve sites. -/
def plainSites (s : State) (d : Nat) : List Nat := (dieSites d).filter (fun x => !s.ident.reserves.contains x)

/-- The binding of a logical core, built from the factory map and the fence record (R22). The factory map binds the cores of a
die to its sites that are not reserve sites in row order: the spec gives no formula (log 85). -/
def bindOf (s : State) (l : Nat) : Bind :=
  if 88 ≤ l ∨ s.fence.withdrawn.contains l then {}
  else match s.fence.bound.find? (fun e => e.1 = l) with
    | some (_, x) => { bound := true, fromReserve := s.ident.reserves.contains x, site := x }
    | none => { bound := true, site := (plainSites s (dieOf l)).getD (l % 44) 0 }

/-- Logical core `l` is bound to a site. -/
def isBound (s : State) (l : Nat) : Bool := (bindOf s l).bound

/-- The site of a logical core. -/
def siteOf (s : State) (l : Nat) : Nat := (bindOf s l).site

/-- The logical cores that are bound, in order. -/
def boundCores (s : State) : List Nat := (List.range 88).filter (isBound s)

/-- The reserve pool of a die: sites that are neither bound to a logical core nor fenced (R22, R465). -/
def spareSites (s : State) (d : Nat) : List Nat :=
  (dieSites d).filter (fun x => !s.fence.fenced.contains x && !(boundCores s).any (fun l => siteOf s l = x))

/-- The bridge of a die is lost: the die is unreachable (R29). -/
def dieLost (s : State) (d : Nat) : Bool := if d = 0 then s.bridgeA.lost else s.bridgeB.lost

/-- The stages of the self-timed fabric advance: not at the retention level of DRAWN, not while `CORE_RAIL_LOW` halts it, not
without rails (R36, R39, R408, R415). -/
def stagesAdvance (s : State) : Bool := s.power.st ≠ .drawn && !s.power.railLow && !s.boot.off && !s.boot.shutdown

/-! ## Event records (R448 to R452) -/

/-- The SUBJECT word (R449): logical core (0x7F none), site (as `CORE_BIND[7:0]`), array, master or engine, link (63 none), port (15 none), peer
coordinate and peer core. -/
def subjectWord (core site arr master link port peerCoord peerCore : Nat) : Nat :=
  core % 128 + (site / 128) % 2 * 2 ^ 7 + (site / 16) % 8 * 2 ^ 8 + site % 8 * 2 ^ 11 + arr % 4 * 2 ^ 14
    + master % 16 * 2 ^ 16 + link % 64 * 2 ^ 20 + port % 16 * 2 ^ 26 + peerCoord % 2 ^ 14 * 2 ^ 32
    + peerCore % 128 * 2 ^ 46

/-- SUBJECT of a record about nothing but the module. -/
def noSubject : Nat := subjectWord 0x7F 0 0 0 63 15 0 0

/-- SUBJECT of a record about a core, at its site, and a master or engine. -/
def coreSubject (s : State) (l master : Nat) : Nat := subjectWord l (siteOf s l) 0 master 63 15 0 0

/-- SUBJECT of a record about a link and its port. -/
def linkSubject (link port : Nat) : Nat := subjectWord 0x7F 0 0 0 link port 0 0

/-- Enter a record into the buffer, or drop and count it (R452). -/
def enterEvent (s : State) (e : Event) : State :=
  if s.tel.buffer.length < 4096 then
    { s with tel := { s.tel with buffer := s.tel.buffer ++ [{ e with eseq := s.tel.eseq, time := s.time }]
                                 eseq := s.tel.eseq + 1 } }
  else
    { s with tel := { s.tel with eseq := s.tel.eseq + 1
                                 lost := s.tel.lost.addN 1
                                 firstLost := if s.tel.lostNow = 0 then s.tel.eseq else s.tel.firstLost
                                 lostNow := s.tel.lostNow + 1 } }

/-- When records were lost and the buffer has room, one EVENT_RING_OVERFLOW record enters it (R452). -/
def enterOverflow (s : State) : State :=
  if s.tel.lostNow ≠ 0 ∧ s.tel.buffer.length < 4096 then
    let n := s.tel.lostNow
    let f := s.tel.firstLost
    let s := bump { s with tel := { s.tel with lostNow := 0, firstLost := 0 } } 0 0 1
    enterEvent s { status := Status.eventRingOverflow, severity := 1, source := 0, eseq := 0, time := 0,
                   subject := noSubject, valA := n, valB := f }
  else s

/-- Raise one event record. -/
def raiseEv (s : State) (status source subject where_ valA valB : Nat) : State :=
  let s := enterOverflow s
  let s := bump s 0 0 1
  enterEvent s { status := status, severity := severity status, source := source, eseq := 0, time := 0,
                 subject := subject, where_ := where_, valA := valA, valB := valB }

/-- The trap word that the record of a trap's own cause carries (R482). -/
def trapWord (ctx cseq pc : Nat) : Nat := cseq % 2 ^ 32 + ctx % 1024 * 2 ^ 32 + pc % 2 ^ 15 * 2 ^ 42 + 2 ^ 63

/-! ## Fault classification and fence requests (R380 to R382, R387) -/

/-- Request a fence of logical core `l`: merged with a fence of `l` that waits or is under way; a further lasting fault
after the stop waits for the die's next fence (R387). -/
def requestFence (s : State) (l cause : Nat) (charge : List (Nat × Nat)) : State :=
  if !isBound s l then s
  else if s.fence.waiting.any (fun x => x.core = l) then
    { s with fence := { s.fence with waiting := s.fence.waiting.map (fun x =>
      if x.core = l then { x with charges := x.charges ++ charge } else x) } }
  else if s.fence.active.any (fun x => x.2.core = l && (x.2.stage < 2 || cause = 5)) then
    { s with fence := { s.fence with active := s.fence.active.map (fun x =>
      if x.2.core = l then (x.1, { x.2 with charges := x.2.charges ++ charge }) else x) } }
  else { s with fence := { s.fence with waiting := s.fence.waiting ++ [{ core := l, cause := cause, charges := charge }] } }

/-- Events of a fault class that make it lasting (R380): the fourth for a runner, else the second. -/
def faultLimit (cls : Nat) : Nat := if cls = 3 then 4 else 2

/-- One event of fault class `cls` (the causes of R388) on the site of core `l`. The event that reaches the limit inside
the open window requests a fence; the command FAULT_WINDOW_EXPIRY closes a window. -/
def noteFault (s : State) (l cls : Nat) : State :=
  let site := siteOf s l
  let n := match s.fence.faults.find? (fun e => e.1 = site && e.2.1 = cls) with
    | some e => e.2.2 + 1
    | none => 1
  let rest := s.fence.faults.filter (fun e => !(e.1 = site && e.2.1 = cls))
  if faultLimit cls ≤ n then requestFence { s with fence := { s.fence with faults := rest } } l cls []
  else { s with fence := { s.fence with faults := rest ++ [(site, cls, n)] } }

/-- Bits of an event record as 64 bytes, PHASE given (R448). -/
def eventBytes (e : Event) (phase : Bool) : List Byte :=
  toLE 8 (e.valB % 2 ^ 64) ++ toLE 8 (e.valA % 2 ^ 64) ++ toLE 8 (e.where_ % 2 ^ 64) ++ toLE 8 (e.subject % 2 ^ 64)
    ++ toLE 8 0 ++ toLE 8 (e.time % 2 ^ 64) ++ toLE 8 (e.eseq % 2 ^ 64)
    ++ toLE 8 (e.source % 64 * 2 ^ 24 + e.severity % 4 * 2 ^ 30 + e.status % 2 ^ 16 * 2 ^ 32 + b2n phase * 2 ^ 63)

end Sys2Proof.Machine
end

