-- ==== Sys2Proof/Machine/Numerics.lean ====
section
/-! DEFINITION. Numbers: the element formats (R140 to R143), exact arithmetic with special values (R147, R148), rounding to
nearest even, upward (R131) and stochastically (R152), the grain (R155), block scales (R144 to R146), conversion (R158), and
the check and magnitude formats (R130, R131). -/

namespace Sys2Proof.Machine

/-! ## Values -/

/-- A value: a finite nonzero one is ± n / d. -/
inductive Num where
  | nan
  | inf (neg : Bool)
  | zero (neg : Bool)
  | fin (neg : Bool) (n d : Nat)
deriving DecidableEq, Repr

/-- ± n / d, a zero of that sign when n is 0. -/
def mkNum (neg : Bool) (n d : Nat) : Num := if n = 0 then .zero neg else .fin neg n d

/-- ± n × 2^q. -/
def mkPow (neg : Bool) (n : Nat) (q : Int) : Num :=
  if 0 ≤ q then mkNum neg (n * 2 ^ q.toNat) 1 else mkNum neg n (2 ^ (-q).toNat)

def Num.isNan : Num → Bool
  | .nan => true
  | _ => false

def Num.isFin : Num → Bool
  | .nan => false
  | .inf _ => false
  | _ => true

def Num.neg : Num → Num
  | .nan => .nan
  | .inf s => .inf !s
  | .zero s => .zero !s
  | .fin s n d => .fin (!s) n d

def Num.abs : Num → Num
  | .nan => .nan
  | .inf _ => .inf false
  | .zero _ => .zero false
  | .fin _ n d => .fin false n d

/-- The exact sum (R148). -/
def Num.add : Num → Num → Num
  | .nan, _ => .nan
  | _, .nan => .nan
  | .inf s, .inf t => if s = t then .inf s else .nan
  | .inf s, _ => .inf s
  | _, .inf t => .inf t
  | .zero s, .zero t => .zero (s && t)
  | .zero _, b => b
  | a, .zero _ => a
  | .fin s n d, .fin t m e =>
    if s = t then .fin s (n * e + m * d) (d * e)
    else if n * e = m * d then .zero false
    else if m * d < n * e then .fin s (n * e - m * d) (d * e)
    else .fin t (m * d - n * e) (d * e)

/-- The exact product (R148). -/
def Num.mul : Num → Num → Num
  | .nan, _ => .nan
  | _, .nan => .nan
  | .inf _, .zero _ => .nan
  | .zero _, .inf _ => .nan
  | .inf s, .inf t => .inf (s != t)
  | .inf s, .fin t _ _ => .inf (s != t)
  | .fin s _ _, .inf t => .inf (s != t)
  | .zero s, .zero t => .zero (s != t)
  | .zero s, .fin t _ _ => .zero (s != t)
  | .fin s _ _, .zero t => .zero (s != t)
  | .fin s n d, .fin t m e => .fin (s != t) (n * m) (d * e)

/-- The exact quotient, IEEE special values. -/
def Num.div : Num → Num → Num
  | .nan, _ => .nan
  | _, .nan => .nan
  | .inf _, .inf _ => .nan
  | .zero _, .zero _ => .nan
  | .inf s, .zero t => .inf (s != t)
  | .inf s, .fin t _ _ => .inf (s != t)
  | .fin s _ _, .zero t => .inf (s != t)
  | .zero s, .inf t => .zero (s != t)
  | .zero s, .fin t _ _ => .zero (s != t)
  | .fin s _ _, .inf t => .zero (s != t)
  | .fin s n d, .fin t m e => .fin (s != t) (n * e) (d * m)

/-- a < b for numbers that are no NaN. -/
def Num.lt : Num → Num → Bool
  | .nan, _ => false
  | _, .nan => false
  | .inf s, .inf t => s && !t
  | .inf s, _ => s
  | _, .inf t => !t
  | .zero _, .zero _ => false
  | .zero _, .fin t _ _ => !t
  | .fin s _ _, .zero _ => s
  | .fin s n d, .fin t m e =>
    if s != t then s else if s then m * d < n * e else n * e < m * d

/-- a ≤ b for numbers that are no NaN. -/
def Num.le (a b : Num) : Bool := !a.isNan && !b.isNan && !Num.lt b a

/-! ## Rounding -/

/-- Rounding of a magnitude: nearest even, upward (R131), stochastic with 32 grain bits (R152). -/
inductive Rmode where
  | rne
  | up
  | sr (g : Nat)
deriving DecidableEq, Repr

/-- Magnitude `n` with remainder `r / d` below its unit rounds up. -/
def roundsUp (m : Rmode) (n r d : Nat) : Bool :=
  match m with
  | .rne => decide (d < 2 * r) || (decide (d = 2 * r) && n % 2 = 1)
  | .up => r ≠ 0
  | .sr g => 2 ^ 32 ≤ r * 2 ^ 32 / d + g

/-- ⌊log2 (n / d)⌋ of a positive quotient. -/
def log2q (n d : Nat) : Int :=
  let e : Int := (n.log2 : Int) - (d.log2 : Int)
  let le := if 0 ≤ e then d * 2 ^ e.toNat ≤ n else d ≤ n * 2 ^ (-e).toNat
  if le then e else e - 1

/-- Round n / d to the unit 2^q: the integer count of units. -/
def roundUnit (m : Rmode) (n d : Nat) (q : Int) : Nat :=
  let d' := if 0 ≤ q then d * 2 ^ q.toNat else d
  let n' := if 0 ≤ q then n else n * 2 ^ (-q).toNat
  n' / d' + b2n (roundsUp m (n' / d') (n' % d') d')

/-- Round a number to `mbits + 1` significant bits, with subnormals below 2^emin and an exponent unbounded above. -/
def roundSig (m : Rmode) (mbits : Nat) (emin : Int) : Num → Num
  | .fin s n d =>
    let e := log2q n d
    let q := (if e < emin then emin else e) - mbits
    mkPow s (roundUnit m n d q) q
  | v => v

/-- Round to a binary format with `ebits` exponent bits whose all-ones exponent is infinity (R130, R131, R147, R152). -/
def roundFmt (m : Rmode) (ebits mbits bias : Nat) (v : Num) : Num :=
  match roundSig m mbits (1 - (bias : Int)) v with
  | .fin s n d => if d * 2 ^ (2 ^ ebits - 1 - bias) ≤ n then .inf s else .fin s n d
  | w => w

/-- FP32 round-to-nearest-even. -/
def rne32 (v : Num) : Num := roundFmt .rne 8 23 127 v

/-- FP32 stochastic rounding (R152). -/
def sr32 (g : Nat) (v : Num) : Num := roundFmt (.sr g) 8 23 127 v

/-- The check format (R130). -/
def rchk (v : Num) : Num := roundFmt .rne 8 39 127 v

/-- The magnitude format, rounded upward (R131). -/
def rmag (v : Num) : Num := roundFmt .up 8 12 127 v.abs

/-- The correctly rounded FP32 square root. -/
def sqrt32 : Num → Num
  | .nan => .nan
  | .inf s => if s then .nan else .inf false
  | .zero s => .zero s
  | .fin s n d =>
    if s then .nan
    else
      -- sqrt (n / d) = sqrt (n × d) / d; 2^k extra bits and a sticky bit decide the rounding
      let k := 40 + d.log2
      let r := n * d * 4 ^ k
      let y := r.sqrt
      if y * y = r then rne32 (mkNum false y (d * 2 ^ k)) else rne32 (mkNum false (2 * y + 1) (d * 2 ^ (k + 1)))

/-! ## Formats (R140 to R142) -/

/-- An element format: a code of R124 or R176. -/
structure Fmt where
  width : Nat
  ebits : Nat
  mbits : Nat
  bias  : Nat
  isInt : Bool
  hasInf : Bool

/-- Formats by code: 0x0 to 0x7 of R124, 0x8 FP32 and 0x9 INT32 of R176. -/
def fmtOf (code : Nat) : Fmt :=
  match code with
  | 0 => { width := 4, ebits := 2, mbits := 1, bias := 1, isInt := false, hasInf := false }
  | 1 => { width := 6, ebits := 3, mbits := 2, bias := 3, isInt := false, hasInf := false }
  | 2 => { width := 6, ebits := 2, mbits := 3, bias := 1, isInt := false, hasInf := false }
  | 3 => { width := 8, ebits := 4, mbits := 3, bias := 7, isInt := false, hasInf := false }
  | 4 => { width := 8, ebits := 5, mbits := 2, bias := 15, isInt := false, hasInf := true }
  | 5 => { width := 8, ebits := 0, mbits := 0, bias := 0, isInt := true, hasInf := false }
  | 6 => { width := 16, ebits := 8, mbits := 7, bias := 127, isInt := false, hasInf := true }
  | 7 => { width := 16, ebits := 5, mbits := 10, bias := 15, isInt := false, hasInf := true }
  | 8 => { width := 32, ebits := 8, mbits := 23, bias := 127, isInt := false, hasInf := true }
  | _ => { width := 32, ebits := 0, mbits := 0, bias := 0, isInt := true, hasInf := false }

/-- The value of a code (R140, R141). -/
def decodeNum (code bits : Nat) : Num :=
  let f := fmtOf code
  let b := bits % 2 ^ f.width
  let neg := bitOf b (f.width - 1)
  let e := b / 2 ^ f.mbits % 2 ^ f.ebits
  let m := b % 2 ^ f.mbits
  if f.isInt then
    if neg then mkNum true (2 ^ f.width - b) 1 else mkNum false b 1
  else if f.hasInf ∧ e = 2 ^ f.ebits - 1 then (if m = 0 then .inf neg else .nan)
  else if code = 3 ∧ e = 15 ∧ m = 7 then .nan
  else if e = 0 then mkPow neg m (1 - (f.bias : Int) - f.mbits)
  else mkPow neg (2 ^ f.mbits + m) ((e : Int) - f.bias - f.mbits)

/-- The canonical NaN (R142); +0 where a format has none. -/
def nanCode (code : Nat) : Nat :=
  match code with
  | 3 => 0x7F
  | 4 => 0x7E
  | 6 => 0x7FC0
  | 7 => 0x7E00
  | 8 => 0x7FC00000
  | _ => 0

/-- The largest finite code of a floating-point format, without sign. -/
def maxCode (code : Nat) : Nat :=
  let f := fmtOf code
  if f.hasInf then (2 ^ f.ebits - 1) * 2 ^ f.mbits - 1
  else if code = 3 then 0x7E
  else 2 ^ (f.width - 1) - 1

/-- The infinity code, without sign. -/
def infCode (code : Nat) : Nat := (2 ^ (fmtOf code).ebits - 1) * 2 ^ (fmtOf code).mbits

/-- The sign bit of a format, where `s`. -/
def signCode (code : Nat) (s : Bool) : Nat := b2n s * 2 ^ ((fmtOf code).width - 1)

/-- The code of a representable magnitude n / d of a floating-point format. -/
def magCode (code n d : Nat) : Nat :=
  let f := fmtOf code
  let emin : Int := 1 - (f.bias : Int)
  let e := log2q n d
  if e < emin then roundUnit .rne n d (emin - f.mbits)
  else (e + f.bias).toNat * 2 ^ f.mbits + (roundUnit .rne n d (e - f.mbits) - 2 ^ f.mbits)

/-- The FP32 bits of an FP32 value. -/
def f32Bits (v : Num) : Word32 :=
  BitVec.ofNat 32 (match v with
    | .nan => 0x7FC00000
    | .inf s => 0x7F800000 + signCode 8 s
    | .zero s => signCode 8 s
    | .fin s n d => magCode 8 n d + signCode 8 s)

/-- The value of FP32 bits. -/
def f32 (w : Word32) : Num := decodeNum 8 w.toNat

/-- The 48 bits of a check-format value in event records (R130). -/
def chkBits (v : Num) : Nat :=
  match v with
  | .nan => 0xFF * 2 ^ 39 + 2 ^ 38
  | .inf s => 0xFF * 2 ^ 39 + b2n s * 2 ^ 47
  | .zero s => b2n s * 2 ^ 47
  | .fin s n d =>
    let e := log2q n d
    (if e < -126 then roundUnit .rne n d (-126 - 39)
     else (e + 127).toNat * 2 ^ 39 + (roundUnit .rne n d (e - 39) - 2 ^ 39)) + b2n s * 2 ^ 47

/-- The value of the 48 bits of a check-format value. -/
def chkNum (w : Nat) : Num :=
  let s := bitOf w 47
  let e := fld w 46 39
  let m := fld w 38 0
  if e = 255 then (if m = 0 then .inf s else .nan)
  else if e = 0 then mkPow s m (-165) else mkPow s (m + 2 ^ 39) ((e : Int) - 166)

/-! ## Conversion (R158) -/

/-- What a conversion into a scaled block meets: 0 saturated, 1 non-finite input (R159). -/
abbrev Dross := Option Nat

/-- Conversion to an integer format: rounded, then saturated; NaN gives 0. -/
def convInt (width : Nat) (m : Rmode) (v : Num) : Nat :=
  let hi := 2 ^ (width - 1) - 1
  match v with
  | .nan => 0
  | .zero _ => 0
  | .inf s => if s then hi + 1 else hi
  | .fin s n d =>
    let k := roundUnit m n d 0
    if s then (if hi + 1 ≤ k then hi + 1 else (2 ^ width - k) % 2 ^ width) else min k hi

/-- What a value beyond the target's range is written as, by the target's column of R158. -/
def convOver (code : Nat) (sat scaled s : Bool) : Nat :=
  if (fmtOf code).hasInf ∧ sat = false ∧ scaled = false then infCode code + signCode code s
  else maxCode code + signCode code s

/-- Conversion of a value (for a scaled block: the quotient by its factor) to a format. -/
def convNum (code : Nat) (m : Rmode) (sat scaled : Bool) (v : Num) : Nat × Dross :=
  let f := fmtOf code
  if f.isInt then (convInt f.width m v, none)
  else match v with
    | .nan => if scaled then (0, some 1) else (nanCode code, none)
    | .inf s => (convOver code sat scaled s, if scaled then some 1 else none)
    | .zero s => (signCode code s, none)
    | .fin s n d =>
      match roundSig m f.mbits (1 - (f.bias : Int)) (.fin s n d) with
      | .fin _ n d =>
        if Num.lt (decodeNum code (maxCode code)) (.fin false n d)
        then (convOver code sat scaled s, if scaled then some 0 else none)
        else (magCode code n d + signCode code s, none)
      | _ => (signCode code s, none)

/-! ## Scales (R144 to R146) -/

/-- The factor of a scale byte; 0xFF stands for NaN. -/
def scaleNum (b : Nat) : Num := if b = 255 then .nan else mkPow false 1 ((b : Int) - 127)

/-! ## The grain (R155) -/

def grainK1 : Word64 := 0x8F3B6A1DC52794E1
def grainK2 : Word64 := 0x6C0B91F73D58A2C3
def grainM1 : Word64 := 0xD6E8FEB86659FD93
def grainM2 : Word64 := 0xA3B195C42F6ED25B

/-- The mixing function. -/
def mix (z : Word64) : Word64 :=
  let z := z ^^^ (z >>> 32)
  let z := z * grainM1
  let z := z ^^^ (z >>> 29)
  let z := z * grainM2
  z ^^^ (z >>> 32)

/-- The 32 grain bits. -/
def grain (seed step : Word64) (tensor tile element : Nat) : Nat :=
  let h := mix (seed ^^^ grainK1)
  let h := mix (h ^^^ step)
  let h := mix (h ^^^ (BitVec.ofNat 64 (tensor % 2 ^ 32 * 2 ^ 32 + tile % 2 ^ 32)))
  let h := mix (h ^^^ (BitVec.ofNat 64 (element % 2 ^ 32) * grainK2))
  (h >>> 32).toNat

/-! ## FP32 operations -/

def add32 (a b : Num) : Num := rne32 (a.add b)
def sub32 (a b : Num) : Num := rne32 (a.add b.neg)
def mul32 (a b : Num) : Num := rne32 (a.mul b)
def fma32 (a b c : Num) : Num := rne32 ((a.mul b).add c)
def div32 (a b : Num) : Num := rne32 (a.div b)

/-- The sum of a list in order: the first term enters rounded, every later one is added with one rounding. -/
def sumOrder (r : Num → Num) : List Num → Num
  | [] => .zero false
  | v :: vs => vs.foldl (fun s p => r (s.add p)) (r v)

/-- Element `e` of width `w` in a line of bytes (R143). -/
def elemAt (line : List Byte) (w e : Nat) : Nat :=
  (leNat ((line.drop (e * w / 8)).take (w / 8 + 2)) >>> (e * w % 8)) % 2 ^ w

/-! ## Row reductions (R179) -/

/-- One halving pass: s[j] = rne(s[j] + s[j + w]). -/
def halve (s : List Num) (w : Nat) : List Num := (s.take w).zipWith add32 (s.drop w)

/-- The row sum: 1,024 lane sums in column order, then halving. -/
def rowSum (v : List Num) : Num :=
  let lanes := (List.range 1024).map (fun j =>
    (List.range (cdiv v.length 1024)).foldl (fun s c =>
      match v[c * 1024 + j]? with
      | some x => add32 s x
      | none => s) (Num.zero false))
  ([512, 256, 128, 64, 32, 16, 8, 4, 2, 1].foldl halve lanes).headD (.zero false)

/-- The row maximum; a NaN element makes it NaN. -/
def rowMax : List Num → Num
  | [] => .inf true
  | v :: vs => vs.foldl (fun m x => if m.isNan || x.isNan then .nan else if Num.lt m x then x else m) v

end Sys2Proof.Machine
end

