-- ==== Sys2Proof/Machine/ArrayDesc.lean ====
section
/-! DEFINITION. Array descriptors (R124): their fields and the bytes they name; and the writes that break R123: what a
dispatched descriptor reads, or its accumulator rows, written before its completion signal. -/

namespace Sys2Proof.Machine

/-- The 8-byte word of a descriptor at an offset. -/
def dw (d : List Byte) (off : Nat) : Nat := w64 d off

/-! ## Array descriptors (R124) -/

def aFmtX (d : List Byte) : Nat := fld (dw d 0) 63 60
def aFmtW (d : List Byte) : Nat := fld (dw d 0) 59 56
def aTransX (d : List Byte) : Bool := bitOf (dw d 0) 55
def aTransW (d : List Byte) : Bool := bitOf (dw d 0) 54
def aScaledX (d : List Byte) : Bool := bitOf (dw d 0) 53
def aScaledW (d : List Byte) : Bool := bitOf (dw d 0) 52
def aCont (d : List Byte) : Bool := bitOf (dw d 0) 51
def aForce (d : List Byte) : Bool := bitOf (dw d 0) 50
def aDoneEn (d : List Byte) : Bool := bitOf (dw d 0) 49
def aRows (d : List Byte) : Nat := fld (dw d 0) 47 40 + 1
def aCols (d : List Byte) : Nat := fld (dw d 0) 39 33 + 1
def aLast (d : List Byte) : Nat := fld (dw d 0) 32 26 + 1
def aTiles (d : List Byte) : Nat := fld (dw d 0) 25 14 + 1
def aGroup (d : List Byte) : Nat := fld (dw d 0) 13 7 + 1
def aWBase (d : List Byte) : Nat := fld (dw d 0x08) 54 32
def aXBase (d : List Byte) : Nat := fld (dw d 0x08) 22 0
def aWLs (d : List Byte) : Nat := fld (dw d 0x10) 54 32
def aXLs (d : List Byte) : Nat := fld (dw d 0x10) 22 0
def aWTs (d : List Byte) : Nat := fld (dw d 0x18) 54 32
def aXTs (d : List Byte) : Nat := fld (dw d 0x18) 22 0
def aWsBase (d : List Byte) : Nat := fld (dw d 0x20) 54 32
def aXsBase (d : List Byte) : Nat := fld (dw d 0x20) 22 0
def aDoneRiser (d : List Byte) : Nat := fld (dw d 0x28) 19 8
def aAccRow (d : List Byte) : Nat := fld (dw d 0x28) 7 0
def aTileBase (d : List Byte) : Nat := fld (dw d 0x30) 43 32
def aTensor (d : List Byte) : Nat := fld (dw d 0x30) 31 0

/-- Active rows of K tile `kt` (R113, R124). -/
def aActive (d : List Byte) (kt : Nat) : Nat := if kt + 1 = aTiles d then aLast d else 128

/-- Lines of an operand of one tile: `n` lines of `len` elements of `w` bits. -/
def linesOf (base ls n w len : Nat) : List (Nat × Nat) := (List.range n).map (fun i => (base + i * ls, cdiv (len * w) 8))

/-- The ranges of X of tile `kt` (R117). -/
def xRanges (d : List Byte) (kt : Nat) : List (Nat × Nat) :=
  let b := aXBase d + kt * aXTs d
  let w := (fmtOf (aFmtX d)).width
  if aTransX d then linesOf b (aXLs d) (aActive d kt) w (aRows d) else linesOf b (aXLs d) (aRows d) w (aActive d kt)

/-- The ranges of W of tile `kt`. -/
def wRanges (d : List Byte) (kt : Nat) : List (Nat × Nat) :=
  let b := aWBase d + kt * aWTs d
  let w := (fmtOf (aFmtW d)).width
  if aTransW d then linesOf b (aWLs d) (aCols d) w (aActive d kt) else linesOf b (aWLs d) (aActive d kt) w (aCols d)

/-- The ranges of the scales of tile `kt` (R124). -/
def xsRanges (d : List Byte) (kt : Nat) : List (Nat × Nat) :=
  if aScaledX d then (List.range (aRows d)).map (fun m => (aXsBase d + 1024 * kt + 4 * m, cdiv (aActive d kt) 32)) else []
def wsRanges (d : List Byte) (kt : Nat) : List (Nat × Nat) :=
  if aScaledW d then (List.range (aCols d)).map (fun n => (aWsBase d + 512 * kt + 4 * n, cdiv (aActive d kt) 32)) else []

/-- Every range that an array descriptor reads. -/
def arrRanges (d : List Byte) : List (Nat × Nat) :=
  (List.range (aTiles d)).flatMap (fun kt => xRanges d kt ++ wRanges d kt ++ xsRanges d kt ++ wsRanges d kt)

/-! ## Writes under a dispatched descriptor (R123) -/

/-- A scratchpad range meets the bytes that an array descriptor reads. -/
def arrReads (d : List Byte) (a n : Nat) : Bool :=
  (List.range (aTiles d)).any (fun kt =>
    (xRanges d kt ++ wRanges d kt ++ xsRanges d kt ++ wsRanges d kt).any (fun r => overlaps a n r.1 r.2))

/-- Descriptors that an engine has taken: the one in progress and the one behind it. -/
def Engine.jobs (g : Engine) : List Job := g.job.toList ++ g.ahead.toList

/-- Watts that an engine's descriptors hold. -/
def Engine.heldW (g : Engine) : Nat := (g.jobs.map Job.granted).sum

/-- Dispatched descriptors of array `a`, with their bytes: those queued as they lie in the scratchpad. -/
def dispatched (x : Core) (a : Nat) : List (Nat × List Byte) :=
  let g := tget {} x.engines a
  g.jobs.map (fun j => (j.addr, j.desc)) ++ g.queue.map (fun q => (q.1, readB x.scratch q.1 64))

/-- Array descriptors that a write breaks: `touch` tells, of an array's descriptor, whether the write meets it. -/
def noteBreach (x : Core) (touch : Nat → List Byte → Bool) : Core :=
  let hit := [0, 1].flatMap (fun a => ((dispatched x a).filter (fun e => touch a e.2)).map (fun e => (a, e.1)))
  { x with breached := x.breached ++ hit.filter (fun h => !x.breached.contains h) }

/-! ## Accumulator store (R120, R122) -/

def accKey (a row n : Nat) : Nat := 32768 * a + 128 * row + n
def accPair (a row n : Nat) : Nat := 16384 * a + 64 * row + n / 2

def accAt (x : Core) (a row n : Nat) : Word32 := tget 0 x.acc (accKey a row n)

/-- A row's values are written; a whole pair takes fresh check bits. -/
def accWrite (x : Core) (a row : Nat) (vs : List Word32) : Core :=
  { x with acc := vs.zipIdx.foldl (fun t v => tset 0 t (accKey a row v.2) v.1) x.acc
           accBad := x.accBad.filter (fun p => !((List.range (vs.length / 2)).any (fun i => accPair a row (2 * i) = p))) }

/-- A row of an array's accumulator store is written by the vector unit. -/
def accPut (x : Core) (a row : Nat) (vs : List Word32) : Core :=
  noteBreach (accWrite x a row vs) (fun b d => b = a && aAccRow d ≤ row && row < aAccRow d + aRows d)

/-- The accumulator rows of a descriptor that broke R123 hold undefined values: they are open (log 92). -/
def spoilRows (s : State) (l a : Nat) (j : Job) : State :=
  if (getCore s l).breached.contains (a, j.addr) then
    { modCore s l (fun x => (List.range (aRows j.desc)).foldl (fun x m => accWrite x a (aAccRow j.desc + m)
        ((List.range (aCols j.desc)).map (fun n => (Config.freeWord (s.free + 128 * m + n)).setWidth 32))) x)
      with free := s.free + 32768 }
  else s

/-- Breaches of descriptors that are no longer dispatched are forgotten. -/
def dropBreaches (x : Core) : Core :=
  { x with breached := x.breached.filter (fun b => (dispatched x b.1).any (fun d => d.1 = b.2)) }

/-- Bytes are written to a scratchpad. -/
def putScratch (x : Core) (a : Nat) (d : List Byte) : Core :=
  noteBreach { x with scratch := writeB x.scratch a d } (fun _ e => arrReads e a d.length)

end Sys2Proof.Machine
end

