-- ==== Sys2Proof/Machine/Coords.lean ====
section
/-! DEFINITION. Ports and links by number (R249), the installation map's fields (R273), and coordinates on its rings. -/

namespace Sys2Proof.Machine

/-! ## Ports and links (R249) -/

/-- First link of a port. -/
def firstLink (p : Nat) : Nat := [0, 8, 16, 22, 28, 32, 36, 39, 42, 45].getD p 48

/-- Links of a port. -/
def linkCount (p : Nat) : Nat := [8, 8, 6, 6, 4, 4, 3, 3, 3, 3].getD p 0

/-- The links of a port in order of index. -/
def portLinks (p : Nat) : List Nat := (List.range (linkCount p)).map (fun i => firstLink p + i)

/-- The port of a link. -/
def portOf (n : Nat) : Nat := ((List.range 10).find? (fun p => n < firstLink p + linkCount p)).getD 15

/-- The index of a link in its bundle. -/
def linkIndex (n : Nat) : Nat := n - firstLink (portOf n)

/-- Network mode (R251): the links of axis D. -/
def isNet (p : Nat) : Bool := p = 8 || p = 9

/-! ## The installation map (R273) -/

def mapVersion (m : List Byte) : Nat := wordAt m 0 4
def mapSerial (m : List Byte) : Nat := w64 m 8
def mapCoord (m : List Byte) : Nat := fld (w64 m 0x10) 13 0
def mapTwinSerial (m : List Byte) : Nat := w64 m 0x18
def mapTwinCoord (m : List Byte) : Nat := fld (w64 m 0x20) 13 0
def mapTwinCode (m : List Byte) : Nat := fld (w64 m 0x20) 17 16
def mapPeer (m : List Byte) (p : Nat) : Nat := w64 m (0x40 + 0x20 * p)
def mapUsed (m : List Byte) (p : Nat) : Bool := bitOf (w64 m (0x48 + 0x20 * p)) 8
def mapExpected (m : List Byte) (p : Nat) : Nat := fld (w64 m (0x48 + 0x20 * p)) 7 0
def mapEntry (m : List Byte) (p : Nat) : List Byte := slice m (0x40 + 0x20 * p) 16

/-- Ring length of an axis, T X Q P D (R273). -/
def mapLen (m : List Byte) (a : Nat) : Nat :=
  let w := w64 m 0x10
  [4, fld w 18 16 + 1, fld w 20 19 + 1, fld w 22 21 + 1, fld w 27 23 + 1].getD a 1

/-- A coordinate packed as `DEST`, on one axis: t [13:12], x [11:9], q [8:7], p [6:5], d [4:0]. -/
def coordOn (c a : Nat) : Nat := [fld c 13 12, fld c 11 9, fld c 8 7, fld c 6 5, fld c 4 0].getD a 0

/-- Replace one axis of a packed coordinate. -/
def setCoord (c a v : Nat) : Nat :=
  let sh := [12, 9, 7, 5, 0].getD a 0
  c - coordOn c a * 2 ^ sh + v * 2 ^ sh

/-- Ring length of an axis in force: 1 without a map (R290). -/
def ringLen (s : State) (a : Nat) : Nat :=
  match s.map with
  | some m => mapLen m a
  | none => 1

/-- This module's coordinate, packed as `DEST`; 0 while no map is in force (R290). -/
def ownCoord (s : State) : Nat :=
  match s.map with
  | some m => fld (w64 m 0x10) 13 0
  | none => 0

end Sys2Proof.Machine
end

