-- ==== Sys2Proof/Machine/Mem.lean ====
section
/-! DEFINITION. Memory: the address map (R6), fast-tier placement (R222), error correction, poison and repair candidates
(R240 to R245), the scratchpad with its region registers (R194 to R200), and the reads and writes that the meanings share. -/

namespace Sys2Proof.Machine

/-! ## Address map (R6) -/

def deepBase : Nat := 0x10000000000
def winBase0 : Nat := 0x40000000000
def regBase0 : Nat := 0x50000000000
def spSize : Nat := 0x600000
def winSize : Nat := 0x1000000

/-- Bytes of the populated fast tier. -/
def fastBytes (s : State) : Nat := if isL8 s then 0x8000000000 else 0x6000000000

/-- Bytes of the populated deep tier. -/
def deepBytes (s : State) : Nat := if isL8 s then 0x18000000000 else 0xC000000000

/-- Where a device address lies. -/
inductive Space where
  | fast
  | deep
  | window (l : Nat)        -- the populated part of a scratchpad window
  | hole (l : Nat)          -- the unpopulated rest of a window
  | regs
  | none
deriving DecidableEq, Repr

/-- The space of a device address. -/
def spaceOf (s : State) (a : Nat) : Space :=
  if a < fastBytes s then .fast
  else if deepBase ≤ a ∧ a < deepBase + deepBytes s then .deep
  else if winBase0 ≤ a ∧ a < winBase0 + 88 * winSize then
    if (a - winBase0) % winSize < spSize then .window ((a - winBase0) / winSize) else .hole ((a - winBase0) / winSize)
  else if regBase0 ≤ a ∧ a < regBase0 + 0x10000000 then .regs
  else .none

/-- The range lies wholly in the populated fast tier. -/
def inFast (s : State) (a n : Nat) : Bool := a + n ≤ fastBytes s

/-- The range lies wholly in the populated deep tier. -/
def inDeep (s : State) (a n : Nat) : Bool := deepBase ≤ a && a + n ≤ deepBase + deepBytes s

/-- The range lies wholly in populated fast or deep tier. -/
def inMem (s : State) (a n : Nat) : Bool := inFast s a n || inDeep s a n

/-- The logical core whose scratchpad window holds the range, and the scratchpad address. -/
def inWindow (a n : Nat) : Option (Nat × Nat) :=
  let l := (a - winBase0) / winSize
  let o := (a - winBase0) % winSize
  if winBase0 ≤ a ∧ l < 88 ∧ o + n ≤ spSize then some (l, o) else none

/-- A byte of the range lies in the hopper region of a context that is not closed (R66). -/
def inHopper (s : State) (a n : Nat) : Bool :=
  s.ctxs.any (fun e => e.2.st ≠ .closed && overlaps a n e.2.hopBase (2 ^ e.2.hopLog2))

/-- The die half of a fast-tier address (R30). -/
def fastDie (s : State) (a : Nat) : Nat := if a < fastBytes s / 2 then 0 else 1

/-- A byte of the range lies in the fast-tier half or in a scratchpad of a die whose bridge is lost (R29, R30). -/
def behindLost (s : State) (a n : Nat) : Bool :=
  (inFast s a n && (dieLost s (fastDie s a) || dieLost s (fastDie s (a + n - 1))))
    || (match inWindow a n with
      | some (l, _) => dieLost s (dieOf l)
      | none => false)

/-! ## Fast-tier placement (R222) and repair candidates (R245) -/

/-- Stack, pseudo-channel, bank, row and 256-byte column group of a fast-tier address. -/
def fastPlace (s : State) (a : Nat) : Nat × Nat × Nat × Nat × Nat :=
  let h := if isL8 s then 0x4000000000 else 0x3000000000
  let st := if isL8 s then 4 else 3
  let half := if a < h then 0 else 1
  let o := a - half * h
  let v := o / 1024
  let x := v / st
  (4 * half + v % st, x % 64, x / 64 % 64, x / 4096, o / 256 % 4)

/-- Channels of the deep tier (R238). -/
def deepChannels (s : State) : Nat := if isL8 s then 16 else 8

/-- Where a deep-tier address lies (R238): channel, 512-byte piece of the channel, whose bits are bank and row, bank first, and byte
of the piece. How many of the bits name the bank the spec does not say. -/
def deepPlace (s : State) (a : Nat) : Nat × Nat × Nat :=
  let o := a - deepBase
  (o / 512 % deepChannels s, o / (512 * deepChannels s), o % 512)

/-- The row of a fast-tier address as bits [63:35] of its candidate entry. -/
def rowKey (s : State) (a : Nat) : Nat :=
  let q := fastPlace s a
  q.1 * 2 ^ 26 + q.2.1 * 2 ^ 20 + q.2.2.1 * 2 ^ 14 + q.2.2.2.1 % 2 ^ 14

/-- A row is a populated row of the fast tier: a fitted stack and a row below 16,384 (R221). -/
def rowOk (s : State) (key : Nat) : Bool :=
  let st := key / 2 ^ 26
  if isL8 s then st < 8 && key % 2 ^ 14 < 16384 else st % 4 < 3 && st < 8

/-- The candidate entry of a row, 0 when the row is not listed. -/
def candWord (s : State) (key : Nat) : Nat :=
  match s.repair.cands.find? (fun c => c.1 = key) with
  | some (k, u, src, st) => k * 2 ^ 35 + u * 2 ^ 27 + src * 2 ^ 25 + st * 2 ^ 23
  | none => 0

/-- Enter a lasting unit of a row in the candidate list; when the list is full the row is counted. -/
def addCand (s : State) (key src : Nat) : State :=
  let r := s.repair
  if r.cands.any (fun c => c.1 = key) then
    { s with repair := { r with cands := r.cands.map (fun c =>
      if c.1 = key then (c.1, min 255 (c.2.1 + 1), c.2.2.1, c.2.2.2) else c) } }
  else if r.cands.length < 1024 then { s with repair := { r with cands := r.cands ++ [(key, 1, src, 0)] } }
  else { s with repair := { r with unlisted := r.unlisted + 1 } }

/-- The first counter of a memory unit in counter set 3 (R443). -/
def memUnit (s : State) (a : Nat) : Nat :=
  if inFast s a 1 then 8 * (fastPlace s a).1
  else 64 + 8 * (deepPlace s a).1

/-! ## Reads and writes in progress -/

/-- An access in progress: the state, the lasting units or words met so far (device addresses; scratchpad words as
addresses of their core's window), the trap word that the first record of such a finding still carries (R482), and whether a
partial write of a lasting scratchpad word was left out (R200). -/
structure Acc where
  s    : State
  bad  : List Nat := []
  tw   : Nat := 0
  skip : Bool := false

/-- The 64-byte units of a range. -/
def unitsOf (a n : Nat) : List Nat :=
  if n = 0 then [] else (List.range ((a % 64 + n + 63) / 64)).map (fun i => a / 64 * 64 + 64 * i)

/-- The 8-byte words of a range. -/
def wordsOf (a n : Nat) : List Nat :=
  if n = 0 then [] else (List.range ((a % 8 + n + 7) / 8)).map (fun i => a / 8 * 8 + 8 * i)

/-- A lasting unit is found: a record, poison, and the row's candidate entry in the fast tier (R241, R242). -/
def lastingUnit (x : Acc) (subj src u : Nat) : Acc :=
  let s := if inFast x.s u 1 then addCand x.s (rowKey x.s u) src else x.s
  let s := bump { s with poison := insNat s.poison u } 3 (memUnit s u + 2) 1
  let c := if inFast s u 1 then candWord s (rowKey s u) else 0
  { s := raiseEv s Status.memLasting 4 subj u c x.tw, bad := x.bad ++ [u], tw := 0 }

/-- One unit is read (R240 to R242). -/
def readUnit (f : Finds) (subj src : Nat) (x : Acc) (u : Nat) : Acc :=
  if x.s.poison.contains u then { x with s := bump x.s 3 (memUnit x.s u + 3) 1, bad := x.bad ++ [u] }
  else match f.mem.find? (fun e => e.1 = u) with
    | some (_, true) => lastingUnit x subj src u
    | some (_, false) =>
      let c := if inFast x.s u 1 then candWord x.s (rowKey x.s u) else 0
      { x with s := raiseEv (bump x.s 3 (memUnit x.s u + 1) 1) Status.memRetryTransient 4 subj u c 0 }
    | none => if f.memC.contains u then { x with s := bump x.s 3 (memUnit x.s u) 1 } else x

/-- The units of the ranges are read, each once. -/
def readUnits (f : Finds) (subj : Nat) (x : Acc) (us : List Nat) : Acc := us.dedup.foldl (readUnit f subj 0) x

/-- A unit piece [a, a + data.length) inside one unit is written: whole units take fresh check bytes, a partial write of a
lasting unit is not applied (R240 to R242). -/
def writeUnit (f : Finds) (subj : Nat) (x : Acc) (a : Nat) (data : List Byte) : Acc :=
  let u := a / 64 * 64
  if data.length = 64 then
    { x with s := { x.s with mem := writeB x.s.mem a data, poison := x.s.poison.filter (· ≠ u) } }
  else
    let y := readUnit f subj 0 { x with bad := [] } u
    if y.bad = [] then { y with s := { y.s with mem := writeB y.s.mem a data }, bad := x.bad }
    else { y with bad := x.bad ++ y.bad }

/-- Cut data that starts at `a` at multiples of `k`: at most `fuel` pieces. -/
def pieces (k : Nat) : Nat → Nat → List Byte → List (Nat × List Byte)
  | 0, _, _ => []
  | fuel + 1, a, d =>
    if d = [] then [] else (a, d.take (k - a % k)) :: pieces k fuel (a / k * k + k) (d.drop (k - a % k))

/-- Write bytes to the fast or deep tier. -/
def writeDev (f : Finds) (subj : Nat) (x : Acc) (a : Nat) (data : List Byte) : Acc :=
  (pieces 64 (data.length / 64 + 2) a data).foldl (fun y p => writeUnit f subj y p.1 p.2) x

/-- Write bytes to device memory from the Afiup: a write that holds only whole units, or whose failure nothing reports. -/
def putMem (s : State) (a : Nat) (data : List Byte) : State := (writeDev {} noSubject { s := s } a data).s

/-- Bytes of the fast or deep tier, as they lie. -/
def memB (s : State) (a n : Nat) : List Byte := readB s.mem a n

/-! ## Region registers (R194 to R198) -/

/-- The reset value of region register `i` = 16 × master + region (R195). -/
def regionReset (i : Nat) : Word64 := if i % 16 = 0 then 0x8007017FFF000000#64 else 0

/-- A region register of a register list. -/
def regionOf (r : List (Nat × Word64)) (i : Nat) : Nat := (tget (regionReset i) r i).toNat

/-- Kinds of access. -/
inductive Kind where
  | rd
  | wr
  | atom
deriving DecidableEq, Repr

/-- The permission bit of a kind of access, and its code in event records (R450). -/
def Kind.bit : Kind → Nat
  | .rd => 48
  | .wr => 49
  | .atom => 50

def Kind.code : Kind → Nat
  | .rd => 0
  | .wr => 1
  | .atom => 2

/-- One enabled region of the master grants the kind of access to a 64-byte unit. -/
def unitAllowed (r : List (Nat × Word64)) (master : Nat) (k : Kind) (u : Nat) : Bool :=
  (List.range 16).any (fun j =>
    let w := regionOf r (16 * master + j)
    bitOf w 63 && bitOf w k.bit && fld w 16 0 ≤ u && u ≤ fld w 40 24)

/-- The first byte of the ranges that the master may not access, in range order. -/
def firstRefused (r : List (Nat × Word64)) (master : Nat) (k : Kind) (rs : List (Nat × Nat)) : Option Nat :=
  rs.findSome? (fun e =>
    ((unitsOf e.1 e.2).find? (fun u => !unitAllowed r master k (u / 64))).map (fun u => max e.1 u))

/-- The distance from a 64-byte unit to a region's range. -/
def regionDist (w u : Nat) : Nat :=
  let b := fld w 16 0
  let l := fld w 40 24
  if b ≤ u ∧ u ≤ l then 0 else min (if u < b then b - u else u - b) (if u < l then l - u else u - l)

/-- The nearest enabled region, 16 when there is none (R198). -/
def nearest (r : List (Nat × Word64)) (master u : Nat) : Nat :=
  let en := (List.range 16).filter (fun j => bitOf (regionOf r (16 * master + j)) 63)
  let d := fun j => regionDist (regionOf r (16 * master + j)) u
  (en.foldl (fun (b : Option Nat) j =>
    match b with
    | none => some j
    | some i => if d j < d i then some j else some i) none).getD 16

/-- The record of a refused scratchpad access (R198, R450), with a trap word when a trap follows. -/
def refuseRegion (s : State) (l master : Nat) (r : List (Nat × Word64)) (k : Kind) (a tw : Nat) : State :=
  let s := bumpCore s l 21 1
  raiseEv s Status.scratchRegion 1 (coreSubject s l master)
    (a % 2 ^ 23 + k.code * 2 ^ 24 + nearest r master (a / 64) * 2 ^ 26) 0 tw

/-- Check ranges of a scratchpad against a master's latched regions; a refusal raises its one record. -/
def checkRegion (s : State) (l master : Nat) (k : Kind) (rs : List (Nat × Nat)) (tw : Nat) : State × Bool :=
  let r := (getCore s l).regionL
  match firstRefused r master k rs with
  | none => (s, true)
  | some a => (refuseRegion s l master r k a tw, false)

/-! ## Scratchpad reads and writes (R188, R199, R200) -/

/-- Device address of a scratchpad byte. -/
def winAddr (l a : Nat) : Nat := winBase0 + l * winSize + a

/-- A lasting-uncorrectable scratchpad word is met: one record, and the fault classification (R200, R380). -/
def lastingWord (x : Acc) (l master w : Nat) : Acc :=
  let s := modCore x.s l (fun c => { c with spBad := insNat c.spBad w })
  let s := raiseEv s Status.scratchUncorrectable 1 (coreSubject s l master) (w % 2 ^ 23) 0 x.tw
  { s := noteFault s l 1, bad := x.bad ++ [winAddr l w], tw := 0 }

/-- One scratchpad word is read. -/
def readWord (f : Finds) (l master : Nat) (x : Acc) (w : Nat) : Acc :=
  if (getCore x.s l).spBad.contains w then lastingWord x l master w
  else match f.sp.find? (fun e => decide (e.1 = w ∨ e.1 = winAddr l w)) with
    | some (_, true) => lastingWord x l master w
    | some (_, false) => { x with s := bumpCore x.s l 19 1 }
    | none => if f.spC.contains w || f.spC.contains (winAddr l w) then { x with s := bumpCore x.s l 18 1 } else x

/-- The words are read, each once. -/
def readWords (f : Finds) (l master : Nat) (x : Acc) (ws : List Nat) : Acc := ws.dedup.foldl (readWord f l master) x

/-- A word piece is written: a whole word takes fresh check bits; a partial write of a lasting word is not applied, and its record
is all that follows (R200). -/
def writeWord (f : Finds) (l master : Nat) (x : Acc) (a : Nat) (data : List Byte) : Acc :=
  let w := a / 8 * 8
  if data.length = 8 then
    { x with s := modCore x.s l (fun c =>
      putScratch { c with spBad := c.spBad.filter (· ≠ w) } a data) }
  else
    let y := readWord f l master { s := x.s } w
    if y.bad = [] then { x with s := modCore y.s l (fun c => putScratch c a data) } else { x with s := y.s, skip := true }

/-- Write bytes to a scratchpad. -/
def writeSp (f : Finds) (l master : Nat) (x : Acc) (a : Nat) (data : List Byte) : Acc :=
  (pieces 8 (data.length / 8 + 2) a data).foldl (fun y p => writeWord f l master y p.1 p.2) x

/-- Bytes of a scratchpad, as they lie. -/
def spB (s : State) (l a n : Nat) : List Byte := readB (getCore s l).scratch a n

/-- Put whole words into a scratchpad (engines whose writes are whole words, with no findings). -/
def putSp (s : State) (l master a : Nat) (data : List Byte) : State := (writeSp {} l master { s := s } a data).s

/-! ## Reads and writes through device addresses -/

/-- Read ranges by device address; `master` and `subj` name the reader. -/
def readAt (f : Finds) (master subj : Nat) (x : Acc) (rs : List (Nat × Nat)) : Acc :=
  let wins := rs.filterMap (fun e => (inWindow e.1 e.2).map (fun w => (w.1, w.2, e.2)))
  let devs := rs.filter (fun e => (inWindow e.1 e.2).isNone)
  let x := readUnits f subj x (devs.flatMap (fun e => unitsOf e.1 e.2))
  match wins with
  | [] => x
  | (l, _, _) :: _ => readWords f l master x (wins.flatMap (fun e => wordsOf e.2.1 e.2.2))

/-- Bytes by device address. -/
def bytesAt (s : State) (a n : Nat) : List Byte :=
  match inWindow a n with
  | some (l, o) => spB s l o n
  | none => memB s a n

/-- Write bytes by device address. -/
def writeAt (f : Finds) (master subj : Nat) (x : Acc) (a : Nat) (data : List Byte) : Acc :=
  match inWindow a data.length with
  | some (l, o) => writeSp f l master x o data
  | none => writeDev f subj x a data

/-- A range holds a byte of a lasting unit or word. -/
def touchesBad (bad : List Nat) (a n : Nat) : Bool :=
  bad.any (fun b => overlaps a n b (if winBase0 ≤ b then 8 else 64))

/-- Write row pieces to a destination, leaving out every destination unit whose source bytes lie in a lasting unit or word
(R200, R231): `src` is the source address of the row's first byte. -/
def copyRow (f : Finds) (master subj : Nat) (src dst : Nat) (data : List Byte) (bad : List Nat) (x : Acc) : Acc :=
  (pieces 64 (data.length / 64 + 2) dst data).foldl (fun y p =>
    if touchesBad bad (src + (p.1 - dst)) p.2.length then y else writeAt f master subj y p.1 p.2) x

/-! ## Memory patrol (R243) and scratchpad patrol (R199) -/

/-- A patrol scrubber reads every unit of memory in turn; here one unit. -/
def patrolUnit (f : Finds) (corrected : Bool) (s : State) (a : Nat) : State :=
  let s := bump s 3 (memUnit s a + 4) 1
  let s := if corrected then bump s 3 (memUnit s a) 1 else s
  (readUnit f noSubject 1 { s := s } a).s

end Sys2Proof.Machine
end

