-- ==== Sys2Proof/Machine/Charges.lean ====
section
/-! DEFINITION. What the meanings of all charges share: parameters, entries of the hopper and the retire stage, reports,
MSI-X messages and completion records (R62 to R81). -/

namespace Sys2Proof.Machine

/-! ## Opcodes (R34, R70) -/

/-- The defined opcodes. -/
def definedOp (op : Nat) : Bool :=
  [0x001, 0x002, 0x003, 0x004, 0x005, 0x006, 0x008, 0x010, 0x011, 0x100, 0x101, 0x110, 0x111, 0x120, 0x200, 0x201, 0x210,
   0x300, 0x310, 0x311, 0x312, 0x313, 0x314, 0x315, 0x400, 0x401, 0x402, 0x403, 0x500, 0x501, 0x510, 0x511, 0x520, 0x600,
   0x601, 0x602, 0x700, 0x701, 0x702, 0x703, 0x704, 0x800, 0x801, 0x802, 0x900, 0x901, 0x902, 0x903, 0x904].contains op

/-- Class of an opcode. -/
def opClass (op : Nat) : Nat := op / 256 % 16

/-- The core fabric executes the charge (R34). -/
def isFabric (op : Nat) : Bool := 1 ≤ opClass op && opClass op ≤ 3

/-- The charge needs an administrative context (R70). -/
def needsAdmin (op : Nat) : Bool := 5 ≤ opClass op || op = 0x010

/-! ## Parameters -/

/-- The 8-byte parameter word at an offset. -/
def pw (e : Entry) (off : Nat) : Nat := w64 e.params off

/-- The 4-byte parameter word at an offset. -/
def pw4 (e : Entry) (off : Nat) : Nat := wordAt e.params off 4

/-- Bytes of the parameters from `n` on are all zero (reserved, R17). -/
def tailZero (e : Entry) (n : Nat) : Bool := (e.params.drop n).all (fun b => b = 0)

/-! ## Entries -/

/-- The dispatched entry that a charge's own row acts on: its executors have not reported. -/
def running (s : State) (c cseq op : Nat) : Option Entry :=
  (getCtx s c).entries.find? (fun e => e.cseq = cseq && e.opcode = op && e.dispatched && e.st ≠ .finished && e.report.isNone)

/-- An accepted entry that has not been dispatched, with an acceptance act still to do (R74). -/
def accepted (s : State) (c cseq op : Nat) : Option Entry :=
  (getCtx s c).entries.find? (fun e => e.cseq = cseq && e.opcode = op && e.moved && !e.dispatched && !e.acted
    && e.st = .waiting)

/-- Change the first entry of a list that satisfies a test. -/
def updFirst {α : Type} (p : α → Bool) (f : α → α) : List α → List α
  | [] => []
  | x :: r => if p x then f x :: r else x :: updFirst p f r

/-- Change the dispatched, unfinished entry of a charge. -/
def modRunning (s : State) (c cseq : Nat) (f : Entry → Entry) : State :=
  modCtx s c (fun x =>
    { x with entries := updFirst (fun e => e.cseq = cseq && e.dispatched && e.st ≠ .finished) f x.entries })

/-- The executors of a charge end with a status and RESULT; EXECUTOR_FINISH_REPORT carries the report to the retire stage.
The first report stands. -/
def report (s : State) (c cseq status result : Nat) : State :=
  modRunning s c cseq (fun e => { e with report := e.report.or (some (status, result)) })

/-- The meaning of a charge's own row: `f` on its running entry, nothing when no such charge runs. A report that the
executors made stays. -/
def onCharge (s : State) (c cseq op : Nat) (f : Entry → State) : State :=
  match running s c cseq op with
  | some e => f e
  | none => s

/-- A charge of class 0x7xx is dispatched and its executors have not reported. -/
def secRuns (s : State) (x : Nat × Nat) : Bool :=
  (getCtx s x.1).entries.any (fun e => e.cseq = x.2 && opClass e.opcode = 7 && e.dispatched && e.st ≠ .finished && e.report.isNone)

/-- No charge of class 0x7xx that was dispatched before this one, in any context, still runs (R433). -/
def secTurn (s : State) (c cseq : Nat) : Bool := (s.sec.line.takeWhile (· ≠ (c, cseq))).all (fun x => !secRuns s x)

/-- The meaning of a row of class 0x7xx: the Afiup executes these charges one at a time, in order of dispatch (R433). -/
def onSecure (s : State) (c cseq op : Nat) (f : Entry → State) : State :=
  if secTurn s c cseq then onCharge s c cseq op f else s

/-- A charge of class 0x7xx takes its place behind those that run. -/
def joinSecure (s : State) (c : Nat) (e : Entry) : State :=
  if opClass e.opcode = 7 then { s with sec := { s.sec with line := s.sec.line.filter (secRuns s) ++ [(c, e.cseq)] } } else s

/-- A fabric charge acts only in ACTIVE: one that was dispatched in IDLE_LIT waits for the wake (R409), and nothing runs
while the core rail is low (R39). -/
def fabricRuns (s : State) : Bool := s.power.st = .active && !s.power.railLow && !s.boot.off && !s.boot.shutdown

/-- A check list: the status of the first failing check, 0 when all pass. -/
def firstFail : List (Bool × Nat) → Nat
  | [] => 0
  | (ok, st) :: r => if ok then firstFail r else st

/-! ## What a charge writes to memory -/

/-- A charge writes its answer to memory and ends; a part of a unit that is lasting is not written and the charge fails (R241). -/
def putReport (s : State) (c cseq a : Nat) (d : List Byte) (status result : Nat) : State :=
  let y := writeDev {} noSubject { s := s } a d
  match y.bad with
  | [] => report y.s c cseq status result
  | u :: _ => report y.s c cseq Status.memLasting u

/-- The range is one that a charge may name by "device address": populated memory, or the scratchpad of a bound core (R6). -/
def deviceOk (s : State) (a n : Nat) : Bool :=
  inMem s a n || (match inWindow a n with
    | some (l, _) => isBound s l
    | none => false)

/-- The Afiup reaches a scratchpad as master 8 does, under its latched regions (log 94). -/
def deviceRegion (s : State) (a n : Nat) (k : Kind) : State × Bool :=
  match inWindow a n with
  | some (l, o) => checkRegion s l 8 k [(o, n)] 0
  | none => (s, true)

/-- A charge writes whole units to a device address and ends. -/
def putDevice (s : State) (c cseq a : Nat) (d : List Byte) (result : Nat) : State :=
  match deviceRegion s a d.length .wr with
  | (s, false) => report s c cseq Status.scratchRegion 0
  | (s, true) => report (writeAt {} 8 noSubject { s := s } a d).s c cseq 0 result

/-- Some bridge is lost: the module takes no charges (R29). -/
def bridgesUp (s : State) : Bool := !s.bridgeA.lost && !s.bridgeB.lost

/-- The hub runs: it has power, and its boot has passed stage 3 and did not halt there (R426, R459). -/
def hubUp (s : State) : Bool := !s.boot.off && !s.boot.shutdown && 3 ≤ s.boot.stage && s.boot.failKind ≠ 3

/-! ## MSI-X (R49, R54, R78) -/

/-- A byte of the MSI-X table; vector control resets to masked. -/
def msixByte (x : Port) (off : Nat) : Byte := tget (if off % 16 = 12 then 1 else 0) x.msix off

/-- Raise a vector: a message when the port can master and the vector is not masked, else a pending bit. -/
def raiseMsix (s : State) (p : HostPort) (v : Nat) : State :=
  if !canMaster s p then s
  else if (msixByte (getPort s p) (16 * v + 12)).toNat % 2 = 1 then
    setPort s p { getPort s p with pba := insNat (getPort s p).pba v }
  else emit s (.msix p v)

/-! ## Completion records (R75 to R78) -/

/-- The 32 bytes of a completion record. -/
def recBytes (c : Nat) (r : Rec) (phase : Bool) : List Byte :=
  toLE 8 (c % 1024 + r.tag % 2 ^ 16 * 2 ^ 16 + r.opcode % 4096 * 2 ^ 32 + severity r.status * 2 ^ 46 + r.status % 2 ^ 16 * 2 ^ 48)
    ++ toLE 8 (r.result % 2 ^ 64) ++ toLE 8 (r.time % 2 ^ 64) ++ toLE 8 (r.cseq % 2 ^ 32 + b2n phase * 2 ^ 63)

/-- The phase bit of record number `n` in a ring of 2^log2 records: 1 on the first lap. -/
def lapPhase (n log2 : Nat) : Bool := n / 2 ^ log2 % 2 = 0

/-- The ring has room for a record (R77). -/
def ringRoom (x : Ctx) : Bool := x.written - x.consumed < 2 ^ x.ringLog2

/-- Write a record at the next slot of the context's ring and raise the vector after it (R76, R78). -/
def writeRec (s : State) (c : Nat) (r : Rec) : State :=
  let x := getCtx s c
  let s := emit s (.hostWrite x.owner (x.ringBase + 32 * (x.written % 2 ^ x.ringLog2))
    (recBytes c r (lapPhase x.written x.ringLog2)))
  let s := setCtx s c { x with written := (x.written + 1) % 2 ^ 64 }
  let s := bump s 0 4 1
  if x.msixEn && (r.notify || severity r.status = 2) then raiseMsix s x.owner x.msixVec else s

/-- Write bytes into host memory in address order, in writes of at most the port's maximum payload that cross no 4 KiB boundary
(R49, R235): they are cut at multiples of that size. -/
def hostPut (s : State) (p : HostPort) (a : Nat) (d : List Byte) : State :=
  let k := (getPort s p).cfg.mps
  (pieces k (d.length / k + 2) a d).foldl (fun s q => emit s (.hostWrite p q.1 q.2)) s

end Sys2Proof.Machine
end

