-- ==== Sys2Proof/Machine/Items.lean ====
section
/-! DEFINITION. Work-queue items (R104): placing them on the cores that a charge names, their ends, the report of a charge
whose items have all ended (R106 to R108), and the stop of a charge (R108, R109). -/

namespace Sys2Proof.Machine

/-- The cores that a core mask at parameter offset 0 names. -/
def namedCores (e : Entry) : List Nat := (bitsOf 64 (pw e 0)) ++ (bitsOf 24 (pw e 8)).map (· + 64)

/-- The lowest core that trapped. -/
def lowestTrap : List (Nat × Nat × Nat) → Option (Nat × Nat × Nat)
  | [] => none
  | t :: r => match lowestTrap r with
    | some u => if u.1 < t.1 then some u else some t
    | none => some t

/-- RESULT of a stopped launch (R108). -/
def trapResult (t : Nat × Nat × Nat) (count : Nat) : Nat := t.1 * 2 ^ 32 + count % 2 ^ 16 * 2 ^ 16 + t.2.2 % 2 ^ 15

/-- Status and RESULT of a charge whose items have all ended: none where its own row reports. -/
def itemsOutcome (e : Entry) : Option (Nat × Nat) :=
  if e.st = .abortPending then some (Status.chargeAborted, 0)
  else if e.status ≠ 0 then some (e.status, 0)
  else match lowestTrap e.traps with
    | some t => some (t.2.1, trapResult t e.traps.length)
    | none =>
      if e.opcode = 0x200 ∨ e.opcode = 0x201 then some (0, (namedCores e).length)
      else if e.opcode = 0x210 then some (0, e.result)
      else if e.opcode = 0x300 then some (0, 0)
      else none

/-- When no item of the charge is left, its executors end. -/
def finishItems (s : State) (c cseq : Nat) : State :=
  match (getCtx s c).entries.find? (fun e => e.cseq = cseq && e.dispatched && e.st ≠ .finished && e.report.isNone) with
  | some e =>
    if e.items = [] then
      match itemsOutcome e with
      | some r => report s c cseq r.1 r.2
      | none => s
    else s
  | none => s

/-- The work queue of a core takes the items that the hub holds for it while it has room: it holds four (R104). -/
def fillQueue (x : Core) : Core :=
  let n := 4 - x.queue.length
  { x with queue := x.queue ++ x.hubItems.take n, hubItems := x.hubItems.drop n }

/-- An item arrives for a core: behind those that the hub holds for it, or straight on the queue (R104). -/
def giveItem (x : Core) (i : Item) : Core := fillQueue { x with hubItems := x.hubItems ++ [i] }

/-- The cores that a charge places items on: those of its core mask, or for class 0x3xx every bound core. -/
def itemCores (s : State) (e : Entry) : List Nat :=
  if opClass e.opcode = 2 then namedCores e else if opClass e.opcode = 3 then boundCores s else []

/-- The hub holds an item for a core that the charge places an item on: the charge is not dispatched (R104; log 88). -/
def backPressed (s : State) (e : Entry) : Bool := (itemCores s e).any (fun l => (getCore s l).hubItems ≠ [])

/-- No earlier charge of the context that places items still has to place them: items of one context reach a queue in hopper
order (R67, R104). -/
def inTurn (s : State) (c cseq : Nat) : Bool :=
  ((getCtx s c).entries.takeWhile (fun e => e.cseq ≠ cseq)).all (fun e =>
    !(e.dispatched && e.st = .waiting && e.report.isNone && (opClass e.opcode = 2 || opClass e.opcode = 3) && e.phase = 0))

/-- Place an item on the queues of cores; the charge waits for their ends. -/
def placeItems (s : State) (c cseq : Nat) (ls : List Nat) (item : Nat → Item) : State :=
  let s := ls.foldl (fun s l => modCore s l (fun x => giveItem x (item l))) s
  modRunning s c cseq (fun e => { e with items := ls, phase := 1 })

/-- The items of the charge on these cores have ended. -/
def removeItems (s : State) (c cseq : Nat) (ls : List Nat) : State :=
  finishItems (modRunning s c cseq (fun e => { e with items := e.items.filter (fun l => !ls.contains l) })) c cseq

/-- The item is the charge's. -/
def ofCharge (c cseq : Nat) (i : Item) : Bool := i.ctx = c && i.cseq = cseq

/-- Items of the charge that have not started are discarded. -/
def dropQueued (s : State) (c cseq : Nat) : State :=
  let ls := (s.cores.filter (fun e => e.2.queue.any (ofCharge c cseq) || e.2.hubItems.any (ofCharge c cseq))).map Prod.fst
  let t := { s with cores := s.cores.map (fun e =>
    (e.1, fillQueue { e.2 with queue := e.2.queue.filter (fun i => !ofCharge c cseq i)
                               hubItems := e.2.hubItems.filter (fun i => !ofCharge c cseq i) })) }
  if ls = [] then s else removeItems t c cseq ls

/-- Every core that runs an item of the charge starts the stop of R108 or R109; items that have not started are
discarded. -/
def stopCharge (s : State) (c cseq : Nat) : State :=
  let t := { s with cores := s.cores.map (fun e =>
    (e.1, { e.2 with run := e.2.run.map (fun r => if ofCharge c cseq r.item then { r with stopping := true } else r) })) }
  dropQueued t c cseq

/-- The item that core `l` runs has ended. -/
def endItem (s : State) (l : Nat) : State :=
  match (getCore s l).run with
  | some r => removeItems (modCore s l (fun x => { x with run := none })) r.item.ctx r.item.cseq [l]
  | none => s

end Sys2Proof.Machine
end

