-- ==== Sys2Proof/Machine/Resets.lean ====
section
/-! DEFINITION. What the resets keep (R456), OFF (R405, R408, R470), and what a thermal shutdown leaves (R415, R455). -/

namespace Sys2Proof.Machine

/-- The fence record, the part of the fencing state in the non-volatile store (R22, R456). -/
def keepRecord (f : Fencing) : Fencing := { fenced := f.fenced, withdrawn := f.withdrawn, bound := f.bound }

/-- The Crucible's fuses and firmware store; with them the number of nonces issued, which keeps nonces fresh (R420, R423,
R428, R432). -/
def keepFuses (x : Sec) : Sec :=
  { lifecycle := x.lifecycle, fieldOpens := x.fieldOpens, key := x.key, svn := x.svn, fw := x.fw, cert := x.cert, staged := x.staged,
    nonces := x.nonces }

/-- The repair log and the candidate list (R244 to R246). -/
def keepRepairs (r : Repair) : Repair := { cands := r.cands, unlisted := r.unlisted, hardUsed := r.hardUsed, softUsed := r.softUsed }

/-- What a power-on reset keeps (R456): the identity, the pins, and the non-volatile store; the commands that wait, the trace
and the free values are the model's own. -/
def coldState (s : State) : State :=
  { pending := s.pending, ident := s.ident, pins := { s.pins with tap := 1, i3cAddr := none }, fence := keepRecord s.fence, map := s.map
    step := { lastSealed := s.step.lastSealed }, sec := keepFuses s.sec, repair := keepRepairs s.repair
    protoLevel := s.protoLevel, protoMin := s.protoMin, protoVer := s.protoVer, out := s.out, free := s.free }

/-- A module reset of a cause (R455 to R457): beside what a power-on reset keeps, module time with the oscillator and each
core's copy of it, which never run backward (R43, R45), the three fields of the last complete window (R40; log 83), the number
of event records, measurements, `DBG_SINCE_POR`, strikes and fault windows, repair results, and, unless the
memory rails were removed (cause 3), memory with the Afiup's firmware region in it: the mirror's records and the journal. -/
def warmState (s : State) (cause : Nat) : State :=
  let c := coldState s
  let lost := cause = 3
  let t := { s.twin with restore := none, restored := [], corrupt := false }
  { c with
    pins := s.pins
    time := s.time
    osc := s.osc
    oscPs := s.oscPs
    fabA := s.fabA
    fabB := s.fabB
    fabWin := s.fabWin
    cores := (s.cores.filter (fun e => e.2.timeCopy ≠ 0)).map (fun e => (e.1, { timeCopy := e.2.timeCopy }))
    mem := if lost then [] else s.mem
    poison := if lost then [] else s.poison
    twin := if lost then {} else t
    journal := if lost then {} else { s.journal with running := none, shadow := none, saved := none, landed := [] }
    fence := { c.fence with faults := s.fence.faults, strikes := s.fence.strikes }
    sec := { c.sec with meas := s.sec.meas, sincePor := s.sec.sincePor }
    repair := s.repair
    tel := { eseq := s.tel.eseq }
    power := { vinNow := s.power.vinNow }
    boot := { cause := cause, held := s.pins.modReset, zeroMem := lost
              lostDue := if lost then s.step.lastSealed.isSome else s.step.st ≠ .idle && s.step.touched } }

/-- OFF (R405, R408): every rail falls and every volatile content is lost; `mv` is the input voltage left. -/
def goOff (s : State) (mv : Nat) : State :=
  let c := coldState s
  { c with boot := { off := true }, power := { vinNow := mv } }

/-- The power-on reset at an input voltage (R455). -/
def powerOn (s : State) (mv : Nat) : State :=
  let c := coldState s
  { c with power := { vinNow := mv } }

/-- The thermal shutdown removes every rail but the management rail: all that a reset of cause 3 does not keep is lost
(R415). -/
def shutDown (s : State) : State :=
  let w := warmState s 3
  { w with boot := { w.boot with shutdown := true, held := false, stage := s.boot.stage, failKind := s.boot.failKind } }

end Sys2Proof.Machine
end

