-- ==== Sys2Proof/Machine/Telemetry.lean ====
section
/-! DEFINITION. Counter sets (R441 to R443), phase timing records (R444 to R447) and the event ring (R451, R452). -/

namespace Sys2Proof.Machine

/-! ## Counter sets (R441 to R443) -/

/-- Number of counters of a set. -/
def setSize (set : Nat) : Nat := [16, 32 * 88, 8 * 48, 64 + 8 * 16].getD set 0

/-- A counter as COUNTERS_READ reads it: the counters of a withdrawn core read 0. -/
def readCounter (s : State) (set i : Nat) : Nat :=
  if set = 1 && !isBound s (i / 32) then 0 else (counterOf s set i).word

/-- Clear the OVF bits of a set. -/
def clearOvf (s : State) (set : Nat) : State :=
  let clr := fun (e : Nat × Counter) => if e.1 / 4096 = set then (e.1, { e.2 with ovf := false }) else e
  let lost := if set = 0 then { s.tel.lost with ovf := false } else s.tel.lost
  { s with tel := { s.tel with counters := s.tel.counters.map clr, lost := lost } }

/-- The bytes that COUNTERS_READ writes. -/
def counterBytes (s : State) (set : Nat) : List Byte :=
  toLE 8 s.time ++ toLE 8 s.time ++ toLE 8 set ++ toLE 8 (setSize set) ++ List.replicate 32 0
    ++ (List.range (setSize set)).flatMap (fun i => toLE 8 (readCounter s set i))

/-- COUNTERS_READ (R441, R442). -/
def execCountersRead (ctx cseq : Nat) (s : State) : Res :=
  .next (onCharge s ctx cseq 0x800 (fun e =>
    let d := pw e 0
    let set := fld (pw e 8) 1 0
    let b := counterBytes s set
    let st := firstFail [(d % 64 = 0 && fld (pw e 8) 63 3 = 0 && tailZero e 0x10, Status.fieldReserved),
      (inFast s d (64 + 8 * setSize set), Status.addressUnpopulated)]
    if st ≠ 0 then report s ctx cseq st 0
    else
      let s := if bitOf (pw e 8) 2 then clearOvf s set else s
      putReport s ctx cseq d b 0 (setSize set)))

/-! ## Phase timing records (R444 to R446) -/

/-- The phase period in which the accumulators count (R445). -/
def phasePeriod (s : State) : Option Nat :=
  match s.step.st with
  | .idle => none
  | .forward => some 0
  | .backward => some 1
  | .exchange => some (if s.step.inUpdate then 3 else 2)
  | .updating => some 3
  | .updated => some 3
  | .diverged => some 3

/-- Change the open record. -/
def modPhase (s : State) (f : PhaseRec → PhaseRec) : State :=
  match s.tel.phases with
  | r :: rest => if r.fin = 0 then { s with tel := { s.tel with phases := f r :: rest } } else s
  | [] => s

/-- Open a record; the 64 most recent are kept (R444). -/
def openPhase (s : State) (step : Nat) : State :=
  { s with tel := { s.tel with phases := ({ step := step, times := [s.time, 0, 0, 0, 0, 0, 0] } :: s.tel.phases).take 64 } }

/-- Set time field `i` of the open record: 0 FORWARD to 6 END. -/
def phaseTime (s : State) (i : Nat) : State := modPhase s (fun r => { r with times := r.times.set i s.time })

/-- Close the oldest open record: 1 sealed, 2 sealed after REDO, 3 abandoned (R444). A younger one is open too when the next step's FORWARD
mark has been accepted before the charge that ended this step retired. -/
def closePhase (s : State) (fin : Nat) : State :=
  let f := fun (r : PhaseRec) => { r with times := r.times.set 6 s.time, fin := if fin = 1 ∧ 1 < r.attempts then 2 else fin }
  { s with tel := { s.tel with phases := (updFirst (fun r => r.fin = 0) f s.tel.phases.reverse).reverse } }

/-- What the retirement of a charge leaves in its step's phase record: the end of an UPDATE mark, a REDO that starts the next attempt, the
end of the step (R444, R445). -/
def phaseRetire (s : State) (c : Nat) (e : Entry) : State :=
  if c = replayCtx then s
  else if e.opcode = 0x400 ∧ fld (pw e 0) 2 0 = 3 ∧ (e.status = 0 ∨ e.status = Status.frozenSkipped) then phaseTime s 4
  else if e.opcode = 0x401 ∧ (e.status = 0 ∨ e.status = Status.stepRolledBack) then closePhase s 1
  else if e.opcode = 0x402 ∧ e.status = 0 then
    if bitOf (pw e 8) 0 then closePhase s 3
    else modPhase (phaseTime s 2) (fun r => { r with attempts := min 255 (r.attempts + 1) })
  else s

/-- Accumulator limit (R446). -/
def phaseMax : Nat := 2 ^ 40 - 1

/-- Add to quantity `q` of the current period; at its limit the accumulator holds and one record is raised (R446). -/
def phaseAdd (s : State) (q n : Nat) : State :=
  match phasePeriod s, s.tel.phases with
  | some u, r :: _ =>
    let f := 3 * u + q
    let v := r.accs.getD f 0 + n
    if r.fin ≠ 0 ∨ n = 0 then s
    else if v < phaseMax then modPhase s (fun r => { r with accs := r.accs.set f v })
    else
      let t := modPhase s (fun r => { r with accs := r.accs.set f phaseMax, sat := if bitOf r.sat f then r.sat else r.sat + 2 ^ f })
      if bitOf r.sat f then t else raiseEv t Status.phaseTimerSaturated 0 noSubject r.step f 0
  | _, _ => s

/-- Busy steps of arrays, counted in units of 256 array-steps (R445). -/
def phaseBusy (s : State) (steps : Nat) : State :=
  match s.tel.phases with
  | r :: _ =>
    if r.fin = 0 ∧ s.step.st ≠ .idle then
      let t := r.busyRem + steps
      phaseAdd (modPhase s (fun r => { r with busyRem := t % 256 })) 0 (t / 256)
    else s
  | [] => s

/-- Time that a descriptor has waited for its grant, counted in units of 1 µs (R445). -/
def phaseWait (s : State) (ns : Nat) : State :=
  match s.tel.phases with
  | r :: _ =>
    if r.fin = 0 ∧ s.step.st ≠ .idle then
      let t := r.waitRem + ns
      phaseAdd (modPhase s (fun r => { r with waitRem := t % 1000 })) 2 (t / 1000)
    else s
  | [] => s

/-- The 192 bytes of a phase timing record. -/
def phaseBytes (r : PhaseRec) : List Byte :=
  toLE 8 r.step ++ toLE 8 (min 255 r.attempts + r.fin % 16 * 2 ^ 16 + r.sat % 4096 * 2 ^ 20)
    ++ (List.range 7).flatMap (fun i => toLE 8 (r.times.getD i 0))
    ++ (List.range 12).flatMap (fun f => toLE 8 (r.accs.getD f 0)) ++ List.replicate 24 0

/-- Insert a record in increasing step, after those of the same step. -/
def insPhase (r : PhaseRec) : List PhaseRec → List PhaseRec
  | [] => [r]
  | x :: rest => if r.step < x.step then r :: x :: rest else x :: insPhase r rest

/-- The kept records from `first` on, in increasing step, at most `n`. -/
def keptPhases (s : State) (first n : Nat) : List PhaseRec :=
  (((s.tel.phases.reverse).foldl (fun l r => insPhase r l) []).filter (fun r => first ≤ r.step)).take n

/-- PHASE_RECORDS_READ (R447). A COUNT of 0 or above 64 is refused with FIELD_RESERVED: R447 gives the range and no status (log
90). -/
def execPhaseRecordsRead (ctx cseq : Nat) (s : State) : Res :=
  .next (onCharge s ctx cseq 0x801 (fun e =>
    let d := pw e 0
    let n := fld (pw e 0x10) 6 0
    let rs := keptPhases s (pw e 8) n
    let st := firstFail [(d % 64 = 0 && 1 ≤ n && n ≤ 64 && fld (pw e 0x10) 63 7 = 0 && tailZero e 0x18, Status.fieldReserved),
      (inFast s d (192 * n), Status.addressUnpopulated)]
    if st ≠ 0 then report s ctx cseq st 0 else putReport s ctx cseq d (rs.flatMap phaseBytes) 0 rs.length))

/-! ## The event ring (R451, R452) -/

/-- EVENT_RING_SET (R451). -/
def execEventRingSet (ctx cseq : Nat) (s : State) : Res :=
  .next (onCharge s ctx cseq 0x802 (fun e =>
    let w := pw e 0x10
    let log2 := fld w 4 0
    let off := bitOf w 6
    let st := firstFail [(pw e 0 % 4096 = 0 && pw e 8 % 8 = 0 && fld w 15 7 = 0 && fld w 63 26 = 0 && tailZero e 0x18, Status.fieldReserved),
      (if off then pw e 0 = 0 && pw e 8 = 0 && w = 64 else 6 ≤ log2 && log2 ≤ 16, Status.eventRingInvalid)]
    if st ≠ 0 then report s ctx cseq st 0
    else
      let r : Ring := { ctx := ctx, base := pw e 0, consAddr := pw e 8, log2 := log2, msixEn := bitOf w 5, msixVec := fld w 25 16 }
      report { s with tel := { s.tel with ring := if off then none else some r } } ctx cseq 0 0))

/-- The ring's context can write its host's memory: OPEN or FAULTED, on a port that can master. -/
def ringUsable (s : State) (r : Ring) : Bool :=
  let x := getCtx s r.ctx
  (x.st = .opened || x.st = .faulted) && canMaster s x.owner

/-- The message after an event record: always after a failure, after a warning at most once per 1 ms. -/
def eventMsix (s : State) (r : Ring) (severity : Nat) : State :=
  let p := (getCtx s r.ctx).owner
  if !r.msixEn then s
  else if severity = 2 then raiseMsix s p r.msixVec
  else
    let due := match s.tel.warnTime with
      | some t => decide (t + 1000000 ≤ s.time)
      | none => true
    if due then raiseMsix { s with tel := { s.tel with warnTime := some s.time } } p r.msixVec else s

/-- EVENT_RING_WRITE (R452): the oldest buffered record is written when the ring has room; `consumed` is what the host's
consumed-count word holds, read again while the ring appears full. -/
def execEventRingWrite (consumed : Nat) (s : State) : Res :=
  .next (match s.tel.ring, s.tel.buffer with
    | some r, e :: rest =>
      if !ringUsable s r then s
      else
        let full := 2 ^ r.log2 ≤ r.written - r.consumed
        let r := if full ∧ r.pollTime ≤ s.time then { r with consumed := consumed % 2 ^ 64, pollTime := s.time + 1000 } else r
        if 2 ^ r.log2 ≤ r.written - r.consumed then { s with tel := { s.tel with ring := some r } }
        else
          let p := (getCtx s r.ctx).owner
          let s := emit s (.hostWrite p (r.base + 64 * (r.written % 2 ^ r.log2)) (eventBytes e (lapPhase r.written r.log2)))
          let s := { s with tel := { s.tel with ring := some { r with written := r.written + 1 }, buffer := rest } }
          enterOverflow (eventMsix s r e.severity)
    | _, _ => s)

end Sys2Proof.Machine
end

