-- ==== Sys2Proof/Machine/Ladle.lean ====
section
/-! DEFINITION. The power governor: the effective limit and the pool (R405, R412, R414, R415), rail codes (R413), grants
and reservoirs (R412), the power registers (R417), and the commands of input, measurement and temperature. -/

namespace Sys2Proof.Machine

/-! ## Limit, pool and rail -/

/-- The effective limit for a user limit: reduced below 36 V (R405). -/
def effLimit (s : State) (user : Nat) : Nat :=
  if s.power.vinNow < 36000 then min user (2200 * s.power.vinNow / 36000) else user

/-- The pool in force (R412): the lower of the effective limit less the base, less the cuts of R414, and of what the input
allows less the steps of 5 % that a throttle took off and that are not restored yet (R415). -/
def poolW (s : State) : Nat :=
  min ((effLimit s s.power.limitW - 760) * (100 - 5 * s.power.cuts) / 100) ((effLimit s 2200 - 760) * (100 - 5 * s.power.heat) / 100)

/-- The rail factor of a code in hundredths (R413). -/
def railFactor (code : Nat) : Nat := [69, 84, 100, 117, 135].getD code 100

/-- A grant in whole watts: the figure at 0.78 V times the rail factor, rounded up (R412). -/
def watts (base code : Nat) : Nat := cdiv (base * railFactor code) 100

/-- Watts held by descriptors, and by each site under test (R412, R465). -/
def heldW (s : State) : Nat :=
  watts 20 s.power.applied * s.fence.testing.length +
  (s.cores.map (fun e => (e.2.engines.map (fun g => g.2.heldW)).sum)).sum

/-- Watts granted, those in the reservoirs included (R417). -/
def grantedW (s : State) : Nat := heldW s + (s.cores.map (fun e => e.2.reservoir)).sum

/-- The rail code selected, a throttle included (R413, R415). -/
def railCode (s : State) : Nat := if s.power.throttle then 0 else s.power.rail

/-- Rescale every held grant to a rail code (R413). -/
def rescale (s : State) (code : Nat) : State :=
  let job := fun (j : Job) => if j.granted = 0 then j else { j with granted := watts j.base code }
  let eng := fun (g : Nat × Engine) => (g.1, { g.2 with job := g.2.job.map job, ahead := g.2.ahead.map job })
  { s with cores := s.cores.map (fun e => (e.1, { e.2 with engines := e.2.engines.map eng }))
           power := { s.power with applied := code } }

/-- The rail follows the code selected: it is lowered at once; it is raised once the pool can carry every held grant
rescaled (R413). -/
def settleRail (s : State) : State :=
  let code := railCode s
  if code < s.power.applied then rescale s code
  else if s.power.applied < code ∧ heldW (rescale s code) ≤ poolW s then rescale s code
  else s

/-- A raise of the rail waits: the governor grants nothing new (R413). -/
def raisePending (s : State) : Bool := s.power.applied < railCode s

/-! ## Registers (R417) -/

def pwrCode : PwrSt → Nat
  | .active => 0
  | .idleLit => 1
  | .drawn => 2

/-- `PWR_STAT`. -/
def pwrStat (s : State) : Nat :=
  pwrCode s.power.st + b2n s.power.autoIdle * 2 ^ 3 + b2n (decide (s.power.cuts ≠ 0)) * 2 ^ 12 + b2n s.power.high * 2 ^ 13
    + b2n s.power.low * 2 ^ 14 + b2n s.power.throttle * 2 ^ 15 + railCode s * 2 ^ 20 + s.power.tjMax % 256 * 2 ^ 32
    + s.power.railMv % 4096 * 2 ^ 40

/-- `PWR_INPUT`. -/
def pwrInput (s : State) : Nat :=
  s.power.peakW % 2 ^ 16 + s.power.pinW % 2 ^ 16 * 2 ^ 16 + s.power.vinMv % 2 ^ 16 * 2 ^ 32

/-- `LADLE_STAT`. -/
def ladleStat (s : State) : Nat :=
  s.power.limitW % 2 ^ 16 + s.power.waiting.length % 2 ^ 16 * 2 ^ 16 + grantedW s % 2 ^ 16 * 2 ^ 32 + poolW s % 2 ^ 16 * 2 ^ 48

/-- A record of a power or thermal status (R450). -/
def powerEvent (s : State) (status : Nat) : State := raiseEv s status 5 noSubject 0 (pwrInput s) (pwrStat s)

/-! ## Engines -/

def getEngine (x : Core) (e : Nat) : Engine := tget {} x.engines e
def setEngine (x : Core) (e : Nat) (g : Engine) : Core := { x with engines := tput x.engines e g }
def setJob (x : Core) (e : Nat) (j : Option Job) : Core := setEngine x e { getEngine x e with job := j }
def modJob (s : State) (l e : Nat) (f : Job → Job) : State :=
  modCore s l (fun x => setJob x e ((getEngine x e).job.map f))

/-- The scratchpad master of an engine (R83): arrays 2 and 3, vector unit 1, movers 4 to 7. -/
def engMaster (e : Nat) : Nat := if e < 2 then e + 2 else if e = 2 then 1 else e + 1

def getCells (x : Core) (a : Nat) : Cells := tget {} x.cells a
def modCells (s : State) (l a : Nat) (f : Cells → Cells) : State :=
  modCore s l (fun x => { x with cells := tput x.cells a (f (getCells x a)) })

/-- A descriptor leaves its engine: of an array, the rows of a breached one become open, its tile is no longer in place, and the
shadow keeps only the tile loaded for the descriptor behind it. -/
def leaveEngine (s : State) (l e : Nat) (j : Job) : State :=
  let s := if e < 2 then spoilRows s l e j else s
  let kept := (getEngine (getCore s l) e).ahead.any Job.preload
  let s := if e < 2 then modCells s l e (fun c => { c with tile := none, shadow := if kept then c.shadow else none }) else s
  modCore s l (fun x => dropBreaches (setJob x e none))

/-! ## Grants (R412) -/

/-- The descriptor needs a grant and has none. -/
def Job.asks (j : Job) : Bool := j.stage = 0 && j.base ≠ 0

/-- The descriptor of an engine that asks for a grant: the one in place, or the one behind it (R127). -/
def Engine.asking (g : Engine) : Option Job := g.jobs.find? Job.asks

/-- Change the descriptor that asks. -/
def Engine.modAsking (g : Engine) (f : Job → Job) : Engine :=
  let h := fun (j : Job) => if j.asks then f j else j
  if g.job.any Job.asks then { g with job := g.job.map h } else { g with ahead := g.ahead.map h }

/-- Give the asking descriptor its grant; the time that it waited counts (R445). -/
def giveGrant (s : State) (l e w : Nat) (fromReservoir : Bool) : State :=
  let s := match (getEngine (getCore s l) e).asking with
    | some j => phaseWait s (s.time - j.since)
    | none => s
  let s := modCore s l (fun x => setEngine x e ((getEngine x e).modAsking (fun j => { j with granted := w, stage := 2 })))
  let s := if fromReservoir then modCore s l (fun x => { x with reservoir := x.reservoir - w }) else s
  let s := { s with power := { s.power with waiting := s.power.waiting.filter (· ≠ (l, e)) } }
  bump s 0 9 1

/-- Watts go back from one reservoir to the pool, of those that are still needed. -/
def drawOne (p : State × Nat) (l : Nat) : State × Nat :=
  let r := min p.2 (getCore p.1 l).reservoir
  if r = 0 then p else (modCore p.1 l (fun x => { x with reservoir := x.reservoir - r }), p.2 - r)

/-- The governor draws watts back from the reservoirs for a request that fits the pool beside the grants in use; with which core
it begins is open (log 5). -/
def drawBack (s : State) (need : Nat) : State :=
  if need = 0 then s
  else
    let k := (Config.freeWord s.free).toNat % 88
    ((List.range' k (88 - k) ++ List.range k).foldl drawOne (bumpFree s, need)).1

/-- The request waits at the governor. -/
def queueGrant (s : State) (l e : Nat) : State :=
  if s.power.waiting.contains (l, e) then s
  else
    let s := { s with power := { s.power with waiting := s.power.waiting ++ [(l, e)] } }
    bumpCore (bump s 0 10 1) l 30 1

/-- While no request waits the governor refills a reservoir from the pool, up to 8 W; which one and by how much is open
(R412; log 5). -/
def refill (s : State) : State :=
  let l := (Config.freeWord s.free).toNat % 88
  let room := min (8 - (getCore s l).reservoir) (poolW s - grantedW s)
  if s.power.waiting ≠ [] ∨ isBound s l = false then s
  else modCore { s with free := s.free + 2 } l (fun x =>
    { x with reservoir := x.reservoir + (Config.freeWord (s.free + 1)).toNat % (room + 1) })

/-- LADLE_GRANT (R96, R412, R413, R414): the reservoir covers the request while the granted total lies within the pool, or the
governor grants it in order of arrival when the pool has room; watts that lie in reservoirs do not keep it waiting. -/
def execLadleGrant (core engine : Nat) (s : State) : Res :=
  let x := getCore s core
  .next (match (getEngine x engine).asking with
    | some j =>
      if fabricRuns s = false then s
      else
        let w := watts j.base s.power.applied
        if raisePending s then queueGrant s core engine
        else if w ≤ x.reservoir ∧ grantedW s ≤ poolW s then refill (giveGrant s core engine w true)
        else if (s.power.waiting = [] ∨ s.power.waiting.head? = some (core, engine)) ∧ heldW s + w ≤ poolW s
        then refill (giveGrant (drawBack s (grantedW s + w - poolW s)) core engine w false)
        else queueGrant s core engine
    | none => s)

/-- A grant returns: it refills its core's reservoir up to 8 W, the rest goes back to the pool; a raise of the rail that
waited may follow (R412, R413). -/
def returnGrant (s : State) (l w : Nat) : State :=
  settleRail (modCore s l (fun x => { x with reservoir := x.reservoir + min w (8 - x.reservoir) }))

/-! ## Input and measurement (R405, R414, R417) -/

/-- An overdraw is over once the average complies with the effective limit (R414). -/
def settleExcess (s : State) : State :=
  { s with power := { s.power with excess := s.power.excess && decide (effLimit s s.power.limitW < s.power.avgW) } }

/-- The input voltage takes a new value within the bands where the module runs. -/
def setInput (s : State) (mv : Nat) (low high : Bool) : State :=
  settleExcess (settleRail { s with power := { s.power with vinNow := mv, low := low, high := high } })

/-- INPUT_LOW (R405): 32 V to 36 V. -/
def execInputLow (mv : Nat) (s : State) : Res :=
  if 54000 < mv then .fault .absoluteMaximum
  else .next (
    if s.boot.off ∨ mv < 32000 ∨ 36000 ≤ mv then s
    else if s.power.low then setInput s mv true false
    else powerEvent (setInput s mv true false) Status.inputLow)

/-- INPUT_HIGH (R405): above 44 V, up to 48 V. -/
def execInputHigh (mv : Nat) (s : State) : Res :=
  if 54000 < mv then .fault .absoluteMaximum
  else .next (
    if s.boot.off ∨ mv ≤ 44000 ∨ 48000 < mv then s
    else if s.power.high then setInput s mv false true
    else powerEvent (setInput s mv false true) Status.inputHigh)

/-- INPUT_IN_OPERATING_RANGE (R405): back in 36 V to 44 V. -/
def execInputInOperatingRange (mv : Nat) (s : State) : Res :=
  if 54000 < mv then .fault .absoluteMaximum
  else .next (if s.boot.off ∨ mv < 36000 ∨ 44000 < mv then s else setInput s mv false false)

/-- The core rail applied in millivolts (R408, R413): 0 until stage 5. -/
def railMvNow (s : State) : Nat :=
  if s.boot.stage < 5 then 0
  else match s.power.st with
    | .active => 700 + 40 * s.power.applied
    | .idleLit => 700
    | .drawn => 600

/-- INPUT_POWER_MEASUREMENT (R414, R417): the measurements of the last 1 ms and of the last 100 ms. -/
def execInputPowerMeasurement (mv watts peak avg : Nat) (s : State) : Res :=
  if 54000 < mv then .fault .absoluteMaximum
  else .next (
    if s.boot.off ∨ s.boot.shutdown then s
    else settleExcess { s with power := { s.power with
      vinMv := mv, pinW := watts, peakW := peak, avgW := avg, railMv := railMvNow s } })

/-- POWER_OVERDRAW (R414): the 100 ms average exceeds the effective limit; the pool is cut by 5 %. The first cut of an excess
raises the record; the cuts that follow until the average complies raise none. -/
def execPowerOverdraw (s : State) : Res :=
  .next (
    if s.power.avgW ≤ effLimit s s.power.limitW ∨ 20 ≤ s.power.cuts then s
    else
      let t := { s with power := { s.power with cuts := s.power.cuts + 1, excess := true } }
      if s.power.excess then t else powerEvent t Status.powerOverdraw)

/-- POOL_RESTORE (R414, R415): the average has stayed 5 % below the limit; the pool is restored by one step, of its cuts and,
after a throttle, of the half that the throttle took. -/
def execPoolRestore (s : State) : Res :=
  .next (
    if effLimit s s.power.limitW * 95 < s.power.avgW * 100 then s
    else settleRail { s with power := { s.power with
      cuts := s.power.cuts - 1, heat := if s.power.throttle then s.power.heat else s.power.heat - 1 } })

/-- JUNCTION_SENSOR_READ (R415): a throttle halves the pool, ten steps of 5 %; below 100 °C the rail follows R413 and the pool
comes back by POOL_RESTORE. -/
def execJunctionSensorRead (hottest : Nat) (s : State) : Res :=
  let s := { s with power := { s.power with tjMax := min 255 hottest } }
  .next (
    if s.boot.off ∨ s.boot.shutdown then s
    else if 110 ≤ hottest then
      let s := powerEvent s Status.thermalShutdown
      emit (shutDown s) (.sideband Status.thermalShutdown [])
    else if 105 ≤ hottest ∧ s.power.throttle = false then
      powerEvent (settleRail { s with power := { s.power with throttle := true, heat := 10 } }) Status.thermalThrottle
    else if hottest < 100 ∧ s.power.throttle = true then
      settleRail { s with power := { s.power with throttle := false } }
    else s)

/-- FAB_RATE_WINDOW (R40): at the end of a 1 ms window the three fields update together. -/
def execFabRateWindow (dieA dieB : Nat) (s : State) : Res :=
  .next { s with fabA := dieA % 65536, fabB := dieB % 65536, fabWin := (s.fabWin + 1) % 65536 }

/-! ## Charges (R416) -/

/-- POWER_LIMIT_SET (R413, R414, R416): it retires at once with the granted total. -/
def execPowerLimitSet (ctx cseq : Nat) (s : State) : Res :=
  .next (onCharge s ctx cseq 0x601 (fun e =>
    let w := pw e 0
    let st := firstFail [(fld w 63 19 = 0 && tailZero e 8, Status.fieldReserved),
      (1000 ≤ fld w 15 0 && fld w 15 0 ≤ 2200 && fld w 18 16 ≤ 4, Status.powerLimitInvalid)]
    if st ≠ 0 then report s ctx cseq st 0
    else
      let t := settleExcess (settleRail { s with power := { s.power with limitW := fld w 15 0, rail := fld w 18 16 } })
      report t ctx cseq 0 (grantedW t)))

/-- The record of one logical core in LADLE_STATUS: reservoir, held and waiting requests. -/
def ladleRecord (s : State) (l : Nat) : Nat :=
  let x := getCore s l
  let held := (x.engines.map (fun g => g.2.heldW)).sum
  x.reservoir % 2 ^ 16 + held % 2 ^ 16 * 2 ^ 16 + (s.power.waiting.filter (fun w => w.1 = l)).length % 2 ^ 16 * 2 ^ 32

/-- The bytes that LADLE_STATUS writes. -/
def ladleBytes (s : State) : List Byte :=
  toLE 8 (pwrStat s) ++ toLE 8 (pwrInput s) ++ toLE 8 (ladleStat s) ++ toLE 8 (counterOf s 0 9).word ++ toLE 8 (counterOf s 0 10).word
    ++ List.replicate 24 0 ++ (List.range 88).flatMap (fun l => toLE 8 (ladleRecord s l))

/-- LADLE_STATUS (R416). -/
def execLadleStatus (ctx cseq : Nat) (s : State) : Res :=
  .next (onCharge s ctx cseq 0x602 (fun e =>
    let d := pw e 0
    let st := firstFail [(d % 64 = 0 && tailZero e 8, Status.fieldReserved), (inFast s d (64 + 8 * 88), Status.addressUnpopulated)]
    if st ≠ 0 then report s ctx cseq st 0 else putReport s ctx cseq d (ladleBytes s) 0 0))

end Sys2Proof.Machine
end

