-- ==== Sys2Proof/Machine/Flags.lean ====
section
/-! DEFINITION. Predicates and comparisons: the predicate registers (R84), guards (R87), the compares and `PSET` of R90, and
the saturating 64-bit sum of the atomics (R190). -/

namespace Sys2Proof.Machine

/-- Predicate register `i`; p0 reads 1 (R84). -/
def pReg (x : Core) (i : Nat) : Bool := i = 0 || bitOf x.p.toNat i

/-- The predicate word with bit `i` set to `b`; a write of p0 is discarded (R84). -/
def setPBit (p : Word16) (i : Nat) (b : Bool) : Word16 :=
  if i = 0 then p else BitVec.ofNat 16 ((List.range 16).foldl (fun a k =>
    a + if (if k = i then b else bitOf p.toNat k) then 2 ^ k else 0) 0)

/-- Write a predicate register. -/
def putP (x : Core) (i : Nat) (b : Bool) : Core := { x with p := setPBit x.p i b }

/-- The guard of an instruction: its predicate register, negated by `PNEG` (R86, R87). -/
def guardOf (x : Core) (pred : Nat) (neg : Bool) : Bool := pReg x pred != neg

/-- CMPEQ. -/
def cmpEq (a b : Word64) : Bool := a = b

/-- CMPLT, signed. -/
def cmpLt (a b : Word64) : Bool := a.toInt < b.toInt

/-- CMPLTU, unsigned. -/
def cmpLtu (a b : Word64) : Bool := a.toNat < b.toNat

/-- PSET: and, or, xor of two predicates, or the negation of the first. -/
def psetOp (kind : Nat) (a b : Bool) : Bool :=
  if kind = 0 then a && b else if kind = 1 then a || b else if kind = 2 then a != b else !a

/-- The signed 64-bit sum, clamped to the signed limits, and whether it was clamped (R190). -/
def addSat (a b : Word64) : Word64 × Bool :=
  let t := a.toInt + b.toInt
  if t < -(2 ^ 63 : Int) then (BitVec.ofInt 64 (-(2 ^ 63 : Int)), true)
  else if (2 ^ 63 : Int) - 1 < t then (BitVec.ofInt 64 ((2 ^ 63 : Int) - 1), true)
  else (BitVec.ofInt 64 t, false)

end Sys2Proof.Machine
end

