-- ==== Sys2Proof/Machine/Operands.lean ====
section
/-! DEFINITION. Salfel instruction words: fields (R86), operand forms (R89, R90), the registers they name (R84), and
descriptor words that the engines read (R93). -/

namespace Sys2Proof.Machine

/-! ## Fields (R86) -/

def iPred (w : Nat) : Nat := fld w 63 60
def iNeg (w : Nat) : Bool := bitOf w 59
def iOp (w : Nat) : Nat := fld w 58 52
def iDst (w : Nat) : Nat := fld w 51 46
def iSrcA (w : Nat) : Nat := fld w 45 40
def iSrcB (w : Nat) : Nat := fld w 39 34
def iForm (w : Nat) : Nat := fld w 33 32
def iImm (w : Nat) : Nat := fld w 31 0

/-- The immediate, sign-extended. -/
def iSimm (w : Nat) : Int := sext 32 (iImm w)

/-! ## General registers (R84) -/

/-- General register `i`; g0 reads 0. -/
def gReg (x : Core) (i : Nat) : Word64 := if i = 0 then 0 else tget 0 x.g i

/-- Write a general register; a write of g0 is discarded. -/
def putG (x : Core) (i : Nat) (v : Word64) : Core := if i = 0 then x else { x with g := tset 0 x.g i v }

/-- Operand A of R90. -/
def opA (x : Core) (w : Nat) : Word64 := gReg x (iSrcA w)

/-- Operand B of R90: a register, or the sign-extended immediate in form 1. -/
def opB (x : Core) (w : Nat) : Word64 := if iForm w = 1 then BitVec.ofInt 64 (iSimm w) else gReg x (iSrcB w)

/-- The scratchpad address A + an offset, in 64-bit arithmetic that wraps. -/
def addrA (x : Core) (w : Nat) (off : Int) : Nat := (opA x w + BitVec.ofInt 64 off).toNat

/-! ## Forms (R89, R90) -/

/-- The operations of R90. -/
def opDefined (op : Nat) : Bool :=
  op ≤ 0x0D || (0x10 ≤ op && op ≤ 0x13) || (0x20 ≤ op && op ≤ 0x25) || (0x30 ≤ op && op ≤ 0x34)
    || (0x40 ≤ op && op ≤ 0x43) || (0x50 ≤ op && op ≤ 0x52) || (0x58 ≤ op && op ≤ 0x5C) || op = 0x60 || op = 0x61

/-- Operations marked "Imm only"; those "as" another share its mark. -/
def immOnly (op : Nat) : Bool :=
  op = 0x0D || op = 0x13 || op = 0x20 || op = 0x21 || op = 0x23 || (0x31 ≤ op && op ≤ 0x34) || (0x40 ≤ op && op ≤ 0x43)
    || (0x50 ≤ op && op ≤ 0x52) || (0x58 ≤ op && op ≤ 0x5C)

/-- Reserved immediate bits are 0 in the operations whose immediate has fields. -/
def immOk (op imm : Nat) : Bool :=
  if 0x50 ≤ op ∧ op ≤ 0x52 then fld imm 31 5 = 0
  else if op = 0x58 then fld imm 15 13 = 0
  else if op = 0x59 ∨ op = 0x5C then fld imm 31 12 = 0
  else if op = 0x5A ∨ op = 0x5B then fld imm 15 12 = 0
  else true

/-- The instruction form is legal. -/
def formOk (w : Nat) : Bool :=
  opDefined (iOp w) && iForm w < 2 && !(iForm w = 1 && iOp w = 0x22) && !(iForm w = 0 && immOnly (iOp w))
    && immOk (iOp w) (iImm w)

/-- The instruction transfers control, or ends the program, so that no following index is formed (R91); `taken` is the
outcome of a loop's count. -/
def leavesStore (op : Nat) (taken : Bool) : Bool :=
  op = 0x20 || op = 0x21 || op = 0x22 || (op = 0x23 && taken) || op = 0x24 || op = 0x25

/-- The LOOP at `w` would branch: the difference that it computes is not 0. With DST = g0 that is the computed difference too,
not g0's read value (log 89). -/
def loopTaken (x : Core) (w : Nat) : Bool := gReg x (iDst w) - 1 ≠ 0

/-! ## Descriptor bytes -/

/-- The 4-byte word of a descriptor at an offset. -/
def dw4 (d : List Byte) (off : Nat) : Nat := wordAt d off 4

end Sys2Proof.Machine
end

