-- ==== Sys2Proof/Machine/Sequencer.lean ====
section
/-! DEFINITION. The sequencer's shared operations: when it may issue (R88), how an instruction is issued (R86 to R91), the
risers with their grants, rounds and faults (R212 to R218), traps and the stop of a launch (R97, R108, R482). -/

namespace Sys2Proof.Machine

/-! ## Ready sequencers -/

/-- A fence of the core has passed its stop (R383, R384). -/
def fenceFrozen (s : State) (l : Nat) : Bool := s.fence.active.any (fun e => e.2.core = l && 2 ≤ e.2.stage)

/-- The engines of a core may act: the fabric runs, the core is bound and no fence has stopped it. -/
def coreRuns (s : State) (l : Nat) : Bool := fabricRuns s && isBound s l && !fenceFrozen s l && !dieLost s (dieOf l)

/-- The launch whose instruction the sequencer of core `l` may issue, debug holds aside. -/
def seqReady (s : State) (l : Nat) : Option Run :=
  match (getCore s l).run with
  | some r =>
    if r.item.kind = .launch ∧ r.halted = false ∧ r.stopped = false ∧ r.waiting = false
        ∧ coreRuns s l = true
    then some r else none
  | none => none

/-- The breakpoint holds the sequencer before the instruction at its program counter (R430). -/
def atBreak (x : Core) : Bool := x.bpEn && x.pc = x.bpPc && !x.bpSkip

/-! ## Engines of a core -/

/-- Every engine has finished every descriptor. -/
def enginesIdle (x : Core) : Bool := x.engines.all (fun g => g.2.queue = [] && g.2.jobs = [])

/-- The descriptor at an engine's head has not started (R96, R108, R230). -/
def notStarted (e : Nat) (j : Job) : Bool := j.stage < 2 || (e < 2 && j.stage = 2)

/-- The descriptors that an engine keeps when those that have not started are discarded: a running one. -/
def Engine.started (g : Engine) (e : Nat) : Engine :=
  { queue := [], job := g.job.filter (fun j => !notStarted e j), ahead := none }

/-- Descriptors that have not started are discarded and signal nothing; their movers leave the risers' queues and their grants
return (R108). -/
def discardUnstarted (s : State) (l : Nat) : State :=
  let x := getCore s l
  let held := (x.engines.map (fun g => g.2.heldW - (g.2.started g.1).heldW)).sum
  let movers := (x.engines.filter (fun g => 3 ≤ g.1 && (g.2.started g.1).job.isNone)).map (fun g => g.1 - 3)
  let x := { x with
    engines := x.engines.map (fun g => (g.1, g.2.started g.1))
    cells := x.cells.map (fun c => if (getEngine x c.1).ahead.any Job.preload then (c.1, { c.2 with shadow := none }) else c)
    risers := x.risers.map (fun r => (r.1, { r.2 with queue := r.2.queue.filter (fun w => !movers.contains w) })) }
  let s := setCore s l (dropBreaches x)
  let s := { s with power := { s.power with waiting := s.power.waiting.filter (fun w => w.1 ≠ l) } }
  if held = 0 then s else returnGrant s l held

/-- The lowest core that the charge's mask names. -/
def lowestNamed (e : Entry) : Option Nat := (namedCores e).head?

/-- A core ends its part of a launch when it has executed HALT, or has been stopped, and its engines are idle (R107,
R108). -/
def settleCore (s : State) (l : Nat) : State :=
  let x := getCore s l
  match x.run with
  | some r =>
    if r.item.kind = .launch ∧ (r.halted ∨ r.stopped) ∧ enginesIdle x then
      let s := if r.halted then modRunning s r.item.ctx r.item.cseq (fun e =>
        if lowestNamed e = some l then { e with result := r.g1.toNat } else e) else s
      endItem s l
    else s
  | none => s

/-! ## Program counter -/

/-- Change the running item's record. -/
def modRun (s : State) (l : Nat) (f : Run → Run) : State := modCore s l (fun x => { x with run := x.run.map f })

/-- The instruction completes: the program counter takes a new value. -/
def goto (s : State) (l pc : Nat) : State :=
  modRun (modCore s l (fun x => { x with pc := pc })) l (fun r => { r with holding := false, waiting := false })

/-- The instruction completes and the next follows. -/
def next (s : State) (l : Nat) : State := goto s l ((getCore s l).pc + 1)

/-- The instruction holds (R88). -/
def hold (s : State) (l : Nat) : State := modRun s l (fun r => { r with holding := true })

/-! ## Risers (R212 to R217) -/

def getRiser (s : State) (l i : Nat) : Riser := tget {} (getCore s l).risers i
def setRiser (s : State) (l i : Nat) (r : Riser) : State := modCore s l (fun x => { x with risers := tput x.risers i r })

/-- The start riser of a mover descriptor has granted its wait (R230). -/
def startMover (s : State) (l m : Nat) : State := modJob s l (m + 3) (fun j => { j with stage := 2 })

/-- A consuming waiter is granted: the sequencer's WAITC completes, or a mover's descriptor starts. -/
def grantWaiter (s : State) (l w : Nat) : State := if w = 4 then next s l else startMover s l w

/-- The riser after one consuming grant: a round that it empties ends (R216). -/
def Riser.granted (r : Riser) : Riser :=
  if r.cur = 1 then { r with cur := r.nxt, nxt := 0, round := (r.round + 1) % 4, queue := r.queue.tail }
  else { r with cur := r.cur - 1, queue := r.queue.tail }

/-- Release the observer whose threshold is met, then grant consuming waiters one at a time (R215, R216). -/
def settleRiser (s : State) (l i : Nat) : Nat → State
  | 0 => s
  | fuel + 1 =>
    let r := getRiser s l i
    let s := match r.watch with
      | some t => if t ≤ r.cur then next (setRiser s l i { r with watch := none }) l else s
      | none => s
    let r := getRiser s l i
    match r.queue with
    | [] => s
    | w :: _ => if r.cur = 0 then s else settleRiser (grantWaiter (setRiser s l i r.granted) l w) l i fuel

/-- Grant and release every waiter that the riser's counts allow. -/
def settle (s : State) (l i : Nat) : State := settleRiser s l i ((getRiser s l i).queue.length + 1)

/-- The status of a riser fault. -/
def riserStatus (fault : Nat) : Nat := if fault = 1 then Status.riserLap else Status.riserSaturated

/-- The sequencer's wait leaves its riser. -/
def leaveRisers (s : State) (l : Nat) : State :=
  modCore s l (fun x => { x with risers := x.risers.map (fun r =>
    (r.1, { r.2 with queue := r.2.queue.filter (· ≠ 4), watch := none })) })

/-! ## Traps (R97, R108, R482) -/

/-- The trap word of a run at a program counter. -/
def runTrapWord (r : Run) (pc : Nat) : Nat := trapWord r.item.ctx r.item.cseq pc

/-- The sequencer of core `l` traps: `own` says that the cause's own record already carries the trap word. The core stops
at the trapping instruction, its unstarted descriptors are discarded, and the stop goes to every other core. -/
def trap (s : State) (l status pc code valA : Nat) (own : Bool) : State :=
  match (getCore s l).run with
  | some r =>
    if r.stopped then s
    else
      let s := if own then s else
        raiseEv s status 1 (coreSubject s l 0) (pc % 2 ^ 15 + code % 2 ^ 16 * 2 ^ 16) valA (r.item.cseq + r.item.ctx % 1024 * 2 ^ 32)
      let s := modRunning s r.item.ctx r.item.cseq (fun e => { e with traps := e.traps ++ [(l, status, pc)] })
      let s := leaveRisers s l
      let s := modRun s l (fun r => { r with stopped := true, holding := false, waiting := false })
      let s := discardUnstarted s l
      let s := stopCharge s r.item.ctx r.item.cseq
      settleCore s l
  | none => s

/-- A descriptor that its engine refuses or fails traps the sequencer that dispatched it (R97): it has left the engine, and its
grant returns. -/
def jobTrap (s : State) (l e : Nat) (j : Job) (status valA : Nat) (own : Bool) : State :=
  let s := { s with power := { s.power with waiting := s.power.waiting.filter (· ≠ (l, e)) } }
  let s := if j.granted = 0 then s else returnGrant s l j.granted
  settleCore (trap s l status j.pc 0 valA own) l

/-- The head descriptor of an engine ends in a trap. -/
def engineTrap (s : State) (l e status valA : Nat) (own : Bool) : State :=
  match (getEngine (getCore s l) e).job with
  | some j => jobTrap (leaveEngine s l e j) l e j status valA own
  | none => s

/-- The descriptor behind the running one ends in a trap. -/
def aheadTrap (s : State) (l e status valA : Nat) (own : Bool) : State :=
  let g := getEngine (getCore s l) e
  match g.ahead with
  | some j => jobTrap (modCore s l (fun x => setEngine x e { g with ahead := none })) l e j status valA own
  | none => s

/-! ## Riser faults and signals (R214, R215, R218) -/

/-- A riser faults: one record; a holding sequencer wait traps and waiting movers fail (R218). -/
def faultRiser (s : State) (l i fault word subj : Nat) : State :=
  let r := getRiser s l i
  let st := riserStatus fault
  let seq := r.queue.contains 4 || r.watch.isSome
  let s := setRiser s l i { r with fault := fault, queue := [], watch := none }
  let s := raiseEv (bumpCore s l 29 1) st 1 subj i word 0
  let s := if seq then trap s l st (getCore s l).pc 0 i false else s
  (r.queue.filter (· ≠ 4)).foldl (fun s m => engineTrap s l (m + 3) st i false) s

/-- A count is added to a field of 16 bits: the new field and whether it saturated. -/
def addCount (v c : Nat) : Nat × Bool := if 65535 < v + c then (65535, true) else (v + c, false)

/-- Apply one signal: count `c`, `mode` 0 current round, 1 next round, 2 absolute `rnd`; `word` and `subj` are what the
record of a fault names (R215). -/
def signal (s : State) (l i c mode rnd word subj : Nat) : State :=
  let r := getRiser s l i
  let d := if mode = 2 then (rnd + 4 - r.round) % 4 else mode
  if r.fault ≠ 0 then s
  else if d = 0 then
    let v := addCount r.cur c
    let s := setRiser s l i { r with cur := v.1 }
    if v.2 then faultRiser s l i 2 word subj else settle s l i
  else if d = 1 then
    let v := addCount r.nxt c
    let s := setRiser s l i { r with nxt := v.1 }
    if v.2 then faultRiser s l i 2 word subj else s
  else faultRiser s l i 1 word subj

/-- The signal word (R214) of a count on a riser. -/
def signalWord (i c mode rnd : Nat) : Nat := c % 2 ^ 16 * 2 ^ 16 + mode % 4 * 2 ^ 14 + rnd % 4 * 2 ^ 12 + i % 4096

/-- The completion signal of a descriptor: count 1 in the current round, from master or engine `m`. -/
def signalDone (s : State) (l i m : Nat) : State := signal s l i 1 0 0 (signalWord i 1 0 0) (coreSubject s l m)

/-- Apply a 32-bit signal word (R214). -/
def applyWord (s : State) (l word subj : Nat) : State :=
  signal s l (fld word 11 0) (fld word 31 16) (fld word 15 14) (fld word 13 12) word subj

/-! ## Issue (R86 to R91) -/

/-- Counter 16: instructions issued; a holding instruction issued when it first held. -/
def countIssue (s : State) (l : Nat) (r : Run) : State := if r.holding then s else bumpCore s l 16 1

/-- The instruction at the program counter of core `l`. -/
def instrAt (s : State) (l : Nat) : Nat := (getInstr (getCore s l) (getCore s l).pc).toNat

/-- Issue the instruction `w` of a ready sequencer: guard, form, the index after 32,767, then its own meaning. -/
def runInstr (s : State) (l : Nat) (r : Run) (w : Nat) (f : State → Run → Nat → State) : State :=
  let x := getCore s l
  let s := modCore (countIssue s l r) l (fun x => { x with bpSkip := false, haltedAt := false })
  if !guardOf x (iPred w) (iNeg w) then
    if x.pc = 32767 then trap s l Status.salfelAddress x.pc 0 32768 false else next s l
  else if !formOk w then trap s l Status.salfelIllegal x.pc 0 0 false
  else if x.pc = 32767 ∧ leavesStore (iOp w) (loopTaken x w) = false then
    trap s l Status.salfelAddress x.pc 0 32768 false
  else f s r w

/-- The operation is the row's: NOP's row also issues words with an undefined operation (R89). -/
def issues (op w : Nat) : Bool := iOp w = op || (op = 0 && !opDefined (iOp w))

/-- Issue the instruction of operation `op` at the program counter; a breakpoint holds it (R430). -/
def issue (s : State) (l op : Nat) (f : State → Run → Nat → State) : State :=
  let x := getCore s l
  let w := instrAt s l
  match seqReady s l with
  | some r =>
    if !issues op w || x.halt then s
    else if atBreak x then modCore s l (fun x => { x with haltedAt := true })
    else runInstr s l r w f
  | none => s

end Sys2Proof.Machine
end

