-- ==== Sys2Proof/Machine/Runners.lean ====
section
/-! DEFINITION. Runners (R202 to R211): storage in the scratchpad ring and in spill buffers, pointer faults, flushes, the
configuration registers and their effect at a work-queue item, and the spill mover's two moves. -/

namespace Sys2Proof.Machine

/-! ## Configuration fields (R206) -/

def cfgEn (c : Nat) : Bool := bitOf c 63
def cfgSpill (c : Nat) : Bool := bitOf c 62
def cfgRemote (c : Nat) : Bool := bitOf c 61
def ringLog (c : Nat) : Nat := fld c 55 52
def ringBaseOf (c : Nat) : Nat := 64 * fld c 16 0
def spillLog (c : Nat) : Nat := fld c 60 56
def spillBase (c : Nat) : Nat := 64 * fld c 43 6

/-- Writable bits of `RUN_CFG` and `RUN_SPILL`; reserved bits read 0 (R17). -/
def cfgMask (v : Word64) : Word64 := v &&& 0xE0F000000001FFFF#64
def spillMask (v : Word64) : Word64 := v &&& 0x1F000FFFFFFFFFC0#64

def getRunner (s : State) (l n : Nat) : Runner := tget {} (getCore s l).runners n
def setRunner (s : State) (l n : Nat) (r : Runner) : State := modCore s l (fun x => { x with runners := tput x.runners n r })

/-! ## Levels (R202 to R204) -/

def Runner.isSpill (r : Runner) : Bool := cfgSpill r.cfg.toNat

/-- Entries that the pointers span are 2^`ptrLog` at most: the ring, or the middle. -/
def Runner.ptrLog (r : Runner) : Nat := if r.isSpill then spillLog r.spill.toNat else ringLog r.cfg.toNat

/-- Entries between the pointers: of the ring, or of the middle. -/
def Runner.span (r : Runner) : Nat := (r.wp + 2 ^ (r.ptrLog + 1) - r.rp) % 2 ^ (r.ptrLog + 1)

/-- `RUN_STAT.LEVEL`. -/
def Runner.level (r : Runner) : Nat := if r.isSpill then r.tail.length + r.head.length + r.span else r.span

/-- A push can take its entry. -/
def Runner.canPush (r : Runner) : Bool :=
  if r.isSpill then r.tail.length < 16 || r.span < 2 ^ r.ptrLog else r.span < 2 ^ r.ptrLog

/-- Empty as the pop side sees it (R209). -/
def Runner.popEmpty (r : Runner) : Bool := if r.isSpill then r.head.isEmpty else r.span = 0

/-- Advance a pointer. -/
def Runner.adv (r : Runner) (p : Nat) : Nat := (p + 1) % 2 ^ (r.ptrLog + 1)

/-- Address of pointer `p`'s entry: scratchpad address of a ring entry, device address of a middle entry (R203). -/
def Runner.slot (r : Runner) (p : Nat) : Nat :=
  (if r.isSpill then spillBase r.spill.toNat else ringBaseOf r.cfg.toNat) + 64 * (p % 2 ^ r.ptrLog)

/-- Entries pass from tail to head directly while the middle is empty and the head has room (R204). -/
def Runner.pass (r : Runner) : Runner :=
  if r.span = 0 then
    let k := 16 - r.head.length
    { r with head := r.head ++ r.tail.take k, tail := r.tail.drop k }
  else r

/-- The runner without entries. -/
def Runner.flushed (r : Runner) : Runner := { r with rp := r.wp, tail := [], head := [] }

/-- The oldest tail entry moves to the middle. -/
def tailToMiddle (s : State) (l n : Nat) : State :=
  let r := getRunner s l n
  match r.tail with
  | [] => s
  | e :: rest => setRunner (putMem s (r.slot r.wp) e) l n { r with tail := rest, wp := r.adv r.wp }

/-- A runner takes an entry: it is enabled and can push (R203, R204). -/
def pushEntry (s : State) (l n : Nat) (e : List Byte) : State :=
  let r := getRunner s l n
  if r.isSpill then
    let s := if r.tail.length < 16 then s else tailToMiddle s l n
    let r := getRunner s l n
    setRunner s l n { r with tail := r.tail ++ [e] }.pass
  else setRunner (putSp s l 9 (r.slot r.wp) e) l n { r with wp := r.adv r.wp }

/-- The entry at the pop side, and the lasting words met in a ring entry; `tw` is the trap word of a trap that follows. -/
def headEntry (f : Finds) (s : State) (l n tw : Nat) : List Byte × Acc :=
  let r := getRunner s l n
  if r.isSpill then (r.head.headD [], { s := s, tw := tw })
  else (spB s l (r.slot r.rp) 64, readWords f l 9 { s := s, tw := tw } (wordsOf (r.slot r.rp) 64))

/-- The entry at the pop side leaves the runner. -/
def dropEntry (s : State) (l n : Nat) : State :=
  let r := getRunner s l n
  if r.isSpill then setRunner s l n { r with head := r.head.tail }.pass else setRunner s l n { r with rp := r.adv r.rp }

/-! ## Pointer faults (R205) and flushes (R210) -/

/-- The runner resets itself to empty; where its pointers come to stand is open (log 7). -/
def resetRunner (s : State) (l n : Nat) : State :=
  let r := getRunner s l n
  let p := (Config.freeWord s.free).toNat % 2 ^ (r.ptrLog + 1)
  bumpFree (setRunner s l n { r with wp := p, rp := p, tail := [], head := [], ptrFault := true })

/-- A pointer mismatch: the runner resets, one record is raised and the site's fault classification counts it (R205,
R380). -/
def pointerFault (s : State) (l n tw : Nat) : State :=
  let s := bumpCore (resetRunner s l n) l 22 1
  noteFault (raiseEv s Status.runnerPointerFault 1 (coreSubject s l 9) n 0 tw) l 3

/-- A write of 1 to `RUN_CTL.FLUSH`. -/
def flushRunner (s : State) (l n : Nat) : State := setRunner s l n (getRunner s l n).flushed

/-- RUNNER_FLUSH (R210). -/
def execRunnerFlush (core runner : Nat) (s : State) : Res := .next (flushRunner s core runner)

/-! ## Configuration (R206 to R208) -/

/-- A write of `RUN_CFG`, held for the core's next item; it clears `PTR_FAULT`. -/
def writeRunCfg (s : State) (l n : Nat) (v : Word64) : State :=
  setRunner s l n { getRunner s l n with cfgNew := some (cfgMask v), ptrFault := false }

/-- A write of `RUN_SPILL`, held for the core's next item. -/
def writeRunSpill (s : State) (l n : Nat) (v : Word64) : State :=
  setRunner s l n { getRunner s l n with spillNew := some (spillMask v) }

/-- RUN_CFG_WRITE (R206, R208). -/
def execRunCfgWrite (core runner : Nat) (value : Word64) (s : State) : Res := .next (writeRunCfg s core runner value)

/-- RUN_SPILL_WRITE (R206, R208). -/
def execRunSpillWrite (core runner : Nat) (value : Word64) (s : State) : Res := .next (writeRunSpill s core runner value)

/-- The first byte of a ring that master 9's latched regions do not cover, with the access refused. -/
def ringUncovered (s : State) (l c : Nat) : Option (Kind × Nat) :=
  let rs := [(ringBaseOf c, 64 * 2 ^ ringLog c)]
  match firstRefused (getCore s l).regionL 9 .rd rs with
  | some a => some (.rd, a)
  | none => (firstRefused (getCore s l).regionL 9 .wr rs).map (fun a => (.wr, a))

/-- `CFG_REASON` of a configuration, 0 when it passes (R208). -/
def cfgReason (s : State) (l : Nat) (r : Runner) : Nat :=
  let c := r.cfg.toNat
  if cfgSpill c then
    let n := spillLog r.spill.toNat
    let b := spillBase r.spill.toNat
    if n < 6 ∨ 24 < n ∨ b % (64 * 2 ^ n) ≠ 0 then 2 else if inMem s b (64 * 2 ^ n) then 0 else 3
  else
    let n := ringLog c
    if n = 0 ∨ ringBaseOf c % (64 * 2 ^ n) ≠ 0 ∨ spSize < ringBaseOf c + 64 * 2 ^ n then 2
    else if (ringUncovered s l c).isSome then 1 else 0

/-- The record of a refused configuration. -/
def refuseCfg (s : State) (l n reason : Nat) (c : Nat) : State :=
  if reason = 1 then
    match ringUncovered s l c with
    | some (k, a) => refuseRegion s l 9 (getCore s l).regionL k a 0
    | none => s
  else raiseEv s Status.runnerConfigInvalid 1 (coreSubject s l 9) (n + reason * 2 ^ 8) 0 0

/-- What a work-queue item does to one runner: held registers take effect; a ring whose coverage was withdrawn is checked
again (R208). -/
def applyRunner (s : State) (l n : Nat) : State :=
  let r := getRunner s l n
  let changed := r.cfgNew.isSome || r.spillNew.isSome
  let t : Runner := { r with cfg := r.cfgNew.getD r.cfg, spill := r.spillNew.getD r.spill, cfgNew := none, spillNew := none }
  if changed || (r.enabled && !r.isSpill && (ringUncovered s l r.cfg.toNat).isSome) then
    let reason := if cfgEn t.cfg.toNat then cfgReason s l t else 0
    let p := t.wp % 2 ^ (t.ptrLog + 1)
    let s := setRunner s l n { t with wp := p, rp := p, tail := [], head := [], cfgErr := decide (reason ≠ 0), reason := reason,
                                      enabled := cfgEn t.cfg.toNat && decide (reason = 0) }
    if reason = 0 then s else refuseCfg s l n reason t.cfg.toNat
  else s

/-- What a starting item does to every runner of the core. -/
def applyRunners (s : State) (l : Nat) : State := (List.range 32).foldl (fun s n => applyRunner s l n) s

/-! ## The spill mover (R204) -/

/-- SPILL_TAIL_WRITE: the oldest tail entry is written to the middle, when it cannot pass to the head. -/
def execSpillTailWrite (core runner : Nat) (ptrMismatch : Bool) (s : State) : Res :=
  let r := getRunner s core runner
  .next (
    if coreRuns s core = false ∨ r.enabled = false ∨ r.isSpill = false ∨ r.tail = [] ∨ 2 ^ r.ptrLog ≤ r.span then s
    else if ptrMismatch then pointerFault s core runner 0
    else if r.span = 0 ∧ r.head.length < 16 then setRunner s core runner r.pass
    else tailToMiddle s core runner)

/-- Device addresses of the next `k` middle entries. -/
def middleSlots (r : Runner) (k : Nat) : List Nat := (List.range k).map (fun i => r.slot (r.rp + i))

/-- SPILL_HEAD_REFILL: a head buffer below 8 entries is refilled from the middle in order; a lasting unit resets the runner
(R241). -/
def execSpillHeadRefill (core runner : Nat) (ptrMismatch : Bool) (f : Finds) (s : State) : Res :=
  let r := getRunner s core runner
  .next (
    if coreRuns s core = false ∨ r.enabled = false ∨ r.isSpill = false ∨ 8 ≤ r.head.length ∨ r.span = 0 then s
    else if ptrMismatch then pointerFault s core runner 0
    else
      let k := min (16 - r.head.length) r.span
      let us := middleSlots r k
      let known := us.filter (fun u => s.poison.contains u)
      let x := readUnits f (coreSubject s core 9) { s := s } us
      if x.bad ≠ [] then
        let s := match known with
          | u :: _ => raiseEv x.s Status.memLasting 4 (coreSubject s core 9) u
              (if inFast s u 1 then candWord s (rowKey s u) else 0) 0
          | [] => x.s
        resetRunner s core runner
      else
        setRunner x.s core runner
          { r with head := r.head ++ us.map (fun u => memB x.s u 64), rp := (r.rp + k) % 2 ^ (r.ptrLog + 1) }.pass)

end Sys2Proof.Machine
end

