-- ==== Sys2Proof/Machine/EngineDesc.lean ====
section
/-! DEFINITION. Descriptors of the engines: fields, the bytes they name, and the checks of array (R124, R125), vector (R176,
R177) and mover descriptors (R226, R227). A check answers the status with which the engine refuses the descriptor, and
whether the record that the cause raised already carries the trap word (R482). -/

namespace Sys2Proof.Machine

/-- A refusal: its status, and whether its own record was raised. -/
abbrev Refuse := Option (Nat × Bool)

/-- Fields [hi:lo] are all zero. -/
def zeroFlds (w : Nat) (fs : List (Nat × Nat)) : Bool := fs.all (fun f => fld w f.1 f.2 = 0)

/-- Every range lies in 0x0 to 0x5F_FFFF. -/
def inSp (rs : List (Nat × Nat)) : Bool := rs.all (fun r => r.2 = 0 || r.1 + r.2 ≤ spSize)

/-- A region check at the end of a check list. -/
def regionTail (s : State) (l master : Nat) (rd wr : List (Nat × Nat)) (tw : Nat) : State × Refuse :=
  let a := checkRegion s l master .rd rd tw
  if a.2 = false then (a.1, some (Status.scratchRegion, true))
  else
    let b := checkRegion s l master .wr wr tw
    if b.2 then (s, none) else (b.1, some (Status.scratchRegion, true))

/-! ## Array descriptors (R125) -/

/-- The checks of R125 up to the operand range. -/
def arrStatus (d : List Byte) : Nat :=
  let two := fun off => zeroFlds (dw d off) [(63, 55), (31, 23)]
  let fx := aFmtX d
  let fw := aFmtW d
  firstFail
    [(zeroFlds (dw d 0) [(48, 48), (6, 0)] && two 0x08 && two 0x10 && two 0x18 && two 0x20 && fld (dw d 0x28) 63 20 = 0
        && fld (dw d 0x30) 63 44 = 0 && dw d 0x38 = 0 && fx < 8 && fw < 8, Status.fieldReserved),
     ((fx = 5) = (fw = 5) && (!aScaledX d || fx ≤ 4) && (!aScaledW d || fw ≤ 4), Status.arrayFormatPair),
     ([aWBase d, aXBase d, aWLs d, aXLs d, aWTs d, aXTs d].all (fun a => a % 64 = 0)
        && (!aScaledX d || aXsBase d % 8 = 0) && (!aScaledW d || aWsBase d % 8 = 0)
        && aTileBase d + aTiles d ≤ 4096, Status.arrayDescInvalid),
     (aAccRow d + aRows d ≤ 256, Status.arrayAccRange),
     (inSp (arrRanges d), Status.arrayOperandRange)]

/-- The checks of an array descriptor. -/
def arrCheck (s : State) (l a : Nat) (d : List Byte) (tw : Nat) : State × Refuse :=
  if arrStatus d ≠ 0 then (s, some (arrStatus d, false)) else regionTail s l (a + 2) (arrRanges d) [] tw

/-- The ladle grant of an array descriptor at 0.78 V, by its wider operand format (R412). -/
def arrGrant (d : List Byte) : Nat :=
  let w := max (fmtOf (aFmtX d)).width (fmtOf (aFmtW d)).width
  if w = 4 then 7 else if w ≤ 8 then 6 else 5

/-- Steps for which a descriptor occupies its array (R129). -/
def arrSteps (d : List Byte) : Nat :=
  let w := max (fmtOf (aFmtX d)).width (fmtOf (aFmtW d)).width
  let m := if w = 4 then cdiv (aRows d) 2 else if w ≤ 8 then aRows d else 2 * aRows d
  aTiles d * max (m + 2 * cdiv (aRows d) (aGroup d)) 64

/-! ## Vector descriptors (R176) -/

def vFunc (d : List Byte) : Nat := fld (dw d 0) 63 56
def vSlot (d : List Byte) : Nat := fld (dw d 0) 55 52
def vFmtIn (d : List Byte) : Nat := fld (dw d 0) 51 48
def vFmtOut (d : List Byte) : Nat := fld (dw d 0) 47 44
def vSr (d : List Byte) : Bool := bitOf (dw d 0) 43
def vSat (d : List Byte) : Bool := bitOf (dw d 0) 42
def vScaledIn (d : List Byte) : Bool := bitOf (dw d 0) 41
def vScaledOut (d : List Byte) : Bool := bitOf (dw d 0) 40
def vDoneEn (d : List Byte) : Bool := bitOf (dw d 0) 39
def vRows (d : List Byte) : Nat := fld (dw d 0) 31 16 + 1
def vCols (d : List Byte) : Nat := fld (dw d 0) 15 0 + 1
def vA (d : List Byte) : Nat := fld (dw d 0x08) 55 32
def vB (d : List Byte) : Nat := fld (dw d 0x08) 23 0
def vC (d : List Byte) : Nat := fld (dw d 0x10) 55 32
def vDst (d : List Byte) : Nat := fld (dw d 0x10) 23 0
def vDst2 (d : List Byte) : Nat := fld (dw d 0x18) 55 32
def vBlockBase (d : List Byte) : Nat := fld (dw d 0x18) 31 0
def vInLs (d : List Byte) : Nat := fld (dw d 0x20) 55 32
def vOutLs (d : List Byte) : Nat := fld (dw d 0x20) 23 0
def vScaleIn (d : List Byte) : Nat := fld (dw d 0x28) 55 32
def vScaleOut (d : List Byte) : Nat := fld (dw d 0x28) 23 0
def vParam0 (d : List Byte) : Nat := fld (dw d 0x30) 63 32
def vParam1 (d : List Byte) : Nat := fld (dw d 0x30) 31 0
def vTensor (d : List Byte) : Nat := fld (dw d 0x38) 63 32
def vDoneRiser (d : List Byte) : Nat := fld (dw d 0x38) 31 20
def vRowBase (d : List Byte) : Nat := fld (dw d 0x38) 19 0

/-- An operand lies in the accumulator store; its array and first row (R176). -/
def oAcc (o : Nat) : Bool := bitOf o 23
def oArr (o : Nat) : Nat := fld o 8 8
def oRow (o : Nat) : Nat := fld o 7 0

/-- The functions of R178. -/
def vDefined (f : Nat) : Bool :=
  [0x00, 0x01, 0x02, 0x03, 0x04, 0x08, 0x10, 0x11, 0x12, 0x13, 0x14, 0x15, 0x16, 0x18, 0x19, 0x1A, 0x1B, 0x1C, 0x1D, 0x20,
   0x28, 0x30, 0x3F].contains f

def vUsesB (f : Nat) : Bool := [0x01, 0x02, 0x03, 0x04, 0x08, 0x16, 0x1A, 0x1B, 0x1D, 0x30].contains f
def vUsesC (f : Nat) : Bool := [0x03, 0x1B, 0x1D, 0x30].contains f
def vNoMain (f : Nat) : Bool := f = 0x19 || f = 0x1C || f = 0x28

/-- B of RMSNORM, LAYERNORM and SCALE_ROWS, and C of LAYERNORM, are single rows (R178; log 40). -/
def vSingleB (f : Nat) : Bool := f = 0x1A || f = 0x1B || f = 0x1D
def vSingleC (f : Nat) : Bool := f = 0x1B

/-- `DST2` bytes per row, 0 where the function has none (R178). -/
def vDst2Size (f cols : Nat) : Nat :=
  if f = 0x10 ∨ f = 0x20 then cdiv cols 64 * 8 else if f = 0x19 ∨ f = 0x1C then 8 else if f = 0x28 then 16 else 0

/-- The inputs that the function reads in `FMT_IN`, with their row counts. -/
def vInputs (d : List Byte) : List (Nat × Nat) :=
  let f := vFunc d
  let rows := fun single => if single then 1 else vRows d
  [(vA d, vRows d)] ++ (if vUsesB f ∧ f ≠ 0x30 then [(vB d, rows (vSingleB f))] else [])
    ++ (if vUsesC f ∧ f ≠ 0x30 ∧ f ≠ 0x1D then [(vC d, rows (vSingleC f))] else [])

/-- Every accumulator-capable operand of the function. -/
def vOperands (d : List Byte) : List Nat :=
  (vInputs d).map Prod.fst ++ (if vNoMain (vFunc d) then [] else [vDst d])

/-- Operands that always lie in the scratchpad (R176). -/
def vScratchOnly (d : List Byte) : List Nat :=
  let f := vFunc d
  (if vDst2Size f (vCols d) = 0 then [] else [vDst2 d]) ++ (if f = 0x1D then [vC d] else [])
    ++ (if f = 0x30 then [vB d, vC d, vDst d] else [])

/-- `CHUNK_ELEMS` of a prepared row, and its bytes per element (R361, R362, R364). -/
def momentBytes (fmt : Nat) : Nat := if fmt = 0 then 4 else if fmt = 1 then 2 else 0
def copyBytes (fmt : Nat) : Nat := if fmt = 3 ∨ fmt = 4 then 1 else if fmt = 6 ∨ fmt = 7 then 2 else 0
def rowMfmt (row : List Byte) : Nat := fld (w64 row 0x38) 55 54
def rowVfmt (row : List Byte) : Nat := fld (w64 row 0x38) 53 52
def rowOut (row : List Byte) : Nat := fld (w64 row 0x38) 51 48
def rowElems (row : List Byte) : Nat := wordAt row 0x48 2
/-- `DEN`, `MFMT`, `VFMT` and `OUT_FMT` of a coefficient row hold defined codes (R361). -/
def rowCodesOk (row : List Byte) : Bool :=
  fld (w64 row 0x38) 61 60 ≠ 3 && rowMfmt row ≠ 3 && rowVfmt row ≠ 3 && [0, 3, 4, 6, 7].contains (rowOut row)

/-- A prepared row: defined codes, and its reserved bits are 0 (R17, R361, R362). -/
def preparedOk (row : List Byte) : Bool := rowCodesOk row && fld (w64 row 0x38) 37 0 = 0 && (slice row 0x4A 54).all (· = 0)

def elemBytes (row : List Byte) : Nat := 4 + momentBytes (rowMfmt row) + momentBytes (rowVfmt row) + copyBytes (rowOut row)

/-- The prepared row of an UPDATE descriptor, as it lies. -/
def vPrepared (s : State) (l : Nat) (d : List Byte) : List Byte := spB s l (vC d) 128

/-- Bytes of one row of `n` elements in a format. -/
def rowBytes (code n : Nat) : Nat := cdiv (n * (fmtOf code).width) 8

/-- The scratchpad ranges that the function reads. -/
def vReads (s : State) (l : Nat) (d : List Byte) : List (Nat × Nat) :=
  let f := vFunc d
  let sp := (vInputs d).filter (fun o => !oAcc o.1)
  let k := vCols d / 32
  sp.flatMap (fun o => (List.range o.2).map (fun r => (o.1 + r * vInLs d, rowBytes (vFmtIn d) (vCols d))))
    ++ (if vScaledIn d then [(vScaleIn d, (sp.map (fun o => o.2 * k)).sum)] else [])
    ++ (if vScaledOut d then [(vScaleOut d, vRows d * k)] else [])
    ++ (if f = 0x1D then (List.range (vRows d)).map (fun r => (vC d + 8 * r, 4)) else [])
    ++ (if f = 0x30 then [(vC d, 128), (vB d, rowElems (vPrepared s l d) * elemBytes (vPrepared s l d))] else [])

/-- The scratchpad ranges that the function writes. -/
def vWrites (s : State) (l : Nat) (d : List Byte) : List (Nat × Nat) :=
  let f := vFunc d
  let n2 := vDst2Size f (vCols d)
  (if f = 0x30 then [(vDst d, rowElems (vPrepared s l d) * elemBytes (vPrepared s l d))]
   else if vNoMain f ∨ oAcc (vDst d) then []
   else (List.range (vRows d)).map (fun r => (vDst d + r * vOutLs d, rowBytes (vFmtOut d) (vCols d))))
    ++ (if n2 = 0 then [] else [(vDst2 d, vRows d * n2)])

/-- The bytes of a function table slot. -/
def slotB (s : State) (l slot off n : Nat) : List Byte := readB (getCore s l).tables (16384 * slot + off) n

/-- A PWPOLY table's segment count, bounds and segment width (R181). -/
def pwCount (s : State) (l slot : Nat) : Nat := leNat (slotB s l slot 8 4)
def pwWord (s : State) (l slot off : Nat) : Num := f32 (BitVec.ofNat 32 (leNat (slotB s l slot off 4)))
def pwWidth (s : State) (l slot : Nat) : Num :=
  div32 ((pwWord s l slot 0x14).add (pwWord s l slot 0x10).neg) (mkNum false (pwCount s l slot) 1)

/-- The number is finite and not zero. -/
def Num.proper : Num → Bool
  | .fin _ _ _ => true
  | _ => false

/-- The slot is valid for PWPOLY (R181). -/
def pwValid (s : State) (l slot : Nat) : Bool :=
  let n := pwCount s l slot
  let lo := pwWord s l slot 0x10
  let hi := pwWord s l slot 0x14
  leNat (slotB s l slot 0 8) = 0x5057504F4C590001 && (slotB s l slot 12 4).all (· = 0) && 1 ≤ n && n ≤ 1022 && lo.isFin && hi.isFin && Num.lt lo hi
    && (sub32 hi lo).isFin && (pwWidth s l slot).proper

/-- The formats are allowed (R177, R178). -/
def vFormatOk (d : List Byte) : Bool :=
  let f := vFunc d
  (!vScaledIn d || vFmtIn d ≤ 4) && (!vScaledOut d || vFmtOut d ≤ 4)
    && !(vNoMain f && vFmtOut d ≠ 8) && !(f = 0x08 && !(vFmtIn d = 8 && vFmtOut d = 8))
    && !(f = 0x30 && !((vFmtIn d = 6 || vFmtIn d = 7 || vFmtIn d = 8) && vFmtOut d = 8))
    && !(!vNoMain f && f ≠ 0x30 && oAcc (vDst d) && vFmtOut d ≠ 8)

/-- Alignment, block and accumulator limits and shapes (R177). -/
def vShapeOk (s : State) (l : Nat) (d : List Byte) : Bool :=
  let f := vFunc d
  let spIn := (vInputs d).any (fun o => !oAcc o.1)
  let spOut := !vNoMain f && f ≠ 0x30 && !oAcc (vDst d)
  let need32 := (spIn && vScaledIn d) || (spOut && vScaledOut d) || (spIn && (fmtOf (vFmtIn d)).width < 8) || (spOut && (fmtOf (vFmtOut d)).width < 8)
  vInLs d % 8 = 0 && vOutLs d % 8 = 0 && vScaleIn d % 8 = 0 && vScaleOut d % 8 = 0
    && (!need32 || vCols d % 32 = 0)
    && (vOperands d).all (fun o => !oAcc o || (vCols d ≤ 128 && oRow o + vRows d ≤ 256))
    && (vScratchOnly d).all (fun o => !oAcc o)
    && !(f = 0x30 && (vRows d ≠ 1 || rowElems (vPrepared s l d) < vCols d))

/-- Reserved bits and unused operands are 0 and the codes are defined (R176, R177). -/
def vFieldsOk (d : List Byte) : Bool :=
  let f := vFunc d
  let two := fun off => zeroFlds (dw d off) [(63, 56), (31, 24)]
  let unused := fun (used : Bool) (o : Nat) => used || o = 0
  fld (dw d 0) 38 32 = 0 && two 0x08 && two 0x10 && fld (dw d 0x18) 63 56 = 0 && two 0x20 && two 0x28
    && vDefined f && vFmtIn d ≤ 9 && vFmtOut d ≤ 9
    && unused (vUsesB f) (vB d) && unused (vUsesC f) (vC d) && unused (!vNoMain f) (vDst d)
    && unused (vDst2Size f (vCols d) ≠ 0) (vDst2 d)
    && [vA d, vB d, vC d, vDst d, vDst2 d].all (fun o => !oAcc o || fld o 22 9 = 0)

/-- The checks of a vector descriptor (R177). -/
def vecCheck (s : State) (l : Nat) (d : List Byte) (tw : Nat) : State × Refuse :=
  let st := firstFail
    [(vFieldsOk d, Status.fieldReserved),
     (vFunc d ≠ 0x30 || oAcc (vC d) || preparedOk (vPrepared s l d), Status.fieldReserved),
     (vFunc d ≠ 0x3F || pwValid s l (vSlot d), Status.vecTableInvalid),
     (vFormatOk d, Status.vecFormat), (vShapeOk s l d, Status.vecDescInvalid),
     (inSp (vReads s l d) && inSp (vWrites s l d), Status.vecOperandRange)]
  if st ≠ 0 then (s, some (st, false)) else regionTail s l 1 (vReads s l d) (vWrites s l d) tw

/-! ## Mover descriptors (R226) -/

def mKind (d : List Byte) : Nat := fld (dw d 0) 63 60
def mDoneEn (d : List Byte) : Bool := bitOf (dw d 0) 59
def mStartEn (d : List Byte) : Bool := bitOf (dw d 0) 58
def mSigEn (d : List Byte) : Bool := bitOf (dw d 0) 57
def mSat (d : List Byte) : Bool := bitOf (dw d 0) 56
def mMcast (d : List Byte) : Bool := bitOf (dw d 0) 55
def mSrcHost (d : List Byte) : Bool := bitOf (dw d 0) 54
def mDstHost (d : List Byte) : Bool := bitOf (dw d 0) 53
def mRunner (d : List Byte) : Nat := fld (dw d 0) 52 48
def mFlow (d : List Byte) : Nat := fld (dw d 0) 47 38
def mTree (d : List Byte) : Nat := fld (dw d 0) 37 30
def mCore (d : List Byte) : Nat := fld (dw d 0) 29 23
def mCoord (d : List Byte) : Nat := fld (dw d 0) 22 9
def mSrc (d : List Byte) : Nat := dw d 0x08
def mDst (d : List Byte) : Nat := dw d 0x10
def mRows (d : List Byte) : Nat := fld (dw d 0x18) 47 32 + 1
def mLen (d : List Byte) : Nat := fld (dw d 0x18) 31 0
def mDstStride (d : List Byte) : Nat := fld (dw d 0x20) 63 32
def mSrcStride (d : List Byte) : Nat := fld (dw d 0x20) 31 0
def mSignal (d : List Byte) : Nat := fld (dw d 0x28) 63 32
def mDoneRiser (d : List Byte) : Nat := fld (dw d 0x28) 31 20
def mStartRiser (d : List Byte) : Nat := fld (dw d 0x28) 19 8
def mPattern (d : List Byte) : Nat := dw d 0x30
def mTabRows (d : List Byte) : Nat := fld (dw d 0x30) 63 32
def mIdxCount (d : List Byte) : Nat := fld (dw d 0x30) 31 0
def mIdxAddr (d : List Byte) : Nat := fld (dw d 0x38) 43 0

/-- A `RUNNER_PUSH` whose runner is this core's own. -/
def mLocalPush (s : State) (l : Nat) (d : List Byte) : Bool := mCore d = l && mCoord d = ownCoord s

/-- Rows of an end: start addresses with the row length. -/
def rowRanges (base stride n len : Nat) : List (Nat × Nat) := (List.range n).map (fun r => (base + r * stride, len))

/-- The kind has a source read by device address, and a destination written by device address. -/
def mHasSrc (k : Nat) : Bool := k = 0 || k = 2 || k = 3 || k = 4
def mHasDst (k : Nat) : Bool := k = 0 || k = 1 || k = 5

/-- Device ranges that the descriptor reads. -/
def mReads (d : List Byte) : List (Nat × Nat) :=
  if mKind d = 6 then [(mSrc d, mTabRows d * mLen d), (mIdxAddr d, 4 * mIdxCount d)]
  else if mHasSrc (mKind d) ∧ mSrcHost d = false then rowRanges (mSrc d) (mSrcStride d) (mRows d) (mLen d) else []

/-- Device ranges that the descriptor writes. -/
def mWrites (d : List Byte) : List (Nat × Nat) :=
  if mKind d = 6 then rowRanges (mDst d) (mDstStride d) (mIdxCount d) (mLen d)
  else if mHasDst (mKind d) ∧ mDstHost d = false then rowRanges (mDst d) (mDstStride d) (mRows d) (mLen d) else []

/-- Reserved bits, flags and codes (R226, R227). -/
def mFieldsOk (d : List Byte) : Bool :=
  let k := mKind d
  let w := dw d 0
  let send := k = 2 || k = 3
  k ≤ 6 && fld w 8 0 = 0 && (!mSigEn d || send || k = 4) && (!mSat d || k = 3) && (!mMcast d || send)
    && (!(mSrcHost d || mDstHost d) || k = 0)
    && (mSrcHost d || mSrc d < 2 ^ 44) && (mDstHost d || mDst d < (if send then 2 ^ 23 else 2 ^ 44))
    && fld (dw d 0x18) 63 48 = 0 && fld (dw d 0x28) 7 0 = 0
    && (k = 1 || k = 6 || dw d 0x30 = 0) && (if k = 6 then dw d 0x38 < 2 ^ 44 else dw d 0x38 = 0)
    && !(mSigEn d && fld (mSignal d) 15 14 = 3)

/-- Lengths and alignment (R226, R236). -/
def mShapeOk (d : List Byte) : Bool :=
  let k := mKind d
  let n := mLen d
  if k = 6 then
    fld (dw d 0x18) 47 32 = 0 && (n = 32 || n = 64) && 1 ≤ mIdxCount d && 1 ≤ mTabRows d && mSrc d % n = 0 && mDst d % n = 0
      && mIdxAddr d % 4 = 0 && mDstStride d % 32 = 0 && n ≤ mDstStride d
  else
    1 ≤ n && (!(k = 3 || k = 4 || k = 5) || n % 64 = 0)
      && !(k = 3 && !(mDst d % 64 = 0 && (mRows d = 1 || mDstStride d % 64 = 0)))

/-- A range keeps out of register space and of every scratchpad window but core `own`'s populated one (R225). -/
def endAllowed (own : Nat → Bool) (r : Nat × Nat) : Bool :=
  !overlaps r.1 r.2 regBase0 0x10000000 &&
    (!overlaps r.1 r.2 winBase0 (88 * winSize) || (match inWindow r.1 r.2 with
      | some (l, _) => own l
      | none => false))

/-- The range lies in populated memory or in a scratchpad window. -/
def populated (s : State) (r : Nat × Nat) : Bool := (inWindow r.1 r.2).isSome || inMem s r.1 r.2

/-- First and last byte of a set of ranges. -/
def spanOf : List (Nat × Nat) → Nat × Nat
  | [] => (0, 0)
  | (a, n) :: r =>
    let q := spanOf r
    if r = [] then (a, a + n) else (min a q.1, max (a + n) q.2)

/-- The spans of two sets of ranges meet. -/
def spansMeet (x y : List (Nat × Nat)) : Bool :=
  x ≠ [] && y ≠ [] && (spanOf x).1 < (spanOf y).2 && (spanOf y).1 < (spanOf x).2

/-- The scratchpad ranges among device ranges. -/
def windowParts (rs : List (Nat × Nat)) : List (Nat × Nat) := rs.filterMap (fun r => (inWindow r.1 r.2).map (fun w => (w.2, r.2)))

/-- The checks of a mover descriptor (R227). -/
def movCheck (s : State) (l m : Nat) (d : List Byte) (tw : Nat) : State × Refuse :=
  let k := mKind d
  let own := fun x => x = l
  let offs := if k = 2 ∨ k = 3 then rowRanges (mDst d) (mDstStride d) (mRows d) (mLen d) else []
  let all := mReads d ++ mWrites d
  let st := firstFail
    [(mFieldsOk d, Status.fieldReserved), (k ≠ 6 || isL8 s, Status.featureAbsent),
     (!mSigEn d || fld (mSignal d) 31 16 ≠ 0, Status.riserSignalInvalid),
     (mShapeOk d, Status.moveDescInvalid),
     (all.all (endAllowed own) && inSp offs && !(mSrcHost d && mDstHost d)
        && !(k = 6 && !inFast s (mSrc d) (mTabRows d * mLen d)), Status.moveTargetInvalid),
     (all.all (populated s), Status.addressUnpopulated),
     (!all.any (fun r => inHopper s r.1 r.2), Status.hopperRegionProtected),
     (!(k = 0 && spansMeet (mReads d) (mWrites d)), Status.moveOverlap)]
  if st ≠ 0 then (s, some (st, false)) else regionTail s l (m + 4) (windowParts (mReads d)) (windowParts (mWrites d)) tw

end Sys2Proof.Machine
end

