-- ==== Sys2Proof/Machine/Engines.lean ====
section
/-! DEFINITION. Engines: the start of the descriptor at a queue's head (R93, R97, R227, R230), the end of a descriptor and
its completion signal (R95, R126), and dross records (R160). -/

namespace Sys2Proof.Machine

/-- Descriptors that an engine's queue holds (R93). -/
def queueCap (e : Nat) : Nat := if e < 3 then 8 else 16

/-- The job's trap word. -/
def jobTrapWord (j : Job) : Nat := trapWord j.ctx j.cseq j.pc

/-- A mover's start wait joins its riser; a faulted riser fails the descriptor (R218, R230). -/
def joinRiser (s : State) (l m i : Nat) : State :=
  let r := getRiser s l i
  if r.fault ≠ 0 then engineTrap s l (m + 3) (riserStatus r.fault) i false
  else settle (setRiser (modJob s l (m + 3) (fun j => { j with stage := 1 })) l i { r with queue := r.queue ++ [m] }) l i

/-- The head descriptor, read from the scratchpad, goes on: arrays and the vector unit wait for their grant, a vector descriptor
checked and its registers of R153 latched; movers, checked, wait for their start riser or start. -/
def admitHead (s : State) (l e : Nat) (d : List Byte) (tw : Nat) (addr : Nat) : State :=
  if e < 2 then modJob s l e (fun j => { j with base := arrGrant d })
  else if e = 2 then
    match vecCheck s l d tw with
    | (t, some r) => engineTrap t l e r.1 addr r.2
    | (t, none) => modJob t l e (fun j => { j with base := 4, seed := t.seed, step := t.astep, thr := t.thr })
  else
    match movCheck s l (e - 3) d tw with
    | (t, some r) => engineTrap t l e r.1 addr r.2
    | (t, none) => if mStartEn d then joinRiser t l (e - 3) (mStartRiser d) else modJob t l e (fun j => { j with stage := 2 })

/-- An engine reads a dispatched descriptor from the scratchpad as its own master (R82, R83, R93, R194, R200): the state, and the
refusal. -/
def fetchDesc (f : Finds) (s : State) (l e addr tw : Nat) : State × Refuse :=
  let c := checkRegion s l (engMaster e) .rd [(addr, 64)] tw
  if c.2 = false then (c.1, some (Status.scratchRegion, true))
  else
    let y := readWords f l (engMaster e) { s := c.1, tw := tw } (wordsOf addr 64)
    if y.bad ≠ [] then (y.s, some (Status.scratchUncorrectable, true)) else (y.s, none)

/-- A descriptor that an engine takes from its queue, with its bytes as they lie. -/
def newJob (s : State) (l : Nat) (q : Nat × Nat × Nat × Nat) : Job :=
  { addr := q.1, pc := q.2.1, ctx := q.2.2.1, cseq := q.2.2.2, desc := spB s l q.1 64, since := s.time }

/-- An engine without a descriptor takes the head of its queue (R93). -/
def startHead (f : Finds) (s : State) (l e : Nat) : State :=
  let x := getCore s l
  let g := getEngine x e
  match g.jobs, g.queue with
  | [], q :: rest =>
    let j := newJob s l q
    let y := fetchDesc f (setCore s l (setEngine x e { queue := rest, job := some j })) l e j.addr (jobTrapWord j)
    match y.2 with
    | some r => engineTrap y.1 l e r.1 j.addr r.2
    | none => admitHead y.1 l e j.desc (jobTrapWord j) j.addr
  | _, _ => s

/-- Descriptors of an engine that have not started, those that have left its queue to be checked or granted among them (R93,
R96). -/
def Engine.unstarted (g : Engine) (e : Nat) : Nat :=
  g.queue.length + (g.job.filter (notStarted e)).toList.length + g.ahead.toList.length

/-- A sequencer dispatches a descriptor address to an engine; a full queue holds it (R88, R93). -/
def dispatch (f : Finds) (s : State) (l e : Nat) (r : Run) (addr : Nat) : State :=
  let x := getCore s l
  let g := getEngine x e
  if queueCap e ≤ g.unstarted e then hold s l
  else
    let s := setCore s l (setEngine x e { g with queue := g.queue ++ [(addr, x.pc, r.item.ctx, r.item.cseq)] })
    startHead f (next s l) l e

/-- The job of an engine, at a stage. -/
def jobAt (s : State) (l e stage : Nat) : Option Job :=
  match (getEngine (getCore s l) e).job with
  | some j => if j.stage = stage ∧ coreRuns s l then some j else none
  | none => none

/-- The descriptor's work is done: its completion signal follows (COMPLETION_SIGNAL). -/
def finishJob (s : State) (l e : Nat) : State := modJob s l e (fun j => { j with stage := 4 })

/-- The completion riser of a descriptor, when it is enabled. -/
def doneRiser (e : Nat) (d : List Byte) : Option Nat :=
  if e < 2 then (if aDoneEn d then some (aDoneRiser d) else none)
  else if e = 2 then (if vDoneEn d then some (vDoneRiser d) else none)
  else if mDoneEn d then some (mDoneRiser d) else none

/-- Counters of a completed vector descriptor: it, and its busy steps, which depend on timing (R172; log 7). -/
def countDone (s : State) (l e : Nat) : State :=
  if e = 2 then bumpFree (bumpCore (bumpCore s l 15 1) l 14 ((Config.freeWord s.free).toNat % 2 ^ 32))
  else s

/-- The engine goes on: an array with the descriptor behind the finished one, which starts at once when its tile 0 is loaded
(R127), any engine else with its queue. -/
def goOn (f : Finds) (s : State) (l e : Nat) : State :=
  let g := getEngine (getCore s l) e
  match g.ahead with
  | some j => setCore s l (setEngine (getCore s l) e
      { g with job := some (if j.preload then { j with stage := 3 } else j), ahead := none })
  | none => startHead f s l e

/-- COMPLETION_SIGNAL (R93, R95, R107, R126, R127, R216, R412): a descriptor whose work is done signals its completion riser,
returns its grant, and the engine goes on. -/
def execCompletionSignal (core engine : Nat) (f : Finds) (s : State) : Res :=
  .next (match jobAt s core engine 4 with
    | none => s
    | some j =>
      let s := leaveEngine s core engine j
      let s := countDone s core engine
      let s := if j.granted = 0 then s else returnGrant s core j.granted
      let s := match doneRiser engine j.desc with
        | some i => signalDone s core i (engMaster engine)
        | none => s
      settleCore (goOn f s core engine) core)

/-! ## Dross records (R160) -/

/-- Raise a dross record: step, tensor, block, value, count, offset, class, source, core, scale. -/
def raiseDross (s : State) (step : Word64) (tensor block : Nat) (value : Word32) (count offset cls source core scale : Nat) : State :=
  let c := step.toNat * 2 ^ 192 + tensor % 2 ^ 32 * 2 ^ 160 + block % 2 ^ 40 * 2 ^ 120 + value.toNat * 2 ^ 88
    + min count 63 * 2 ^ 82 + offset % 32 * 2 ^ 77 + cls * 2 ^ 73 + source * 2 ^ 70 + core % 128 * 2 ^ 63 + scale % 256 * 2 ^ 32
  raiseEv s Status.drossRecorded 1 (c / 2 ^ 192) (c / 2 ^ 128 % 2 ^ 64) (c / 2 ^ 64 % 2 ^ 64) (c % 2 ^ 64)

end Sys2Proof.Machine
end

