-- ==== Sys2Proof/Machine/Arrays.lean ====
section
/-! DEFINITION. Matrix arrays: operand values (R113, R117, R146), the K-sum (R112, R147), the checksums (R130 to R132), the
drain's merges (R120, R150, R156), dross of the arrays (R159 to R162) and the stages of a mismatch (R135, R136). -/

namespace Sys2Proof.Machine

/-! ## Operand values -/

/-- Element `e` of the line at scratchpad address `a` (R143). -/
def lineElem (s : State) (l code a e : Nat) : Num :=
  let w := (fmtOf code).width
  decodeNum code ((leNat (spB s l (a + e * w / 8) ((e * w % 8 + w + 7) / 8)) >>> (e * w % 8)) % 2 ^ w)

/-- A block's scale byte (R124), 127 for an unscaled operand. -/
def xScale (s : State) (l : Nat) (d : List Byte) (kt m b : Nat) : Nat :=
  if aScaledX d then leNat (spB s l (aXsBase d + 1024 * kt + 4 * m + b) 1) else 127
def wScale (s : State) (l : Nat) (d : List Byte) (kt n b : Nat) : Nat :=
  if aScaledW d then leNat (spB s l (aWsBase d + 512 * kt + 4 * n + b) 1) else 127

/-- X(m, k) of tile `kt` with its scale (R117, R146). -/
def xVal (s : State) (l : Nat) (d : List Byte) (kt m k : Nat) : Num :=
  let b := aXBase d + kt * aXTs d
  let v := if aTransX d then lineElem s l (aFmtX d) (b + k * aXLs d) m else lineElem s l (aFmtX d) (b + m * aXLs d) k
  v.mul (scaleNum (xScale s l d kt m (k / 32)))

/-- The element code of W(k, n) of tile `kt` in the scratchpad, without its scale. -/
def wCode (s : State) (l : Nat) (d : List Byte) (kt k n : Nat) : Word16 :=
  let b := aWBase d + kt * aWTs d
  let a := if aTransW d then b + n * aWLs d else b + k * aWLs d
  let e := if aTransW d then k else n
  let w := (fmtOf (aFmtW d)).width
  BitVec.ofNat 16 ((leNat (spB s l (a + e * w / 8) ((e * w % 8 + w + 7) / 8)) >>> (e * w % 8)) % 2 ^ w)

/-- Rows m0 to m0 + g − 1 of X, over the active k. -/
def xRows (s : State) (l : Nat) (d : List Byte) (kt m0 g : Nat) : List (List Num) :=
  (List.range g).map (fun i => (List.range (aActive d kt)).map (fun k => xVal s l d kt (m0 + i) k))

/-- W(k, n) of a tile with its scale (R111, R146). -/
def Tile.value (d : List Byte) (t : Tile) (k n : Nat) : Num :=
  (decodeNum (aFmtW d) ((t.elems.getD k []).getD n 0).toNat).mul (scaleNum (((t.scales.getD (k / 32) []).getD n 127).toNat))

/-- Columns of the tile in place, over the active k. -/
def Tile.columns (d : List Byte) (t : Tile) : List (List Num) :=
  (List.range (aCols d)).map (fun n => (List.range t.elems.length).map (fun k => t.value d k n))

/-- The weight checksums c_k of the checksum column (R115). -/
def Tile.checksums (t : Tile) : List Num := t.sums.map chkNum

/-- Tile `kt` as the weight feeder reads it from the scratchpad, with the weight checksum of each row, summed in increasing n in
the check format (R115, R117, R130). -/
def readTile (s : State) (l : Nat) (d : List Byte) (kt : Nat) : Tile :=
  let t : Tile :=
    { kt := kt
      elems := (List.range (aActive d kt)).map (fun k => (List.range (aCols d)).map (wCode s l d kt k))
      scales := (List.range (cdiv (aActive d kt) 32)).map (fun b =>
        (List.range (aCols d)).map (fun n => BitVec.ofNat 8 (wScale s l d kt n b)))
      sums := [] }
  { t with sums := (List.range (aActive d kt)).map (fun k =>
      chkBits (sumOrder rchk ((List.range (aCols d)).map (t.value d k)))) }

/-! ## The K-sum (R112, R147) and the checksums (R130, R131) -/

/-- The exact product of two elements; integers have one zero (R149). -/
def elemMul (int : Bool) (x w : Num) : Num :=
  match x.mul w with
  | .zero z => .zero (z && !int)
  | v => v

/-- Products in row order. -/
def products (int : Bool) (x w : List Num) : List Num := x.zipWith (elemMul int) w

/-- The result of one row and column, FP32 bits. -/
def kSum (int : Bool) (x w : List Num) : Word32 := f32Bits (sumOrder rne32 (products int x w))

/-- The staged results of a group: rows of columns. -/
def stagedOf (int : Bool) (xs ws : List (List Num)) : List (List Word32) := xs.map (fun x => ws.map (fun w => kSum int x w))

/-- The magnitude sum beside a partial sum. -/
def magSum (x w : List Num) : Num := sumOrder rmag ((products false x w).map rmag)

/-- Columns of a list of rows. -/
def transpose {α : Type} (d : α) (n : Nat) (rows : List (List α)) : List (List α) :=
  (List.range n).map (fun i => rows.map (fun r => r.getD i d))

/-- One identity: left side, right side, S. -/
abbrev Check := Num × Num × Num

/-- The row checks of a group; `cs` are the weight checksums of the checksum column. -/
def rowChecks (xs ws : List (List Num)) (cs : List Num) (y : List (List Word32)) : List Check :=
  (xs.zip y).map (fun q => (sumOrder rchk (q.2.map f32), sumOrder rchk ((products false q.1 cs).map rchk),
    sumOrder rmag (ws.map (magSum q.1))))

/-- The column checks of a group. -/
def colChecks (xs ws : List (List Num)) (y : List (List Word32)) : List Check :=
  let k := (xs.headD []).length
  let sg := (transpose (.zero false) k xs).map (fun col => sumOrder rchk col)
  (ws.zip (transpose 0 ws.length y)).map (fun q => (sumOrder rchk (q.2.map f32), sumOrder rchk ((products false sg q.1).map rchk),
    sumOrder rmag (xs.map (fun x => magSum x q.1))))

/-- A check is skipped: S or a side is non-finite (R132). -/
def Check.skipped (c : Check) : Bool := !(c.1.isFin && c.2.1.isFin && c.2.2.isFin)

/-- |left − right| ≤ 2⁻²⁰ × S. -/
def Check.passes (c : Check) : Bool := Num.le (c.1.add c.2.1.neg).abs (c.2.2.mul (mkNum false 1 (2 ^ 20)))

/-- A check that fails: column check, index, residual, S. -/
abbrev Failing := Option (Bool × Nat × Nat × Nat)

/-- The first failing check of a list. -/
def firstFailing (col : Bool) (cs : List Check) : Failing :=
  (cs.zipIdx.find? (fun c => !Check.skipped c.1 && !Check.passes c.1)).map (fun c =>
    (col, c.2, chkBits (rchk (c.1.1.add c.1.2.1.neg)), chkBits c.1.2.2))

/-- One computation of a group with its faults: staged results, the failing check, checks skipped. -/
def computeGroup (d : List Byte) (xs : List (List Num)) (t : Tile) (f : GroupFault) : List (List Word32) × Failing × Nat :=
  let ws := t.columns d
  let y := f.staged.foldl (fun y e => y.modify e.1 (fun r => r.set e.2.1 e.2.2)) (stagedOf (decide (aFmtW d = 5)) xs ws)
  let rc := rowChecks xs ws t.checksums y
  let cc := colChecks xs ws y
  (y, ((firstFailing false rc).or (firstFailing true cc)).or f.check, (rc.countP Check.skipped) + (cc.countP Check.skipped))

/-- The group passes: every check, and no duplicated unit disagrees (R121, R131). -/
def groupPasses (f : GroupFault) (v : List (List Word32) × Failing × Nat) : Bool := v.2.1.isNone && !f.dup

/-! ## Accumulator reads (R122) -/

/-- Pairs that an access of the first `n` columns of a row reads: all of them, or the last one of an odd write. -/
def pairsRead (a row n : Nat) (reads : Bool) : List Nat :=
  if reads then (List.range (cdiv n 2)).map (fun i => accPair a row (2 * i)) else if n % 2 = 1 then [accPair a row n] else []

/-- Read pairs of the accumulator store: the state with what is counted and classified, and whether all are readable
(R122, R380). -/
def readPairs (f : Finds) (s : State) (l a : Nat) (ps : List Nat) : State × Bool :=
  let bad := ps.filter (fun p => (getCore s l).accBad.contains p || f.acc.contains p)
  let k := ps.countP (fun p => f.accC.contains p && !bad.contains p)
  let s := if k = 0 then s else bumpCore s l (12 + a) k
  match bad with
  | [] => (s, true)
  | p :: _ => (noteFault (modCore s l (fun x => { x with accBad := insNat x.accBad p })) l 2, false)

/-! ## Merges (R120, R150, R156) -/

/-- The merged value of one element: the exact sum, rounded to nearest even or with the grain. -/
def mergeVal (j : Job) (kt m n : Nat) (old y : Word32) : Word32 :=
  let d := j.desc
  let i := aTileBase d + kt
  let v := (f32 old).add (f32 y)
  let t := aTensor d
  let el := if bitOf t 31 then n * 256 + m else m * 256 + n
  if (f32 old).isFin && (f32 y).isFin && (aForce d || j.thr ≤ i)
  then f32Bits (sr32 (grain j.seed j.step (t % 2 ^ 31) i el) v) else f32Bits (rne32 v)

/-- The first tile of a descriptor that does not continue overwrites. -/
def overwrites (d : List Byte) (kt : Nat) : Bool := !aCont d && kt = 0

/-- A merge of finite operands gave an infinity. -/
def mergeOverflows (old y v : Word32) : Bool := (f32 old).isFin && (f32 y).isFin && !(f32 v).isFin

/-- Merge one row: the state, whether its pairs were readable, and the overflows as (column, value). -/
def mergeRow (f : Finds) (s : State) (l a : Nat) (j : Job) (m : Nat) (ys : List Word32) : State × Bool × List (Nat × Word32) :=
  let ow := overwrites j.desc j.kt
  let row := aAccRow j.desc + m
  let q := readPairs f s l a (pairsRead a row ys.length (!ow))
  if q.2 = false then (q.1, false, [])
  else
    let x := getCore q.1 l
    let old := (List.range ys.length).map (accAt x a row)
    let vs := if ow then ys else (old.zip ys).zipIdx.map (fun e => mergeVal j j.kt m e.2 e.1.1 e.1.2)
    let ovs := if ow then [] else (vs.zipIdx.filter (fun v => mergeOverflows (old.getD v.2 0) (ys.getD v.2 0) v.1)).map (fun v => (v.2, v.1))
    (setCore q.1 l (accWrite x a row vs), true, ovs)

/-- Merge the rows of a group in order, up to an unreadable one; overflows are noted in the job. -/
def mergeRows (f : Finds) (l a : Nat) (m : Nat) : List (List Word32) → State → State × Bool
  | [], s => (s, true)
  | ys :: rest, s =>
    match (getEngine (getCore s l) a).job with
    | none => (s, false)
    | some j =>
      let q := mergeRow f s l a j m ys
      let t := modJob q.1 l a (fun j => match q.2.2 with
        | [] => j
        | e :: _ =>
          let b := (aTileBase j.desc + j.kt) * 2 ^ 15 + m * 2 ^ 7 + e.1
          { j with ovf := if j.ovf.1 = 0 then (q.2.2.length, b, e.2.toNat) else (j.ovf.1 + q.2.2.length, j.ovf.2) })
      if q.2.1 then mergeRows f l a (m + 1) rest t else (t, false)

/-! ## Dross of the arrays (R159 to R162) -/

/-- A class 2 record of a group whose staged results hold a non-finite value, one for the group whichever of its computations
shows it (R159, R162). -/
def stagedDross (s : State) (l a : Nat) (j : Job) (y : List (List Word32)) : State :=
  let offs := (y.zipIdx.map (fun r => (r.1.zipIdx.filter (fun v => !(f32 v.1).isFin)).map (fun v => (r.2, v.2, v.1)))).flatten
  if ((getEngine (getCore s l) a).job.getD j).resDone then s
  else match offs with
    | [] => s
    | (m, n, v) :: _ => raiseDross (modJob s l a (fun j => { j with resDone := true })) j.step (aTensor j.desc)
        ((aTileBase j.desc + j.kt) * 2 ^ 15 + (j.row + m) * 2 ^ 7 + n) v offs.length 0 2 (a + 1) l 0x7F

/-- The class 3 record of a tile. -/
def overflowDross (s : State) (l a : Nat) (j : Job) : State :=
  if j.ovf.1 = 0 then s
  else raiseDross (modJob s l a (fun j => { j with ovf := (0, 0, 0) })) j.step (aTensor j.desc) j.ovf.2.1 (BitVec.ofNat 32 j.ovf.2.2)
    j.ovf.1 0 3 (a + 1) l 0x7F

/-- A scale byte of 0xFF: class 4 for X, 5 for W. -/
def scaleDross (s : State) (l a : Nat) (j : Job) (cls block : Nat) : State :=
  raiseDross s j.step (aTensor j.desc) block 255 1 0 cls (a + 1) l 255

/-- Records of the X scale bytes of the group's rows that are 0xFF, once per group (R162). -/
def xScaleDross (s : State) (l a : Nat) (j : Job) (g : Nat) : State :=
  let ks := ((List.range g).map (fun i => (List.range (cdiv (aActive j.desc j.kt) 32)).map (fun b => (j.row + i, b)))).flatten
  let ks := if j.xDone then [] else ks.filter (fun k => xScale s l j.desc j.kt k.1 k.2 = 255)
  ks.foldl (fun s k => scaleDross s l a j 4 (1024 * (aTileBase j.desc + j.kt) + 4 * k.1 + k.2))
    (modJob s l a (fun j => { j with xDone := true }))

/-- Records of the W scale bytes of tile `kt` that are 0xFF, once per tile (R162). -/
def wScaleDross (s : State) (l a : Nat) (j : Job) (kt : Nat) : State :=
  let ks := ((List.range (aCols j.desc)).map (fun n => (List.range (cdiv (aActive j.desc kt) 32)).map (fun b => (n, b)))).flatten
  let ks := if kt < j.wSeen then [] else ks.filter (fun k => wScale s l j.desc kt k.1 k.2 = 255)
  ks.foldl (fun s k => scaleDross s l a j 5 (512 * (aTileBase j.desc + kt) + 4 * k.1 + k.2)) s

/-! ## Loading tiles (R115, R126, R127) -/

/-- Change the descriptor in place, or the one behind it. -/
def modTaken (s : State) (l a : Nat) (behind : Bool) (f : Job → Job) : State :=
  if behind then modCore s l (fun x => setEngine x a { getEngine x a with ahead := (getEngine x a).ahead.map f }) else modJob s l a f

/-- The weight feeder reads the weights and scales of tile `kt` of a descriptor; the words that it could not read stop the load
(R200), else the tile's scale records follow and `put` places the tile. -/
def loadTile (f : Finds) (l a : Nat) (j : Job) (behind : Bool) (kt : Nat) (put : Cells → Tile → Cells) (x : Acc) : Acc :=
  let y := readWords f l (a + 2) x ((wRanges j.desc kt ++ wsRanges j.desc kt).flatMap (fun r => wordsOf r.1 r.2))
  if y.bad ≠ [] then y
  else
    let t := readTile y.s l j.desc kt
    let s := modTaken (wScaleDross y.s l a j kt) l a behind (fun j => { j with wSeen := max j.wSeen (kt + 1) })
    { y with s := modCells s l a (fun c => put c t) }

/-- A tile goes into the shadow registers, or straight into the cells. -/
def Cells.toShadow (c : Cells) (t : Tile) : Cells := { c with shadow := some t }
def Cells.toPlace (c : Cells) (t : Tile) : Cells := { c with tile := some t }

/-- Tile `kt` is in place, in the cells or in the shadow. -/
def holdsTile (o : Option Tile) (kt : Nat) : Bool := o.any (fun t => t.kt = kt)

/-- The descriptor's current tile takes effect: it is in place, or moves from the shadow, or is loaded again (R115, R135). -/
def placeTile (f : Finds) (l a : Nat) (j : Job) (x : Acc) : Acc :=
  let c := getCells (getCore x.s l) a
  if holdsTile c.tile j.kt then x
  else if holdsTile c.shadow j.kt then { x with s := modCells x.s l a (fun c => { c with tile := c.shadow, shadow := none }) }
  else loadTile f l a j false j.kt Cells.toPlace x

/-- The feeder loads the next tile as soon as the current one has taken effect (R115). -/
def loadNext (f : Finds) (l a : Nat) (j : Job) (x : Acc) : Acc :=
  let c := getCells (getCore x.s l) a
  if x.bad ≠ [] ∨ aTiles j.desc ≤ j.kt + 1 ∨ holdsTile c.shadow (j.kt + 1) = true then x
  else loadTile f l a j false (j.kt + 1) Cells.toShadow x

/-! ## Starting a descriptor -/

/-- A descriptor that ends in a trap: its tile's overflow record goes first. -/
def arrayTrap (s : State) (l a : Nat) (j : Job) (status : Nat) (own : Bool) : State :=
  engineTrap (overflowDross s l a ((getEngine (getCore s l) a).job.getD j)) l a status j.addr own

/-- The checks of R125; a descriptor that passes them latches the registers of R153 (R154). -/
def latchJob (s : State) (l a : Nat) (j : Job) (behind : Bool) : State :=
  match arrCheck s l a j.desc (jobTrapWord j) with
  | (t, some r) => if behind then aheadTrap t l a r.1 j.addr r.2 else engineTrap t l a r.1 j.addr r.2
  | (t, none) => modTaken t l a behind (fun j => { j with latched := true, seed := t.seed, step := t.astep, thr := t.thr })

/-- A granted and checked descriptor starts: tile 0 is loaded into the cells. -/
def startTile (f : Finds) (s : State) (l a : Nat) (j : Job) : State :=
  let y := loadTile f l a j false 0 Cells.toPlace { s := modJob s l a (fun j => { j with stage := 3 }), tw := jobTrapWord j }
  if y.bad ≠ [] then arrayTrap y.s l a j Status.scratchUncorrectable true else y.s

/-- Behind a running descriptor the next one is taken from the queue and checked, and once it is granted its tile 0 is loaded into
the shadow during the running one's last tile (R127). -/
def chainNext (f : Finds) (s : State) (l a : Nat) (j : Job) : State :=
  let g := getEngine (getCore s l) a
  let c := getCells (getCore s l) a
  match g.ahead, g.queue with
  | none, q :: rest =>
    let n := { newJob s l q with base := arrGrant (newJob s l q).desc }
    let y := fetchDesc f (setCore s l (setEngine (getCore s l) a { g with queue := rest, ahead := some n })) l a n.addr (jobTrapWord n)
    match y.2 with
    | some r => aheadTrap y.1 l a r.1 n.addr r.2
    | none => latchJob y.1 l a n true
  | none, [] => s
  | some n, _ =>
    if n.stage ≠ 2 ∨ n.preload = true ∨ j.kt + 1 < aTiles j.desc ∨ holdsTile c.tile j.kt = false then s
    else
      let y := loadTile f l a n true 0 Cells.toShadow { s := s, tw := jobTrapWord n }
      if y.bad ≠ [] then aheadTrap y.s l a Status.scratchUncorrectable n.addr true
      else modTaken y.s l a true (fun n => { n with preload := true })

/-- ARRAY_DESCRIPTOR_START (R96, R97, R125 to R127, R154): the checks with the latched registers, the first weight tile of a granted
descriptor; while one runs, the same for the descriptor behind it. -/
def execArrayDescriptorStart (core array : Nat) (f : Finds) (s : State) : Res :=
  .next (match (getEngine (getCore s core) array).job with
    | none => s
    | some j =>
      if coreRuns s core = false then s
      else if j.stage = 3 then chainNext f s core array j
      else if j.stage ≠ 0 ∧ j.stage ≠ 2 then s
      else
        let t := if j.latched then s else latchJob s core array j false
        match (getEngine (getCore t core) array).job with
        | some j => if j.latched && j.stage = 2 then startTile f t core array j else t
        | none => t)

/-! ## Verdicts (R126, R135, R136, R138) -/

/-- Rows of the current group. -/
def groupRows (j : Job) : Nat := min (aGroup j.desc) (aRows j.desc - j.row)

/-- The ranges of X and its scales that the group's rows read. -/
def groupRanges (j : Job) : List (Nat × Nat) :=
  let xs := if aTransX j.desc then xRanges j.desc j.kt else ((xRanges j.desc j.kt).drop j.row).take (groupRows j)
  xs ++ ((xsRanges j.desc j.kt).drop j.row).take (groupRows j)

/-- The report of a mismatch (R138, R450); `arr` is 2 when both arrays are meant. A check's index is its row m or its column n. -/
def checkReport (s : State) (l a arr : Nat) (j : Job) (status cause : Nat) (v : Failing) : State :=
  let c := v.getD (false, 0, 0, 0)
  let subj := subjectWord l (siteOf s l) arr (a + 2) 63 15 0 0
  raiseEv s status 1 subj
    (j.addr % 2 ^ 23 + (aTileBase j.desc + j.kt) * 2 ^ 23 + j.row * 2 ^ 35 + b2n c.1 * 2 ^ 43
      + (if c.1 then c.2.1 else j.row + c.2.1) * 2 ^ 44 + cause * 2 ^ 52)
    c.2.2.1 c.2.2.2

/-- Vectors of the tile's first `m` rows at the rate of R114, with a check slot of 2 st for each of their groups (R116, R129). -/
def stepsTo (d : List Byte) (m : Nat) : Nat :=
  let w := max (fmtOf (aFmtX d)).width (fmtOf (aFmtW d)).width
  (if w = 4 then cdiv m 2 else if w ≤ 8 then m else 2 * m) + 2 * cdiv m (aGroup d)

/-- Steps by which the group advances its array: a tile's last group brings it to the 64 st of the weight load at least (R129). -/
def groupSteps (j : Job) : Nat :=
  let row := j.row + groupRows j
  stepsTo j.desc row - stepsTo j.desc j.row + (if row = aRows j.desc then 64 - stepsTo j.desc row else 0)

/-- Completed advances of array `a` (R37): its counter and the phase record. -/
def countSteps (s : State) (l a n : Nat) : State := phaseBusy (bumpCore s l a n) n

/-- The group has merged: the next group, the next tile, or the descriptor's end (R126). -/
def afterGroup (s : State) (l a : Nat) : State :=
  match (getEngine (getCore s l) a).job with
  | none => s
  | some j =>
    let row := j.row + groupRows j
    let fresh := fun (j : Job) => { j with resDone := false, xDone := false }
    if row < aRows j.desc then modJob s l a (fun j => { fresh j with row := row })
    else
      let s := overflowDross s l a j
      if j.kt + 1 < aTiles j.desc then modJob s l a (fun j => { fresh j with row := 0, kt := j.kt + 1 }) else finishJob s l a

/-- The rows of a computed group enter the drain's other staging buffer (R119). -/
def stage (s : State) (l a : Nat) (y : List (List Word32)) : State :=
  modCells s l a (fun c =>
    { c with staging := if c.second then (y, c.staging.2) else (c.staging.1, y), second := !c.second })

/-- The rows that an array's drain staged last. -/
def stagedRows (x : Core) (a : Nat) : List (List Word32) :=
  let c := getCells x a
  if c.second then c.staging.2 else c.staging.1

/-- Merge the rows that array `src`'s drain holds and go on; an unreadable accumulator pair ends the descriptor (R122). The rows of
a descriptor that broke R123 are open. -/
def mergeGroup (f : Finds) (s : State) (l a src : Nat) (j : Job) : State :=
  let q := mergeRows f l a j.row (stagedRows (getCore s l) src) s
  if q.2 then afterGroup (spoilRows q.1 l a j) l a else arrayTrap q.1 l a j Status.accUncorrectable false

/-- A strike is in force for an array: in its next 2²⁴ check groups (R135). -/
def hasStrike (s : State) (l a : Nat) : Bool :=
  s.fence.strikes.any (fun k => k.1 = siteOf s l && k.2.1 = a && k.2.2 ≤ 2 ^ 24)

/-- Add a strike. -/
def addStrike (s : State) (l a : Nat) : State :=
  { s with fence := { s.fence with strikes := s.fence.strikes ++ [(siteOf s l, a, 0)] } }

/-- A check group of the array passes by for its strikes. -/
def countGroup (s : State) (l a : Nat) : State :=
  { s with fence := { s.fence with strikes := s.fence.strikes.map (fun k =>
      if k.1 = siteOf s l ∧ k.2.1 = a then (k.1, k.2.1, k.2.2 + 1) else k) } }

/-- The cause of a mismatch: 0 checksum, 1 duplication. -/
def causeOf (f : GroupFault) (v : Failing) : Nat := if v.isNone && f.dup then 1 else 0

/-- One computation of the descriptor's group on array `on`: its advances, its staged rows, its skipped checks and the class 2
record of its group. -/
def runGroup (s : State) (l a on : Nat) (j : Job) (steps : Nat) (v : List (List Word32) × Failing × Nat) : State :=
  stagedDross (bumpCore (stage (countSteps s l on steps) l on v.1) l (4 + on) v.2.2) l a j v.1

/-- The stages of a failing group (R135): `xs` and `t` are the group's rows and its tile. -/
def mismatch (f : Finds) (s : State) (l a : Nat) (j : Job) (xs : List (List Num)) (t : Tile) (cause : Nat) (v : Failing)
    (again other : GroupFault) : State :=
  let y1 := computeGroup j.desc xs t again
  let steps := stepsTo j.desc (groupRows j)
  let s := runGroup s l a a j steps y1
  let pass := fun (s : State) => bumpCore s l (2 + a) 1
  if groupPasses again y1 then
    let t := mergeGroup f (pass s) l a a j
    if hasStrike s l a then
      requestFence (checkReport (bumpCore t l (8 + a) 1) l a a j Status.arrayCheckLasting 2 v) l 0 []
    else addStrike (checkReport (bumpCore t l (6 + a) 1) l a a j Status.arrayCheckTransient cause v) l a
  else
    let y2 := computeGroup j.desc xs t other
    let s := runGroup s l a (1 - a) j steps y2
    if groupPasses other y2 then
      let t := mergeGroup f (pass s) l a (1 - a) j
      requestFence (checkReport (bumpCore t l (8 + a) 1) l a a j Status.arrayCheckLasting cause v) l 0 []
    else if y2.1 = y1.1 then
      checkReport (bumpCore (mergeGroup f s l a (1 - a) j) l (10 + a) 1) l a a j Status.arrayCheckRounding cause v
    else
      let t := modJob (bumpCore (bumpCore s l 8 1) l 9 1) l a (fun j => { j with stage := 6 })
      requestFence (checkReport t l a 2 j Status.arrayCheckLasting cause v) l 0 []

/-- CHECK_GROUP_VERDICT (R111, R112, R115, R116, R119 to R122, R126, R130 to R138): the next check group of the running descriptor
is computed, staged, checked and merged; `first`, `again` and `other` are the faults that its three computations meet. -/
def execCheckGroupVerdict (core array : Nat) (first again other : GroupFault) (f : Finds) (s : State) : Res :=
  .next (match jobAt s core array 3 with
    | none => s
    | some j =>
      let y := loadNext f core array j (placeTile f core array j { s := s, tw := jobTrapWord j })
      let y := if y.bad ≠ [] then y else readWords f core (array + 2) y ((groupRanges j).flatMap (fun r => wordsOf r.1 r.2))
      match y.bad, (getCells (getCore y.s core) array).tile with
      | [], some t =>
        let s := xScaleDross (countGroup y.s core array) core array j (groupRows j)
        let xs := xRows s core j.desc j.kt j.row (groupRows j)
        let v := computeGroup j.desc xs t first
        let s := runGroup s core array array j (groupSteps j) v
        if groupPasses first v then mergeGroup f (bumpCore s core (2 + array) 1) core array array j
        else mismatch f s core array j xs t (causeOf first v.2.1) v.2.1 again other
      | _, _ => arrayTrap y.s core array j Status.scratchUncorrectable true)

/-- STRIKE_EXPIRY (R135): 2²⁴ check groups after it, a strike ends. -/
def execStrikeExpiry (core array : Nat) (s : State) : Res :=
  .next { s with fence := { s.fence with strikes := s.fence.strikes.filter (fun k =>
    !(k.1 = siteOf s core && k.2.1 = array && 2 ^ 24 ≤ k.2.2)) } }

end Sys2Proof.Machine
end

