-- ==== Sys2Proof/Machine/Security.lean ====
section
/-! DEFINITION. The Crucible (R420 to R437): quotes, firmware images and their measurements, lifecycle, debug scopes and
tokens. Signatures and digests are uninterpreted functions of Config. -/

namespace Sys2Proof.Machine

/-! ## Lists of eight -/

/-- Set element `k` of a list. -/
def setAt {α : Type} (l : List α) (k : Nat) (v : α) : List α := l.set k v

/-- The 64 bytes of a measurement register; the empty list stands for zeros. -/
def measBytes (s : State) (k : Nat) : List Byte :=
  let m := s.sec.meas.getD k []
  if m = [] then List.replicate 64 0 else slice m 0 64

/-- Extend measurement register `k` by an applied image (R425). -/
def extendMeas (s : State) (k : Nat) (image : List Byte) : State :=
  let v := slice (Config.shake512 (measBytes s k ++ slice (Config.shake512 image) 0 64)) 0 64
  { s with sec := { s.sec with meas := setAt s.sec.meas k v } }

/-- An image of subsystem `k` is applied: measured, its version and kind in force (R425, R437). -/
def applyImage (s : State) (k : Nat) (i : Image) : State :=
  let s := extendMeas s k i.bytes
  let q := Config.linkLevels i.version
  let s := if k = 4 ∧ i.version ≠ s.protoVer then { s with protoLevel := q.1 % 256, protoMin := q.2 % 256, protoVer := i.version } else s
  { s with sec := { s.sec with version := setAt s.sec.version k i.version, eng := setAt s.sec.eng k i.eng } }

/-- The key digest of challenges and tokens: SHAKE256 of the device public key, zero in BLANK (R431). -/
def keyDigest (s : State) : List Byte :=
  if s.sec.lifecycle = 0 then List.replicate 32 0 else slice (Config.shake256 (Config.publicKey s.ident.serial)) 0 32

/-! ## Debug scopes (R429, R430) -/

/-- FABRIC closes: HALT and BP_EN clear and every halted sequencer resumes. -/
def resumeCores (s : State) : State :=
  { s with cores := s.cores.map (fun e => (e.1, { e.2 with halt := false, haltedAt := false, bpEn := false, bpSkip := false })) }

/-- The scopes of a mask close; with none left the debug state is CLOSED. -/
def closeScopes (s : State) (mask : Nat) : State :=
  let left := (List.range 3).foldl (fun a i => a + if bitOf s.sec.scopes i && !bitOf mask i then 2 ^ i else 0) 0
  let t := { s with sec := { s.sec with scopes := left, debug := if left = 0 then 0 else s.sec.debug
                                        timed := if left = 0 then false else s.sec.timed } }
  if bitOf mask 0 then resumeCores t else t

/-- DEBUG_CLOSE (R429): every scope closes. -/
def execDebugClose (ctx cseq : Nat) (s : State) : Res :=
  .next (onSecure s ctx cseq 0x703 (fun e =>
    if tailZero e 0 then report (closeScopes s 7) ctx cseq 0 0 else report s ctx cseq Status.fieldReserved 0))

/-- DEBUG_TOKEN_EXPIRY (R429): the duration of the open session ends. -/
def execDebugTokenExpiry (s : State) : Res := .next (if s.sec.timed then closeScopes s 7 else s)

/-- NONCE_EXPIRY (R432). -/
def execNonceExpiry (s : State) : Res := .next { s with sec := { s.sec with nonce := none } }

/-- The FABRIC scope is open. -/
def fabricOpen (s : State) : Bool := bitOf s.sec.scopes 0

/-- Write HALT of DBG_CORE: a halted sequencer resumes when it is cleared (R430). -/
def putHalt (s : State) (l : Nat) (h : Bool) : State :=
  modCore s l (fun x => if h then { x with halt := true }
    else { x with halt := false, haltedAt := false, bpSkip := x.bpSkip || x.haltedAt })

/-- Write the breakpoint of DBG_CORE (R430). -/
def putBp (s : State) (l : Nat) (en : Bool) (pc : Nat) : State :=
  modCore s l (fun x => { x with bpEn := en, bpPc := pc % 2 ^ 15 })

/-- DBG_CORE_HALT (R430): only with FABRIC open. -/
def execDbgCoreHalt (core : Nat) (halt : Bool) (s : State) : Res := .next (if fabricOpen s then putHalt s core halt else s)

/-- DBG_CORE_BP_EN (R430): only with FABRIC open. -/
def execDbgCoreBpEn (core : Nat) (en : Bool) (pc : Nat) (s : State) : Res :=
  .next (if fabricOpen s then putBp s core en pc else s)

/-! ## Attestation quotes (R436) -/

/-- The fixed part of a quote with the selected measurements. -/
def quoteBody (s : State) (mask : Nat) (nonce : List Byte) : List Byte :=
  toLE 4 1 ++ toLE 1 s.sec.lifecycle ++ toLE 1 s.sec.debug ++ toLE 1 s.sec.scopes
    ++ toLE 1 (b2n s.sec.sincePor + 2 * b2n (s.sec.eng.any id)) ++ toLE 8 s.ident.serial ++ toLE 1 s.sec.fieldOpens
    ++ toLE 1 (match s.power.st with
        | .active => 0
        | .idleLit => 1
        | .drawn => 2)
    ++ toLE 1 mask ++ toLE 1 s.protoLevel ++ (List.range 8).flatMap (fun k => toLE 4 (s.sec.version.getD k 0))
    ++ toLE 6 ((List.range 8).map (fun k => s.sec.svn.getD k 0 % 64 * 2 ^ (6 * k))).sum ++ List.replicate 6 0
    ++ toLE 8 s.time ++ nonce ++ (bitsOf 8 mask).flatMap (measBytes s)

/-- A whole quote. -/
def quoteBytes (s : State) (mask : Nat) (cert : Bool) (nonce : List Byte) : List Byte :=
  let b := quoteBody s mask nonce
  b ++ slice (Config.sign s.ident.serial b) 0 114 ++ (if cert then s.sec.cert.take 2048 else [])

/-- ATTEST_QUOTE (R436): every field from one snapshot. -/
def execAttestQuote (ctx cseq : Nat) (s : State) : Res :=
  .next (onSecure s ctx cseq 0x700 (fun e =>
    let d := pw e 0
    let q := quoteBytes s (fld (pw e 8) 7 0) (bitOf (pw e 8) 8) (slice e.params 0x10 32)
    let st := firstFail [(d % 64 = 0 && fld (pw e 8) 63 9 = 0 && tailZero e 0x30, Status.fieldReserved),
      (inFast s d q.length, Status.addressUnpopulated)]
    if st ≠ 0 then report s ctx cseq st 0 else putReport s ctx cseq d q 0 q.length))

/-! ## Firmware images (R424, R427) -/

/-- An image with its manifest fields. -/
def parseImage (b : List Byte) : Image :=
  { valid := true, eng := bitOf (wordAt b 6 1) 0, svn := wordAt b 7 1, version := wordAt b 8 4, bytes := b }

/-- The subsystem of an image. -/
def imageSub (b : List Byte) : Nat := wordAt b 5 1

/-- The manifest's signature verifies against the key that its ENGINEERING flag names; an engineering image is accepted
only outside FIELD (R424). -/
def imageSigned (s : State) (b : List Byte) : Bool :=
  let eng := bitOf (wordAt b 6 1) 0
  Config.verifies (b2n eng) (slice b 0 0x8E) (slice b 0x8E 114) && !(eng && s.sec.lifecycle = 2)

/-- The manifest's fields and digest are right for the image length (R424). -/
def imageFormed (b : List Byte) (len : Nat) : Bool :=
  wordAt b 0 4 = 1 && wordAt b 4 1 = 0x48 && imageSub b < 8 && wordAt b 6 1 < 2 && wordAt b 7 1 < 64
    && wordAt b 0x0C 4 + 256 = len && wordAt b 0x0C 4 ≤ 64 * 2 ^ 20 - 256 && (slice b 0x50 62).all (· = 0)
    && slice b 0x10 64 = slice (Config.shake512 (b.drop 256)) 0 64

/-- Write an image to the inactive copy of its subsystem and make that copy active (R427). -/
def storeImage (s : State) (k : Nat) (i : Image) : State :=
  { s with sec := { s.sec with fw := setAt s.sec.fw k (i, (s.sec.fw.getD k ({}, {})).1) } }

/-! ## Tokens (R431, R432) -/

/-- A token's or authorisation's fields but for the nonce, checked in the current state. -/
def tokenOk (s : State) (t : List Byte) (kind key : Nat) : Bool :=
  wordAt t 0 4 = kind && w64 t 8 = s.ident.serial % 2 ^ 64 && slice t 0x20 32 = keyDigest s
    && bitOf (wordAt t 5 1) s.sec.lifecycle && Config.verifies key (slice t 0 0x40) (slice t 0x40 114)
    && (if kind = 1 then wordAt t 4 1 < 8 && 1 ≤ wordAt t 6 2 && wordAt t 6 2 ≤ 1440 else wordAt t 4 1 = 0)

/-- The nonce of a token is live and equal. -/
def nonceOk (s : State) (t : List Byte) : Bool :=
  match s.sec.nonce with
  | some n => slice t 0x10 16 = slice (Config.nonceBytes n) 0 16
  | none => false

/-- The nonce is used. -/
def useNonce (s : State) : State := { s with sec := { s.sec with nonce := none } }

/-- Open a set of scopes. -/
def openScopes (s : State) (scopes debug : Nat) (timed : Bool) : State :=
  { s with sec := { s.sec with scopes := scopes, debug := if scopes = 0 then 0 else debug, sincePor := true, timed := timed } }

/-- The 64-byte challenge of stage 0. -/
def challengeBytes (s : State) (n : Nat) : List Byte :=
  toLE 8 s.ident.serial ++ slice (Config.nonceBytes n) 0 16 ++ keyDigest s ++ toLE 1 s.sec.lifecycle ++ toLE 1 s.sec.fieldOpens
    ++ List.replicate 6 0

/-- Reserved fields of DEBUG_OPEN. -/
def debugFieldsOk (e : Entry) : Bool := fld (pw e 0) 63 1 = 0 && fld (pw e 0x18) 63 32 = 0 && tailZero e 0x20

/-- Stage 1 of DEBUG_OPEN with a token read from memory. -/
def openWithToken (s : State) (ctx cseq : Nat) (t : List Byte) (len : Nat) (fuseBurns : Bool) : State :=
  if !(len = 178 && tokenOk s t 1 2) then report s ctx cseq Status.debugTokenInvalid 0
  else if !nonceOk s t then report s ctx cseq Status.debugNonceInvalid 0
  else
    let s := useNonce s
    if s.sec.lifecycle = 3 then report s ctx cseq Status.securityState 0
    else if s.sec.lifecycle = 2 ∧ 32 ≤ s.sec.fieldOpens then report s ctx cseq Status.debugCounterExhausted 0
    else if s.sec.lifecycle = 2 ∧ fuseBurns = false then report s ctx cseq Status.debugMarkFailed 0
    else
      let s := if s.sec.lifecycle = 2 then { s with sec := { s.sec with fieldOpens := s.sec.fieldOpens + 1 } } else s
      let s := openScopes (closeScopes s (7 - wordAt t 4 1)) (wordAt t 4 1) 1 true
      report s ctx cseq 0 0

/-- DEBUG_OPEN (R432, R433). -/
def execDebugOpen (ctx cseq : Nat) (fuseBurns : Bool) (f : Finds) (s : State) : Res :=
  .next (onSecure s ctx cseq 0x702 (fun e =>
    let stage := bitOf (pw e 0) 0
    let len := fld (pw e 0x18) 31 0
    if !debugFieldsOk e then report s ctx cseq Status.fieldReserved 0
    else if s.power.st = .drawn then report s ctx cseq Status.powerStateDrawn 0
    else if !stage then
      if !inMem s (pw e 0x10) 64 then report s ctx cseq Status.addressUnpopulated 0
      else
        let n := s.sec.nonces
        putReport { s with sec := { s.sec with nonce := some n, nonces := n + 1 } } ctx cseq (pw e 0x10) (challengeBytes s n) 0 0
    else if s.sec.lifecycle = 3 ∧ len = 0 then report (openScopes s 7 2 false) ctx cseq 0 0
    else if !inMem s (pw e 8) 178 then report s ctx cseq Status.addressUnpopulated 0
    else
      let y := readUnits f noSubject { s := s } (unitsOf (pw e 8) 178)
      if y.bad ≠ [] then report y.s ctx cseq Status.memLasting 0
      else openWithToken y.s ctx cseq (memB y.s (pw e 8) 178) len fuseBurns))

/-! ## Lifecycle (R428) -/

/-- A fabric charge of some context is dispatched and has not retired. -/
def fabricBusy (s : State) : Bool := s.ctxs.any (fun c => c.2.entries.any (fun e => e.dispatched && isFabric e.opcode))

/-- The erasure on the way to RETURNED: debug closed, both tiers and every store of every core overwritten with zeros, the
mirrors it holds and the step journal gone. -/
def eraseModule (s : State) : State :=
  let s := closeScopes s 7
  let wipe := fun (x : Core) => { x with scratch := [], spBad := [], acc := [], accBad := [], instr := [], tables := [],
                                         libs := (none, none), imgInstr := [], imgTables := [] }
  { s with mem := [], poison := [], cores := s.cores.map (fun e => (e.1, wipe e.2)), journal := {}
           twin := { s.twin with committed := none, pieces := [], newPieces := 0, asked := false, discarding := false } }

/-- The transition that a LIFECYCLE_ADVANCE asks for is the next one (R428). -/
def lifecycleOrderOk (s : State) (target : Nat) (stage : Bool) : Bool :=
  (s.sec.lifecycle = 0 && target = 1 && (stage = s.sec.staged)) || (s.sec.lifecycle = 1 && target = 2 && !stage)
    || (s.sec.lifecycle = 2 && target = 3 && !stage)

/-- LIFECYCLE_ADVANCE (R420, R421, R428). -/
def execLifecycleAdvance (ctx cseq : Nat) (f : Finds) (s : State) : Res :=
  .next (onSecure s ctx cseq 0x704 (fun e =>
    let target := fld (pw e 0) 1 0
    let src := pw e 8
    let len := if target = 1 then fld (pw e 0x18) 31 0 else 178
    let needSrc := (s.sec.lifecycle = 0 && s.sec.staged) || s.sec.lifecycle = 2
    let st := firstFail [(fld (pw e 0) 63 3 = 0 && fld (pw e 0x18) 63 32 = 0 && tailZero e 0x20, Status.fieldReserved),
      (lifecycleOrderOk s target (bitOf (pw e 0) 2), Status.lifecycleOrder),
      (s.step.st = .idle && !fabricBusy s, Status.securityBusy),
      (!needSrc || inMem s src len, Status.addressUnpopulated),
      (!(s.sec.lifecycle = 0 && !s.sec.staged) || inMem s (pw e 0x10) 57, Status.addressUnpopulated)]
    if st ≠ 0 then report s ctx cseq st 0
    else
      let y := if needSrc then readUnits f noSubject { s := s } (unitsOf src len) else { s := s }
      let s := y.s
      let b := memB s src len
      if y.bad ≠ [] then report s ctx cseq Status.memLasting 0
      else if s.sec.lifecycle = 0 ∧ s.sec.staged = false then
        putReport { s with sec := { s.sec with key := true, staged := true } } ctx cseq (pw e 0x10)
          (slice (Config.publicKey s.ident.serial) 0 57) 0 0
      else if s.sec.lifecycle = 0 then
        if len ≤ 2048 && Config.chainValid b s.ident.serial (Config.publicKey s.ident.serial)
        then report { s with sec := { s.sec with cert := b, lifecycle := 1 } } ctx cseq 0 0
        else report s ctx cseq Status.lifecycleOrder 0
      else if s.sec.lifecycle = 1 then report { s with sec := { s.sec with lifecycle := 2 } } ctx cseq 0 0
      else if !tokenOk s b 2 3 then report s ctx cseq Status.debugTokenInvalid 0
      else if !nonceOk s b then report s ctx cseq Status.debugNonceInvalid 0
      else
        let t := eraseModule (useNonce s)
        report { t with sec := { t.sec with lifecycle := 3 } } ctx cseq 0 0))

end Sys2Proof.Machine
end

