-- ==== Sys2Proof/Machine/Salfel.lean ====
section
/-! DEFINITION. The Salfel instructions (R90): each row executes the instruction at a core's program counter when its
operation is the row's. -/

namespace Sys2Proof.Machine

/-! ## Results to a general register -/

/-- g[DST] takes a value and the next instruction follows. -/
def putDst (s : State) (l w : Nat) (v : Word64) : State := next (modCore s l (fun x => putG x (iDst w) v)) l

/-- An operation on A and B. -/
def alu (l op : Nat) (f : Word64 → Word64 → Word64) (s : State) : Res :=
  .next (issue s l op (fun s _ w => let x := getCore s l; putDst s l w (f (opA x w) (opB x w))))

/-- The low six bits of B as a shift amount. -/
def shAmt (b : Word64) : Nat := b.toNat % 64

/-- NOP (R90), and operations that the table does not define (R89). -/
def execSalfelNop (core : Nat) (s : State) : Res := .next (issue s core 0x00 (fun s _ _ => next s core))

/-- ADD (R90). -/
def execAdd (core : Nat) (s : State) : Res := alu core 0x01 (fun a b => a + b) s

/-- SUB (R90). -/
def execSub (core : Nat) (s : State) : Res := alu core 0x02 (fun a b => a - b) s

/-- MUL (R90): the low 64 bits. -/
def execMul (core : Nat) (s : State) : Res := alu core 0x03 (fun a b => a * b) s

/-- MULHU (R90): the high 64 bits of the unsigned product. -/
def execMulhu (core : Nat) (s : State) : Res := alu core 0x04 (fun a b => BitVec.ofNat 64 (a.toNat * b.toNat / 2 ^ 64)) s

/-- AND (R90). -/
def execAnd (core : Nat) (s : State) : Res := alu core 0x05 (fun a b => a &&& b) s

/-- OR (R90). -/
def execOr (core : Nat) (s : State) : Res := alu core 0x06 (fun a b => a ||| b) s

/-- XOR (R90). -/
def execXor (core : Nat) (s : State) : Res := alu core 0x07 (fun a b => a ^^^ b) s

/-- SHL (R90). -/
def execShl (core : Nat) (s : State) : Res := alu core 0x08 (fun a b => a <<< shAmt b) s

/-- SHR (R90). -/
def execShr (core : Nat) (s : State) : Res := alu core 0x09 (fun a b => a >>> shAmt b) s

/-- SAR (R90). -/
def execSar (core : Nat) (s : State) : Res := alu core 0x0A (fun a b => a.sshiftRight (shAmt b)) s

/-- MIN (R90), signed. -/
def execMin (core : Nat) (s : State) : Res := alu core 0x0B (fun a b => if cmpLt b a then b else a) s

/-- MAX (R90), signed. -/
def execMax (core : Nat) (s : State) : Res := alu core 0x0C (fun a b => if cmpLt a b then b else a) s

/-- SETHI (R90). -/
def execSethi (core : Nat) (s : State) : Res :=
  .next (issue s core 0x0D (fun s _ w =>
    putDst s core w ((opA (getCore s core) w &&& 0x00000000FFFFFFFF#64) ||| BitVec.ofNat 64 (iImm w * 2 ^ 32))))

/-! ## Predicates -/

/-- p[DST[3:0]] takes a value and the next instruction follows. -/
def putPred (s : State) (l w : Nat) (b : Bool) : State := next (modCore s l (fun x => putP x (iDst w % 16) b)) l

/-- A compare of A and B. -/
def compare (l op : Nat) (f : Word64 → Word64 → Bool) (s : State) : Res :=
  .next (issue s l op (fun s _ w => let x := getCore s l; putPred s l w (f (opA x w) (opB x w))))

/-- CMPEQ (R90). -/
def execCmpeq (core : Nat) (s : State) : Res := compare core 0x10 cmpEq s

/-- CMPLT (R90). -/
def execCmplt (core : Nat) (s : State) : Res := compare core 0x11 cmpLt s

/-- CMPLTU (R90). -/
def execCmpltu (core : Nat) (s : State) : Res := compare core 0x12 cmpLtu s

/-- PSET (R90). -/
def execPset (core : Nat) (s : State) : Res :=
  .next (issue s core 0x13 (fun s _ w =>
    let x := getCore s core
    let i := iImm w
    putPred s core w (psetOp (fld i 9 8) (pReg x (fld i 3 0)) (pReg x (fld i 7 4)))))

/-! ## Control transfer (R90, R91) -/

/-- An address trap at the current instruction. -/
def trapHere (s : State) (l status valA : Nat) : State := trap s l status (getCore s l).pc 0 valA false

/-- PC + simm as a target. -/
def target (x : Core) (w : Nat) : Int := (x.pc : Int) + iSimm w

/-- A target is an instruction index. -/
def targetOk (t : Int) : Bool := 0 ≤ t && t < 32768

/-- A target's 64 bits, for the record of a trap. -/
def targetBits (t : Int) : Nat := (BitVec.ofInt 64 t).toNat

/-- BR (R90). -/
def execBr (core : Nat) (s : State) : Res :=
  .next (issue s core 0x20 (fun s _ w =>
    let t := target (getCore s core) w
    if targetOk t then goto s core t.toNat else trapHere s core Status.salfelAddress (targetBits t)))

/-- CALL (R90). -/
def execCall (core : Nat) (s : State) : Res :=
  .next (issue s core 0x21 (fun s _ w =>
    let x := getCore s core
    let t := target x w
    if targetOk t then goto (modCore s core (fun x => putG x 63 (BitVec.ofNat 64 (x.pc + 1)))) core t.toNat
    else trapHere s core Status.salfelAddress (targetBits t)))

/-- JMP (R90): A[63:15] must be 0. -/
def execJmp (core : Nat) (s : State) : Res :=
  .next (issue s core 0x22 (fun s _ w =>
    let a := (opA (getCore s core) w).toNat
    if a < 32768 then goto s core a else trapHere s core Status.salfelAddress a))

/-- LOOP (R90). -/
def execLoop (core : Nat) (s : State) : Res :=
  .next (issue s core 0x23 (fun s _ w =>
    let x := getCore s core
    let t := target x w
    let v := gReg x (iDst w) - 1
    if loopTaken x w = false then putDst s core w v
    else if targetOk t then goto (modCore s core (fun x => putG x (iDst w) v)) core t.toNat
    else trapHere s core Status.salfelAddress (targetBits t)))

/-- HALT (R90, R107). -/
def execHalt (core : Nat) (s : State) : Res :=
  .next (issue s core 0x24 (fun s _ _ =>
    settleCore (modRun s core (fun r => { r with halted := true, holding := false, g1 := gReg (getCore s core) 1 })) core))

/-- TRAP (R90, R108). -/
def execTrap (core : Nat) (s : State) : Res :=
  .next (issue s core 0x25 (fun s _ w => trap s core Status.salfelTrap (getCore s core).pc (iImm w % 2 ^ 16) 0 false))

/-! ## Scratchpad accesses (R91, R190 to R200) -/

/-- The address check of an access, 0 when it passes: range, then alignment. -/
def addrStatus (a align : Nat) : Nat :=
  firstFail [(decide (a < spSize), Status.salfelAddress), (a % align = 0, Status.salfelAlign)]

/-- The address and alignment checks of an access; then `f`. -/
def addressed (s : State) (l a align : Nat) (f : State → State) : State :=
  if addrStatus a align ≠ 0 then trapHere s l (addrStatus a align) a else f s

/-- An access of master 0 to `n` bytes at `a`, under its latched regions; then `f`. -/
def permitted (s : State) (l : Nat) (r : Run) (a n : Nat) (k : Kind) (f : State → State) : State :=
  let pc := (getCore s l).pc
  let q := checkRegion s l 0 k [(a, n)] (runTrapWord r pc)
  if q.2 then f q.1 else trap q.1 l Status.scratchRegion pc 0 a true

/-- An access of master 0 to the word at `a`: address, alignment, region; then `f`. -/
def access (s : State) (l : Nat) (r : Run) (a : Nat) (k : Kind) (f : State → State) : State :=
  addressed s l a 8 (fun s => permitted s l r a 8 k f)

/-- Read the words of [a, a + n) for the sequencer; a lasting word traps. -/
def seqRead (s : State) (l : Nat) (r : Run) (f : Finds) (a n : Nat) (k : State → State) : State :=
  let pc := (getCore s l).pc
  let y := readWords f l 0 { s := s, tw := runTrapWord r pc } (wordsOf a n)
  if y.bad = [] then k y.s else trap y.s l Status.scratchUncorrectable pc 0 a true

/-- The 8-byte word at a scratchpad address. -/
def spWord (s : State) (l a : Nat) : Word64 := BitVec.ofNat 64 (leNat (spB s l a 8))

/-- LD (R90). -/
def execLd (core : Nat) (f : Finds) (s : State) : Res :=
  .next (issue s core 0x30 (fun s r w =>
    let a := addrA (getCore s core) w (iSimm w)
    access s core r a .rd (fun s => seqRead s core r f a 8 (fun s => putDst s core w (spWord s core a)))))

/-- ST (R90). -/
def execSt (core : Nat) (s : State) : Res :=
  .next (issue s core 0x31 (fun s r w =>
    let x := getCore s core
    let a := addrA x w (iSimm w)
    access s core r a .wr (fun s => next (putSp s core 0 a (toLE 8 (gReg x (iDst w)).toNat)) core)))

/-- An atomic on a scratchpad word: `f` gives the new word and whether the sum saturated. -/
def atomicOp (l op : Nat) (fi : Finds) (f : Word64 → Word64 → Word64 × Bool) (s : State) : Res :=
  .next (issue s l op (fun s r w =>
    let x := getCore s l
    let a := addrA x w (iSimm w)
    let b := gReg x (iSrcB w)
    access s l r a .atom (fun s => seqRead s l r fi a 8 (fun s =>
      let old := spWord s l a
      let q := f old b
      let s := putSp s l 0 a (toLE 8 q.1.toNat)
      let s := if q.2 then
          raiseEv (bumpCore s l 20 1) Status.scratchAtomicSaturated 1 (coreSubject s l 0) a b.toNat 0
        else s
      putDst s l w old))))

/-- AADD (R90, R190). -/
def execAadd (core : Nat) (f : Finds) (s : State) : Res := atomicOp core 0x32 f (fun o b => (o + b, false)) s

/-- AADDS (R90, R190, R192). -/
def execAadds (core : Nat) (f : Finds) (s : State) : Res := atomicOp core 0x33 f addSat s

/-- ASWAP (R90, R190). -/
def execAswap (core : Nat) (f : Finds) (s : State) : Res := atomicOp core 0x34 f (fun _ b => (b, false)) s

/-! ## Dispatch to engines (R90, R91, R93) -/

/-- Dispatch the descriptor at `a` to an engine, once its address passes. -/
def dispatchAt (f : Finds) (s : State) (l e : Nat) (r : Run) (a : Nat) : State :=
  addressed s l a 64 (fun s => dispatch f s l e r a)

/-- ARR (R90): array IMM[0], offset simm with bit 0 cleared. -/
def execArr (core : Nat) (f : Finds) (s : State) : Res :=
  .next (issue s core 0x40 (fun s r w => dispatchAt f s core (iImm w % 2) r (addrA (getCore s core) w (iSimm w - iImm w % 2))))

/-- VEC (R90). -/
def execVec (core : Nat) (f : Finds) (s : State) : Res :=
  .next (issue s core 0x41 (fun s r w => dispatchAt f s core 2 r (addrA (getCore s core) w (iSimm w))))

/-- MOV (R90): mover IMM[1:0], offset simm with bits [1:0] cleared. -/
def execMov (core : Nat) (f : Finds) (s : State) : Res :=
  .next (issue s core 0x42 (fun s r w => dispatchAt f s core (iImm w % 4 + 3) r (addrA (getCore s core) w (iSimm w - iImm w % 4))))

/-- An engine has finished every descriptor dispatched to it. -/
def engineIdle (x : Core) (e : Nat) : Bool := (getEngine x e).queue = [] && (getEngine x e).jobs = []

/-- QWAIT (R90, R95). -/
def execQwait (core : Nat) (s : State) : Res :=
  .next (issue s core 0x43 (fun s _ w =>
    if (bitsOf 7 (iImm w)).all (engineIdle (getCore s core)) then next s core else hold s core))

/-! ## Runners (R90, R98, R209, R211) -/

/-- A runner instruction finds the runner disabled or a pointer mismatch, and traps; else it goes on. -/
def withRunner (s : State) (l : Nat) (r : Run) (n : Nat) (mism : Bool) (f : State → State) : State :=
  let pc := (getCore s l).pc
  if (getRunner s l n).enabled = false then trapHere s l Status.runnerDisabled n
  else if mism then trap (pointerFault s l n (runTrapWord r pc)) l Status.runnerPointerFault pc 0 n true
  else f s

/-- PUSH (R90, R91, R98): the entry at A is read under master 0's regions. -/
def execPush (core : Nat) (ptrMismatch : Bool) (f : Finds) (s : State) : Res :=
  .next (issue s core 0x50 (fun s r w =>
    let a := (opA (getCore s core) w).toNat
    let n := iImm w % 32
    addressed s core a 64 (fun s => withRunner s core r n ptrMismatch (fun s =>
      if (getRunner s core n).canPush = false then hold s core
      else permitted s core r a 64 .rd (fun s =>
        seqRead s core r f a 64 (fun s => next (pushEntry s core n (spB s core a 64)) core))))))

/-- A pop into the 64 bytes at A; `wait` holds on an empty runner. -/
def popOp (l op : Nat) (wait mism : Bool) (f : Finds) (s : State) : Res :=
  .next (issue s l op (fun s r w =>
    let a := (opA (getCore s l) w).toNat
    let n := iImm w % 32
    addressed s l a 64 (fun s => withRunner s l r n mism (fun s =>
      if (getRunner s l n).popEmpty then (if wait then hold s l else putDst s l w 0)
      else permitted s l r a 64 .wr (fun s =>
        let pc := (getCore s l).pc
        let q := headEntry f s l n (runTrapWord r pc)
        if q.2.bad ≠ [] then trap q.2.s l Status.scratchUncorrectable pc 0 a true
        else putDst (putSp (dropEntry q.2.s l n) l 0 a q.1) l w 1)))))

/-- POP (R90, R98). -/
def execPop (core : Nat) (ptrMismatch : Bool) (f : Finds) (s : State) : Res := popOp core 0x51 false ptrMismatch f s

/-- POPW (R90, R98). -/
def execPopw (core : Nat) (ptrMismatch : Bool) (f : Finds) (s : State) : Res := popOp core 0x52 true ptrMismatch f s

/-! ## Risers (R90, R91, R212 to R218) -/

/-- A riser instruction: the index check, then `f` with the riser's index. -/
def withRiser (s : State) (l w : Nat) (f : State → Nat → State) : State :=
  let i := (opA (getCore s l) w + BitVec.ofNat 64 (iImm w % 4096)).toNat
  if i < 4096 then f s i else trapHere s l Status.salfelAddress i

/-- A riser instruction that traps on a faulted riser (R218). -/
def liveRiser (s : State) (l w : Nat) (f : State → Nat → State) : State :=
  withRiser s l w (fun s i =>
    if (getRiser s l i).fault ≠ 0 then trapHere s l (riserStatus (getRiser s l i).fault) i else f s i)

/-- SIG (R90, R215). -/
def execSig (core : Nat) (s : State) : Res :=
  .next (issue s core 0x58 (fun s _ w => withRiser s core w (fun s i =>
    let c := fld (iImm w) 31 16
    let m := fld (iImm w) 12 12
    if c = 0 then trapHere s core Status.salfelIllegal i
    else liveRiser s core w (fun s i => signal (next s core) core i c m 0 (signalWord i c m 0) (coreSubject s core 0)))))

/-- WAITC (R90, R216): the wait joins the riser's queue; its grant completes the instruction. -/
def execWaitc (core : Nat) (s : State) : Res :=
  .next (issue s core 0x59 (fun s _ w => liveRiser s core w (fun s i =>
    let s := modRun s core (fun r => { r with holding := true, waiting := true })
    settle (setRiser s core i { getRiser s core i with queue := (getRiser s core i).queue ++ [4] }) core i)))

/-- WAITO (R90, R216). -/
def execWaito (core : Nat) (s : State) : Res :=
  .next (issue s core 0x5A (fun s _ w => liveRiser s core w (fun s i =>
    let s := modRun s core (fun r => { r with holding := true, waiting := true })
    settle (setRiser s core i { getRiser s core i with watch := some (fld (iImm w) 31 16) }) core i)))

/-- RSET (R90, R212). -/
def execRset (core : Nat) (s : State) : Res :=
  .next (issue s core 0x5B (fun s _ w => withRiser s core w (fun s i =>
    settle (setRiser (next s core) core i
      { getRiser s core i with cur := fld (iImm w) 31 16, nxt := 0, round := 0, fault := 0 }) core i)))

/-- RREAD (R90, R212). -/
def execRread (core : Nat) (s : State) : Res :=
  .next (issue s core 0x5C (fun s _ w => withRiser s core w (fun s i =>
    let r := getRiser s core i
    putDst s core w (BitVec.ofNat 64 (r.cur + r.nxt + r.cur * 2 ^ 32 + r.nxt * 2 ^ 48)))))

/-! ## Time and identity -/

/-- The core's copy of module time: at most 64 ns behind the hub, never going back (R45); its lag is open (log 7). -/
def coreTime (s : State) (l : Nat) : Nat := max (getCore s l).timeCopy (s.time - (Config.freeWord s.free).toNat % 65)

/-- TIME (R45, R90). -/
def execTime (core : Nat) (s : State) : Res :=
  .next (issue s core 0x60 (fun s _ w =>
    let t := coreTime s core
    putDst (bumpFree (modCore s core (fun x => { x with timeCopy := t }))) core w (BitVec.ofNat 64 t)))

/-- The identity word (R100). -/
def whoamiWord (s : State) (l : Nat) (logical : Nat) : Nat :=
  l % 128 + dieOf l * 2 ^ 7 + logical % 256 * 2 ^ 8 + (if isL8 s then 1 else 2) * 2 ^ 16 + ownCoord s * 2 ^ 32

/-- WHOAMI (R90, R100): the count of logical cores is that of the launch's start. -/
def execWhoami (core : Nat) (s : State) : Res :=
  .next (issue s core 0x61 (fun s r w => putDst s core w (BitVec.ofNat 64 (whoamiWord s core r.cores))))

/-! ## Debug stepping (R430) -/

/-- The rows of the Salfel instructions, by operation; `mism` and `f` are what an instruction meets. -/
def salfelRow (op l : Nat) (mism : Bool) (f : Finds) (s : State) : Res :=
  match op with
  | 0x01 => execAdd l s | 0x02 => execSub l s | 0x03 => execMul l s | 0x04 => execMulhu l s
  | 0x05 => execAnd l s | 0x06 => execOr l s | 0x07 => execXor l s | 0x08 => execShl l s
  | 0x09 => execShr l s | 0x0A => execSar l s | 0x0B => execMin l s | 0x0C => execMax l s
  | 0x0D => execSethi l s | 0x10 => execCmpeq l s | 0x11 => execCmplt l s | 0x12 => execCmpltu l s
  | 0x13 => execPset l s | 0x20 => execBr l s | 0x21 => execCall l s | 0x22 => execJmp l s
  | 0x23 => execLoop l s | 0x24 => execHalt l s | 0x25 => execTrap l s | 0x30 => execLd l f s
  | 0x31 => execSt l s | 0x32 => execAadd l f s | 0x33 => execAadds l f s | 0x34 => execAswap l f s
  | 0x40 => execArr l f s | 0x41 => execVec l f s | 0x42 => execMov l f s | 0x43 => execQwait l s
  | 0x50 => execPush l mism f s | 0x51 => execPop l mism f s | 0x52 => execPopw l mism f s | 0x58 => execSig l s
  | 0x59 => execWaitc l s | 0x5A => execWaito l s | 0x5B => execRset l s | 0x5C => execRread l s
  | 0x60 => execTime l s | 0x61 => execWhoami l s | _ => execSalfelNop l s

/-- One instruction of a halted sequencer: it runs as if neither HALT nor the breakpoint held it, and the halt stays. -/
def stepCore (s : State) (l : Nat) (mism : Bool) (f : Finds) : State :=
  let t := modCore s l (fun x => { x with halt := false, bpSkip := true })
  match salfelRow (iOp (instrAt t l)) l mism f t with
  | .next u => modCore u l (fun x => { x with halt := true })
  | _ => s

/-- DBG_CORE_STEP (R430): with FABRIC open and HALT set, one instruction executes. -/
def execDbgCoreStep (core : Nat) (ptrMismatch : Bool) (f : Finds) (s : State) : Res :=
  .next (if fabricOpen s ∧ (getCore s core).halt = true then stepCore s core ptrMismatch f else s)

end Sys2Proof.Machine
end

