-- ==== Sys2Proof/Machine/Registers.lean ====
section
/-! DEFINITION. The device registers behind the register path (R234, R430): `ARITH_*`, `SPR_REGION`, the runner registers,
`RISER_STATE`, `DBG_CORE` and the store windows, with their reads and writes of whole registers. -/

namespace Sys2Proof.Machine

/-- A block of the register path. -/
inductive RegBlock where
  | arith
  | region (l : Nat)
  | runCfg (l n : Nat)      -- RUN_CFG and RUN_SPILL
  | runStat (l n : Nat)
  | runCtl (l n : Nat)
  | riser (l : Nat)
  | debug (l : Nat)         -- DBG_CORE
  | instr (l : Nat)
  | tables (l : Nat)
deriving DecidableEq, Repr

/-- The per-core block at `base` with pitch `size` and used length `lim` that holds an address: core and offset. -/
def coreBlock (a base size lim : Nat) : Option (Nat × Nat) :=
  if base ≤ a ∧ a < base + 88 * size ∧ (a - base) % size < lim then some ((a - base) / size, (a - base) % size) else none

/-- The runner register at offset `o` of a core's block of runners. -/
def runnerBlock (l o : Nat) : RegBlock :=
  if o % 32 < 16 then .runCfg l (o / 32) else if o % 32 < 24 then .runStat l (o / 32) else .runCtl l (o / 32)

/-- The block that holds a device address, with the address's offset in it. -/
def regBlock (a : Nat) : Option (RegBlock × Nat) :=
  if 0x50000010000 ≤ a ∧ a < 0x50000010018 then some (.arith, a - 0x50000010000)
  else match coreBlock a 0x50001000000 0x1000 1280, coreBlock a 0x50002000000 0x1000 1024, coreBlock a 0x50003000000 0x8000 0x8000 with
    | some (l, o), _, _ => some (.region l, o)
    | _, some (l, o), _ => some (runnerBlock l o, o % 32)
    | _, _, some (l, o) => some (.riser l, o)
    | _, _, _ =>
      match coreBlock a 0x50004000000 0x1000 8, coreBlock a 0x50005000000 0x40000 0x40000, coreBlock a 0x50008000000 0x40000 0x40000 with
      | some (l, o), _, _ => some (.debug l, o)
      | _, some (l, o), _ => some (.instr l, o)
      | _, _, some (l, o) => some (.tables l, o)
      | _, _, _ => none

/-- The block needs the FABRIC scope and an administrative context (R430). -/
def RegBlock.isDebug : RegBlock → Bool
  | .debug _ => true
  | .instr _ => true
  | .tables _ => true
  | _ => false

/-- The block is written by nothing (R234). -/
def RegBlock.readOnly : RegBlock → Bool
  | .arith => true
  | .runStat _ _ => true
  | .riser _ => true
  | _ => false

/-- A write of the block needs an administrative context (R196, R207, R430). -/
def RegBlock.adminWrite : RegBlock → Bool
  | .region _ => true
  | .runCfg _ _ => true
  | b => b.isDebug

/-! ## Register values -/

/-- `RUN_STAT` (R206). -/
def runStat (r : Runner) : Nat :=
  r.level % 2 ^ 25 + r.reason % 4 * 2 ^ 60 + b2n r.cfgErr * 2 ^ 62 + b2n r.ptrFault * 2 ^ 63

/-- `RISER_STATE` (R213). -/
def riserWord (r : Riser) : Nat :=
  r.cur % 2 ^ 16 * 2 ^ 16 + r.nxt % 2 ^ 16 * 2 ^ 32 + r.round % 4 * 2 ^ 48 + r.fault % 4 * 2 ^ 50

/-- The sequencer is holding by HALT or its breakpoint. -/
def isHalted (s : State) (l : Nat) : Bool :=
  let x := getCore s l
  (seqReady s l).isSome && (x.halt || x.haltedAt)

/-- `DBG_CORE` (R430). -/
def debugWord (s : State) (l : Nat) : Nat :=
  let x := getCore s l
  x.bpPc % 2 ^ 15 + x.pc % 2 ^ 15 * 2 ^ 32 + b2n x.bpEn * 2 ^ 60 + b2n (isHalted s l) * 2 ^ 61 + b2n x.halt * 2 ^ 63

/-- The 8-byte register at offset `o` of a block. `RUN_CFG` and `RUN_SPILL` read the last value written (log 12). -/
def regRead (s : State) (b : RegBlock) (o : Nat) : Nat :=
  match b with
  | .arith => if o = 0 then s.seed.toNat else if o = 8 then s.astep.toNat else s.thr
  | .region l => regionOf (getCore s l).region (o / 8)
  | .runCfg l n =>
    let r := getRunner s l n
    if o = 0 then (r.cfgNew.getD r.cfg).toNat else (r.spillNew.getD r.spill).toNat
  | .runStat l n => runStat (getRunner s l n)
  | .runCtl _ _ => 0
  | .riser l => riserWord (getRiser s l (o / 8))
  | .debug l => debugWord s l
  | .instr l => (getInstr (getCore s l) (o / 8)).toNat
  | .tables l => leNat (readB (getCore s l).tables o 8)

/-- The writable bits of a region register (R195). -/
def regionMask (v : Word64) : Word64 := v &&& 0x800701FFFF01FFFF#64

/-- A write of `DBG_CORE` (R430): HALT and the breakpoint, then STEP. -/
def writeDebug (f : Finds) (s : State) (l v : Nat) : State :=
  let s := putBp (putHalt s l (bitOf v 63)) l (bitOf v 60) (fld v 14 0)
  if bitOf v 62 && bitOf v 63 then stepCore s l false f else s

/-- Write the 8-byte register at offset `o` of a block. -/
def regWrite (f : Finds) (s : State) (b : RegBlock) (o v : Nat) : State :=
  let w := BitVec.ofNat 64 v
  match b with
  | .region l => modCore s l (fun x => { x with region := tset (regionReset (o / 8)) x.region (o / 8) (regionMask w) })
  | .runCfg l n => if o = 0 then writeRunCfg s l n w else writeRunSpill s l n w
  | .runCtl l n => if bitOf v 0 then flushRunner s l n else s
  | .debug l => writeDebug f s l v
  | .instr l => modCore s l (fun x => putInstr x (o / 8) w)
  | .tables l => modCore s l (fun x => { x with tables := writeB x.tables o (toLE 8 v) })
  | .arith => s
  | .runStat _ _ => s
  | .riser _ => s

/-- The bytes of `n` registers from offset `o` of a block, read in increasing address order. -/
def regBytes (s : State) (b : RegBlock) (o n : Nat) : List Byte :=
  (List.range n).flatMap (fun i => toLE 8 (regRead s b (o + 8 * i)))

/-- Write registers whole, in increasing address order; `skip` names the bytes of lasting source units, whose registers are
not written. -/
def regPut (f : Finds) (s : State) (b : RegBlock) (o : Nat) (d : List Byte) (skip : Nat → Bool) : State :=
  (List.range (d.length / 8)).foldl (fun s i =>
    if skip (8 * i) then s else regWrite f s b (o + 8 * i) (w64 d (8 * i))) s

end Sys2Proof.Machine
end

