-- ==== Sys2Proof/Machine/Bursts.lean ====
section
/-! DEFINITION. Bursts of movers and memory charges (R228, R233): how a range is cut, what stops part of it (R81, R108), how
lasting units are left out (R231), and the gather (R237). -/

namespace Sys2Proof.Machine

/-! ## Cutting ranges -/

/-- Cut `n` bytes at every 4 KiB boundary of both ends: offsets and lengths, at most `fuel`. -/
def burstsFrom (src dst n : Nat) : Nat → Nat → List (Nat × Nat)
  | 0, _ => []
  | fuel + 1, o =>
    if n ≤ o then []
    else
      let k := min (n - o) (min (4096 - (src + o) % 4096) (4096 - (dst + o) % 4096))
      (o, k) :: burstsFrom src dst n fuel (o + k)

/-- The bursts of a row: source address, destination address, length. -/
def bursts (src dst n : Nat) : List (Nat × Nat × Nat) :=
  (burstsFrom src dst n (n / 2048 + 3) 0).map (fun b => (src + b.1, dst + b.1, b.2))

/-- The bursts of all rows of a descriptor. -/
def rowBursts (src ss dst ds rows len : Nat) : List (Nat × Nat × Nat) :=
  (List.range rows).flatMap (fun r => bursts (src + r * ss) (dst + r * ds) len)

/-- A stop ends the work at a burst boundary that timing selects: an open number of leading bursts is done (log 7). -/
def openPrefix {α : Type} (s : State) (l : List α) : List α := l.take ((Config.freeWord s.free).toNat % (l.length + 1))

/-- An abort leaves each burst of the destination old or new (R81; log 7). -/
def openSubset {α : Type} (s : State) (l : List α) : List α :=
  (l.zipIdx.filter (fun e => Config.freeBit (s.free + e.2))).map Prod.fst

/-! ## Reading and writing bursts -/

/-- The status of a failure on lasting units or words, by the first one met. -/
def badStatus (bad : List Nat) : Nat :=
  match bad with
  | b :: _ => if winBase0 ≤ b then Status.scratchUncorrectable else Status.memLasting
  | [] => 0

/-- The lowest address of a list. -/
def lowest : List Nat → Nat
  | [] => 0
  | a :: r => if r = [] then a else min a (lowest r)

/-- Copy bursts within device memory: every source unit is read once, every other burst completes beside a lasting unit. -/
def copyBursts (f : Finds) (master subj : Nat) (x : Acc) (bs : List (Nat × Nat × Nat)) : Acc :=
  let x := readAt f master subj x (bs.map (fun b => (b.1, b.2.2)))
  let s0 := x.s
  let bad := x.bad
  bs.foldl (fun x b => copyRow f master subj b.1 b.2.1 (bytesAt s0 b.1 b.2.2) bad x) x

/-- The bursts of a transfer with host memory of `n` bytes at host address `h`: cut every 4 KiB of host address (R235). -/
def hostCuts (h dev n : Nat) : List (Nat × Nat × Nat) :=
  (burstsFrom h h n (n / 4096 + 3) 0).map (fun b => (h + b.1, dev + b.1, b.2))

/-- The shots of a copy between the scratchpads of two cores, line by line of the destination (R229, R233): the writer of core `l`
takes each as master 8 and counts it, or refuses one that meets a lasting word by a partial write (R200); `true` says that one
was refused. Lines whose source bytes are lasting are not sent. -/
def copyShots (f : Finds) (master l : Nat) (x : Acc) (bs : List (Nat × Nat × Nat)) : Acc × Bool :=
  let x := readAt f master noSubject x (bs.map (fun b => (b.1, b.2.2)))
  let s0 := x.s
  let bad := x.bad
  (bs.flatMap (fun b => (pieces 64 (b.2.2 / 64 + 2) b.2.1 (bytesAt s0 b.1 b.2.2)).map (fun p => (b.1 + (p.1 - b.2.1), p)))).foldl
    (fun (y : Acc × Bool) q =>
      if touchesBad bad q.1 q.2.2.length then y
      else
        let z := writeAt f 8 noSubject { y.1 with skip := false } q.2.1 q.2.2
        if z.skip then ({ z with s := bumpCore (bumpCore z.s l 26 1) l 27 1 }, true) else ({ z with s := bumpCore z.s l 25 1 }, y.2))
    (x, false)

/-- Write given bytes to bursts: `data a n` is what the burst at source address `a` brings. -/
def putBursts (f : Finds) (master subj : Nat) (data : Nat → Nat → List Byte) (x : Acc) (bs : List (Nat × Nat × Nat)) : Acc :=
  bs.foldl (fun x b => writeAt f master subj x b.2.1 (data b.1 b.2.2)) x

/-- The pieces of bytes at `src` that hold no lasting unit or word, with their offsets. -/
def goodPieces (src : Nat) (d : List Byte) (bad : List Nat) : List (Nat × List Byte) :=
  if bad = [] then [(0, d)]
  else ((pieces 64 (d.length / 64 + 2) src d).filter (fun p => !touchesBad bad p.1 p.2.length)).map (fun p => (p.1 - src, p.2))

/-- Write bursts of device memory to host memory, in increasing address order (R235). -/
def hostBursts (f : Finds) (master subj : Nat) (p : HostPort) (x : Acc) (bs : List (Nat × Nat × Nat)) : Acc :=
  let x := readAt f master subj x (bs.map (fun b => (b.1, b.2.2)))
  let s0 := x.s
  { x with s := bs.foldl (fun s b => (goodPieces b.1 (bytesAt s0 b.1 b.2.2) x.bad).foldl
      (fun s q => hostPut s p (b.2.1 + q.1) q.2) s) s0 }

/-- The byte of a fill pattern at an address (R226). -/
def fillByte (pattern a : Nat) : Byte := BitVec.ofNat 8 (pattern >>> (8 * (a % 8)))

/-- Bytes of a fill from an address on. -/
def fillBytes (pattern a n : Nat) : List Byte := (List.range n).map (fun i => fillByte pattern (a + i))

/-- Fill bursts. -/
def fillBursts (f : Finds) (master subj pattern : Nat) (x : Acc) (bs : List (Nat × Nat × Nat)) : Acc :=
  bs.foldl (fun x b => writeAt f master subj x b.2.1 (fillBytes pattern b.2.1 b.2.2)) x

/-- The port reaches its host's memory for a context. -/
def hostReady (s : State) (c : Nat) : Bool :=
  ((getCtx s c).st = .opened || (getCtx s c).st = .faulted) && canMaster s (getCtx s c).owner

/-! ## The gather (R237) -/

/-- What a gather needs: table base, rows, row size, index list, destination and pitch. -/
structure GatherJob where
  table : Nat
  rows  : Nat
  size  : Nat
  index : Nat
  count : Nat
  dst   : Nat
  pitch : Nat

/-- A gather so far: the access, lasting positions, out-of-range indices. -/
structure GatherAcc where
  x    : Acc
  bad  : List Nat := []
  out  : Nat := 0

/-- Element `i` of a gather lands: zeros for an index beyond the table, nothing for a lasting row or index. -/
def gatherElem (f : Finds) (master subj : Nat) (g : GatherJob) (bad : List Nat) (y : GatherAcc) (i : Nat) : GatherAcc :=
  let ia := g.index + 4 * i
  let idx := leNat (bytesAt y.x.s ia 4)
  let a := g.table + idx * g.size
  if touchesBad bad ia 4 then { y with bad := y.bad ++ [i] }
  else if idx < g.rows ∧ touchesBad bad a g.size = true then { y with bad := y.bad ++ [i] }
  else
    let d := if idx < g.rows then bytesAt y.x.s a g.size else List.replicate g.size 0
    let n := y.x.bad.length
    let x := writeAt f master subj y.x (g.dst + i * g.pitch) d
    { x := x, bad := if x.bad.length = n then y.bad else y.bad ++ [i], out := y.out + (if idx < g.rows then 0 else 1) }

/-- The key by which a window's reads are sorted: stack, pseudo-channel, bank, row, then address (R237). -/
def readKey (s : State) (a : Nat) : List Nat :=
  let q := fastPlace s a
  [q.1, q.2.1, q.2.2.1, q.2.2.2.1, a]

/-- Lexicographic order of keys. -/
def keyLt : List Nat → List Nat → Bool
  | a :: r, b :: t => a < b || (a = b && keyLt r t)
  | _, _ => false

/-- Insert an address in the order of its key. -/
def insKey (s : State) (a : Nat) : List Nat → List Nat
  | [] => [a]
  | b :: r => if keyLt (readKey s a) (readKey s b) then a :: b :: r else b :: insKey s a r

/-- One window of indices: the list is read, then each row named in range once, in sorted order, then the elements land in order. -/
def gatherWindow (f : Finds) (master subj : Nat) (g : GatherJob) (y : GatherAcc) (w : Nat) : GatherAcc :=
  let is := (List.range (min 4096 (g.count - 4096 * w))).map (fun i => 4096 * w + i)
  let x := readAt f master subj y.x [(g.index + 4 * 4096 * w, 4 * is.length)]
  let idx := (is.map (fun i => leNat (bytesAt x.s (g.index + 4 * i) 4))).zip is
  let ok := idx.filter (fun e => e.1 < g.rows && !touchesBad x.bad (g.index + 4 * e.2) 4)
  let rows := ((ok.map (fun e => g.table + e.1 * g.size)).dedup).foldr (insKey x.s) []
  let x := readUnits f subj x (rows.flatMap (fun a => unitsOf a g.size))
  is.foldl (gatherElem f master subj g x.bad) { y with x := x }

/-- Windows of a gather until one holds a lasting element. -/
def gatherWindows (f : Finds) (master subj : Nat) (g : GatherJob) : List Nat → GatherAcc → GatherAcc
  | [], y => y
  | w :: r, y => if y.bad = [] then gatherWindows f master subj g r (gatherWindow f master subj g y w) else y

/-- An output element of a gather meets the range of `n` bytes at `b`. -/
def GatherJob.meets (g : GatherJob) (b n : Nat) : Bool :=
  let i := if b < g.dst + g.size then 0 else (b - g.dst - g.size) / g.pitch + 1
  i < g.count && g.dst + i * g.pitch < b + n

/-- The windows of a gather. -/
def windowsOf (g : GatherJob) : List Nat := List.range (cdiv g.count 4096)

end Sys2Proof.Machine
end

