-- ==== Sys2Proof/Machine/Journal.lean ====
section
/-! DEFINITION. Digests of collectives (R305, R319, R321) and what the step journal records of host reads and of transfers
across the module boundary (R400, R401). -/

namespace Sys2Proof.Machine

/-! ## Digests -/

/-- The group hash of the first five parameter words, `RELAY_ONLY` cleared (R305). -/
def groupHash (w : List Nat) : Word64 :=
  (w.take 5).foldl (fun h x => mix (h ^^^ BitVec.ofNat 64 x)) (mix grainK1)

/-- The digest of one slice of a result block (R319). -/
def collDigest (ghash : Word64) (seq j a b : Nat) (ws : List Nat) : Word64 :=
  let h := mix (ghash ^^^ grainK1)
  let h := mix (h ^^^ BitVec.ofNat 64 (seq * 2 ^ 32 ||| j * 2 ^ 24))
  let h := mix (h ^^^ BitVec.ofNat 64 (a * 2 ^ 14 ||| b))
  let h := ws.foldl (fun h w => h * grainM1 + BitVec.ofNat 64 w) h
  mix (h ^^^ BitVec.ofNat 64 ws.length)

/-- Bytes as 64-bit little-endian words, zero-padded. -/
def wordsLE (d : List Byte) : List Nat := (List.range (cdiv d.length 8)).map (fun i => w64 d (8 * i))

/-- A fold of digests from 0 (R321). -/
def foldDigests (ds : List Word64) : Word64 := ds.foldl (fun h d => mix (h ^^^ d)) 0

/-! ## The journal -/

/-- Change the open journal entry. -/
def modJournal (s : State) (f : JEntry → JEntry) : State :=
  match s.journal.entries with
  | j :: r => if j.opened then { s with journal := { s.journal with entries := f j :: r } } else s
  | [] => s

/-- A RUN of REPLAY is in progress. -/
def replaying (s : State) : Bool := s.journal.running.isSome

/-- Change what a context's charges leave in the journal: in the private context of a RUN, what the RUN has formed (R402); in the
step context, the open entry (R400). -/
def modFor (s : State) (c : Nat) (f : JEntry → JEntry) : State :=
  if c = replayCtx then { s with journal := { s.journal with shadow := s.journal.shadow.map f } }
  else if s.step.ctx = c then modJournal s f else s

/-- A HOST_READ has brought bytes. -/
def journalHost (s : State) (c cseq : Nat) (d : List Byte) : State :=
  modFor s c (fun j => { j with hostDigests := j.hostDigests ++ [(cseq, Config.journalDigest 0 d)] })

/-- Transfers of an entry that were sent to a peer. -/
def sentTo (j : JEntry) (peer : Nat) : Nat := (j.transfers.filter (fun t => !t.inbound && t.peer = peer)).length

/-- A transfer of this module to another leaves: while a step is in progress, whichever context sent it. -/
def journalSend (s : State) (c cseq peer peerCore own flow shots : Nat) (d : List (List Byte)) : State :=
  let f := fun (j : JEntry) => { j with transfers :=
    { cseq := cseq, inbound := false, peer := peer, peerCore := peerCore, own := own, flow := flow, shots := shots,
      digest := d.foldl Config.journalDigest 0, before := sentTo j peer } :: j.transfers }
  if c = replayCtx then modFor s c f else modJournal s f

/-- A flow at a core belongs to a group that the core runs. -/
def flowGroup (s : State) (own flow g : Nat) : Bool :=
  let w := (tget {} s.groups g).params
  w ≠ [] && bitOf (w.getD 0 0 + w.getD 1 0 * 2 ^ 64) own && fld (w.getD 5 0) 57 48 / 4 = flow / 4

/-- The capture selection names the transfer. -/
def captured (s : State) (own flow : Nat) : Bool :=
  s.journal.capGroups.any (flowGroup s own flow)
    || (s.journal.capSends && !(List.range 256).any (flowGroup s own flow))

/-- An inbound transfer from another module opens; with its `OPEN` shot when it is captured. -/
def journalOpen (s : State) (peer peerCore own : Nat) (sh : Shot) (shots : Nat) : State :=
  modJournal s (fun j =>
    let cap := captured s own sh.flow && !j.capStop
    { j with transfers :=
      { inbound := true, peer := peer, peerCore := peerCore, own := own, flow := sh.flow, shots := shots,
        before := sentTo j peer, capture := cap, data := if cap then [sh] else [] } :: j.transfers })

/-- Bytes that the journal may hold (R400). -/
def journalSpace : Nat := 12 * 2 ^ 30

/-- Captured bytes enter the open entry by `f` when they fit; when the space is used up, capture stops for the step with one
record (R400). -/
def takeRoom (s : State) (n : Nat) (f : JEntry → JEntry) : State :=
  match s.journal.entries with
  | j :: _ =>
    if !j.opened || j.capStop then s
    else if (s.journal.entries.map JEntry.captured).sum + n ≤ journalSpace then
      modJournal s (fun j => f { j with captured := j.captured + n })
    else raiseEv (modJournal s (fun j => { j with capStop := true })) Status.journalCapturePartial 0 noSubject 0 0 0
  | [] => s

/-- The latest transfer in on a flow of a core is captured. -/
def capturing (s : State) (p : JTransfer → Bool) : Bool :=
  match s.journal.entries with
  | j :: _ => j.opened && !j.capStop && (match j.transfers.find? p with
      | some t => t.capture
      | none => false)
  | [] => false

/-- A data shot of an inbound transfer lands: its digest, and the shot when the transfer is captured. -/
def journalShot (s : State) (own : Nat) (sh : Shot) : State :=
  let p := fun (t : JTransfer) => t.inbound && t.own = own && t.flow = sh.flow
  let up := fun (f : JTransfer → JTransfer) (j : JEntry) => { j with transfers := updFirst p f j.transfers }
  let s := modJournal s (up (fun t => { t with digest := Config.journalDigest t.digest sh.payload }))
  if capturing s p then takeRoom s sh.payload.length (up (fun t => { t with data := t.data ++ [sh] })) else s

/-- A collective of a captured group ends: what its messages and segments brought is kept for a replay, unless capture stopped
(R401; log 97). -/
def journalColl (s : State) (k : Coll) : State :=
  if s.step.ctx ≠ k.ctx || !s.journal.capGroups.contains k.group || k.ctx = replayCtx then s
  else modJournal s (fun j => if j.capStop then j else { j with colls := { cseq := k.cseq, coll := k } :: j.colls })

end Sys2Proof.Machine
end

