-- ==== Sys2Proof/Machine/MemCharges.lean ====
section
/-! DEFINITION. The memory charges COPY, FILL, HOST_READ, HOST_WRITE and GATHER (R233 to R237), the register path (R234,
R430) among them. -/

namespace Sys2Proof.Machine

/-! ## Checks (R227, R233) -/

/-- The core whose movers run the charge: that of the source window, or else of the destination window. -/
def runningCore (src dst : Option (Nat × Nat)) : Option Nat :=
  (src.bind (fun r => (inWindow r.1 r.2).map Prod.fst)).or (dst.bind (fun r => (inWindow r.1 r.2).map Prod.fst))

/-- The logical cores of the windows that the ends name. -/
def windowCores (rs : List (Nat × Nat)) : List Nat := rs.filterMap (fun r => (inWindow r.1 r.2).map Prod.fst)

/-- The checks of R227 and R233 on the device ends up to MOVE_OVERLAP, the fields and lengths already checked by `fields`
and `shape`. -/
def memCheck (s : State) (fields shape feature : Bool) (src dst : Option (Nat × Nat)) (copy : Bool) : Nat :=
  let all := src.toList ++ dst.toList
  firstFail
    [(fields, Status.fieldReserved), (feature, Status.featureAbsent), (shape, Status.moveDescInvalid),
     (all.all (endAllowed (fun _ => true)), Status.moveTargetInvalid),
     ((windowCores all).all (isBound s), Status.coreWithdrawn),
     (all.all (populated s), Status.addressUnpopulated),
     (!all.any (fun r => inHopper s r.1 r.2), Status.hopperRegionProtected),
     (!(copy && (match src, dst with
        | some a, some b => overlaps a.1 a.2 b.1 b.2
        | _, _ => false)), Status.moveOverlap)]

/-- The mover that takes burst `k` of a charge, as its master: timing selects it (log 13). -/
def chargeMover (s : State) (k : Nat) : Nat := 4 + (Config.freeWord (s.free + k)).toNat % 4

/-- The region checks of a charge's scratchpad ends, before any byte moves: the running mover's master reads, and writes its
own core's window; master 8 writes another core's window. -/
def chargeRegions (s : State) (bs : List (Nat × Nat × Nat)) (srcWin dstWin : Bool) (run : Nat) : State × Bool :=
  bs.zipIdx.foldl (fun (q : State × Bool) b =>
    if q.2 = false then q
    else
      let m := chargeMover s b.2
      let q := if srcWin then (match inWindow b.1.1 b.1.2.2 with
        | some (l, o) => checkRegion q.1 l m .rd [(o, b.1.2.2)] 0
        | none => q) else q
      if q.2 && dstWin then (match inWindow b.1.2.1 b.1.2.2 with
        | some (l, o) => checkRegion q.1 l (if l = run then m else 8) .wr [(o, b.1.2.2)] 0
        | none => q) else q) (s, true)

/-- A charge of the core fabric acts only while the fabric runs, and on a core's movers only while no fence has stopped
them. -/
def fabricCharge (s : State) (c cseq op : Nat) (f : Entry → State) : State :=
  if fabricRuns s then onCharge s c cseq op f else s

/-- The movers that run a charge on these ranges are not stopped by a fence, and no range lies on a die whose bridge is lost
(R29): the charge waits otherwise. -/
def moversRun (s : State) (rs : List (Nat × Nat)) : Bool :=
  (windowCores rs).all (fun l => !fenceFrozen s l) && rs.all (fun r => !behindLost s r.1 r.2)

/-- The end of a memory charge: what an abort left, a lasting unit, or success. -/
def endMemory (x : Acc) (c cseq : Nat) (aborted : Bool) : State :=
  if aborted then report x.s c cseq Status.chargeAborted 0
  else if x.bad = [] then report x.s c cseq 0 0
  else report x.s c cseq (badStatus x.bad) (if badStatus x.bad = Status.memLasting then lowest (x.bad.filter (· < winBase0)) else 0)

/-- The bursts that a charge moves: all, or what an abort leaves done, with the free values taken: of writes to the host, which
go out in order, a prefix (R235). -/
def chargeBursts (s : State) (e : Entry) (bs : List (Nat × Nat × Nat)) : State × List (Nat × Nat × Nat) :=
  if e.st = .abortPending then
    ({ s with free := s.free + bs.length + 1 }, if e.opcode = 0x111 then openPrefix s bs else openSubset s bs)
  else (s, bs)

/-- Region checks, then the work `f` of a charge on its bursts, with the master that records of what it reads name (log 13). -/
def runCharge (s : State) (c cseq : Nat) (e : Entry) (src dst : Option (Nat × Nat)) (bs : List (Nat × Nat × Nat))
    (f : State → Nat → List (Nat × Nat × Nat) → Acc) : State :=
  let run := (runningCore src dst).getD 88
  let q := chargeRegions s bs (windowCores src.toList != []) (windowCores dst.toList != []) run
  let t := { q.1 with free := s.free + bs.length + 1 }
  if q.2 = false then report t c cseq Status.scratchRegion 0
  else
    let b := chargeBursts t e bs
    endMemory (f b.1 (chargeMover s bs.length) b.2) c cseq (e.st = .abortPending)

/-! ## The register path (R234, R430) -/

/-- The register end of a COPY: the block that holds the whole range, with its offset. -/
def regEnd (a n : Nat) : Option (RegBlock × Nat) :=
  if a % 8 ≠ 0 ∨ n % 8 ≠ 0 ∨ n = 0 then none
  else match regBlock a, regBlock (a + n - 8) with
    | some (b, o), some (b', o') => if b = b' ∧ o' = o + (n - 8) then some (b, o) else none
    | _, _ => none

/-- The check of the register end: MOVE_TARGET_INVALID, SECURITY_STATE, CONTEXT_NOT_ADMIN, or 0. -/
def regEndCheck (s : State) (admin : Bool) (reg : Option (RegBlock × Nat)) (write memEnd : Bool) : Nat :=
  match reg with
  | none => Status.moveTargetInvalid
  | some (b, _) => firstFail [(memEnd && !(write && b.readOnly), Status.moveTargetInvalid),
      (!b.isDebug || fabricOpen s, Status.securityState), (admin || !(b.isDebug || (write && b.adminWrite)), Status.contextNotAdmin)]

/-- The range keeps out of the windows and of register space. -/
def memoryEnd (a n : Nat) : Bool := endAllowed (fun _ => false) (a, n)

/-- A COPY on the register path. -/
def registerCopy (s : State) (c cseq : Nat) (f : Finds) (src dst n : Nat) : State :=
  let write := overlaps dst n regBase0 0x10000000
  let mem := if write then src else dst
  let reg := regEnd (if write then dst else src) n
  let st := firstFail [(regEndCheck s (getCtx s c).admin reg write (memoryEnd mem n) = 0,
      regEndCheck s (getCtx s c).admin reg write (memoryEnd mem n)),
    (inMem s mem n, Status.addressUnpopulated), (!inHopper s mem n, Status.hopperRegionProtected)]
  if st ≠ 0 then report s c cseq st 0
  else match reg with
    | none => s
    | some (b, o) =>
      if write then
        let x := readUnits f noSubject { s := s } (unitsOf mem n)
        endMemory { x with s := regPut f x.s b o (memB s mem n) (fun i => touchesBad x.bad (mem + i) 8) } c cseq false
      else endMemory (writeDev f noSubject { s := s } mem (regBytes s b o (n / 8))) c cseq false

/-! ## The charges -/

/-- A copy between two cores' scratchpads travels as shots (R233): the core that takes them. -/
def shotTarget (src dst n : Nat) : Option Nat :=
  match inWindow src n, inWindow dst n with
  | some a, some b => if a.1 = b.1 then none else some b.1
  | _, _ => none

/-- The end of such a copy: a refused shot fails it with the status of its acknowledgement, the shots written stay written; else
it ends as any memory charge (R233; log 93). -/
def endShots (q : Acc × Bool) (c cseq : Nat) (aborted : Bool) : State :=
  if q.2 ∧ aborted = false ∧ q.1.bad = [] then report q.1.s c cseq Status.scratchUncorrectable 0 else endMemory q.1 c cseq aborted

/-- A copy between two cores' scratchpads: the region checks of both ends, then its shots to core `l`. -/
def copyByShots (s : State) (c cseq l : Nat) (e : Entry) (f : Finds) (src dst n : Nat) : State :=
  let bs := bursts src dst n
  let q := chargeRegions s bs true true ((runningCore (some (src, n)) (some (dst, n))).getD 88)
  let t := { q.1 with free := s.free + bs.length + 1 }
  if q.2 = false then report t c cseq Status.scratchRegion 0
  else
    let b := chargeBursts t e bs
    endShots (copyShots f (chargeMover s bs.length) l { s := b.1 } b.2) c cseq (e.st = .abortPending)

/-- COPY (R233, R234). -/
def execCopy (ctx cseq : Nat) (f : Finds) (s : State) : Res :=
  .next (fabricCharge s ctx cseq 0x100 (fun e =>
    let src := pw e 0
    let dst := pw e 8
    let n := pw e 0x10
    let fields := src < 2 ^ 44 && dst < 2 ^ 44 && n < 2 ^ 40 && tailZero e 0x18
    let ends := (some (src, n), some (dst, n))
    if fields && n ≠ 0 && (overlaps src n regBase0 0x10000000 || overlaps dst n regBase0 0x10000000) then
      registerCopy s ctx cseq f src dst n
    else
      let st := memCheck s fields (n ≠ 0) true ends.1 ends.2 true
      if st ≠ 0 then report s ctx cseq st 0
      else if !moversRun s [(src, n), (dst, n)] then s
      else match shotTarget src dst n with
        | some l => if (s.fence.active.any (fun a => a.2.core = l)) then s else copyByShots s ctx cseq l e f src dst n
        | none => runCharge s ctx cseq e ends.1 ends.2 (bursts src dst n) (fun s m bs => copyBursts f m noSubject { s := s } bs)))

/-- FILL (R233). -/
def execFill (ctx cseq : Nat) (f : Finds) (s : State) : Res :=
  .next (fabricCharge s ctx cseq 0x101 (fun e =>
    let dst := pw e 0
    let n := pw e 8
    let st := memCheck s (dst < 2 ^ 44 && n < 2 ^ 40 && tailZero e 0x18) (n ≠ 0) true none (some (dst, n)) false
    if st ≠ 0 then report s ctx cseq st 0
    else if !moversRun s [(dst, n)] then s
    else runCharge s ctx cseq e none (some (dst, n)) (bursts dst dst n)
      (fun s m bs => fillBursts f m noSubject (pw e 0x10) { s := s } bs)))

/-- HOST_READ (R71, R233, R235): `data` is what the host's memory holds at HOST_ADDR. -/
def execHostRead (ctx cseq : Nat) (data : List Byte) (f : Finds) (s : State) : Res :=
  .next (fabricCharge s ctx cseq 0x110 (fun e =>
    let host := pw e 0
    let dst := pw e 8
    let n := pw e 0x10
    let st := memCheck s (dst < 2 ^ 44 && n < 2 ^ 40 && tailZero e 0x18) (n ≠ 0) true none (some (dst, n)) false
    if st ≠ 0 then report s ctx cseq st 0
    else if !canMaster s e.port then report s ctx cseq Status.hostPortLost 0
    else if !moversRun s [(dst, n)] then s
    else runCharge s ctx cseq e none (some (dst, n)) (hostCuts host dst n)
      (fun s m bs => putBursts f m noSubject (fun a k => slice data (a - host) k) { s := journalHost s ctx cseq (slice data 0 n) } bs)))

/-- HOST_WRITE (R71, R233, R235). -/
def execHostWrite (ctx cseq : Nat) (f : Finds) (s : State) : Res :=
  .next (fabricCharge s ctx cseq 0x111 (fun e =>
    let host := pw e 0
    let src := pw e 8
    let n := pw e 0x10
    let st := memCheck s (src < 2 ^ 44 && n < 2 ^ 40 && tailZero e 0x18) (n ≠ 0) true (some (src, n)) none false
    if st ≠ 0 then report s ctx cseq st 0
    else if !canMaster s e.port then report s ctx cseq Status.hostPortLost 0
    else if !moversRun s [(src, n)] then s
    else runCharge s ctx cseq e (some (src, n)) none ((hostCuts host src n).map (fun b => (b.2.1, b.1, b.2.2)))
      (fun s m bs => hostBursts f m noSubject e.port { s := s } bs)))

/-- The quantities of a GATHER charge (R236). -/
def gatherOf (e : Entry) : GatherJob :=
  { table := pw e 0, rows := fld (pw e 0x18) 63 32, size := if bitOf (pw e 0x20) 32 then 64 else 32, index := pw e 8,
    count := fld (pw e 0x18) 31 0, dst := pw e 0x10, pitch := fld (pw e 0x20) 31 0 }

/-- Alignments and lengths of a gather (R236). -/
def gatherShape (g : GatherJob) : Bool :=
  g.table % g.size = 0 && g.index % 4 = 0 && g.dst % g.size = 0 && 1 ≤ g.count && 1 ≤ g.rows && g.pitch % 32 = 0
    && g.size ≤ g.pitch

/-- The output range of a gather, from `DST` to the last byte of the last element. -/
def gatherSpan (g : GatherJob) : Nat := (g.count - 1) * g.pitch + g.size

/-- Ends of a gather: the table in the fast tier, the index list in the fast or deep tier, the output elements in memory or in one
window (R225, R236). -/
def gatherEnds (s : State) (g : GatherJob) : Nat :=
  let out := (g.dst, gatherSpan g)
  let idx := (g.index, 4 * g.count)
  let win := (inWindow out.1 out.2).isSome
  let hop := s.ctxs.any (fun e => e.2.st ≠ .closed && g.meets e.2.hopBase (2 ^ e.2.hopLog2))
  firstFail [(inFast s g.table (g.rows * g.size) && memoryEnd idx.1 idx.2 && !g.meets regBase0 0x10000000
      && (win || !g.meets winBase0 (88 * winSize)), Status.moveTargetInvalid),
    ((windowCores [out]).all (isBound s), Status.coreWithdrawn),
    (inMem s idx.1 idx.2 && (win || !(g.meets (fastBytes s) (deepBase - fastBytes s) || g.meets (deepBase + deepBytes s)
      (2 ^ 64 * 2 ^ 64))), Status.addressUnpopulated),
    (!inHopper s g.table (g.rows * g.size) && !inHopper s idx.1 idx.2 && !hop, Status.hopperRegionProtected)]

/-- What a finished gather reports. -/
def gatherReport (y : GatherAcc) (c cseq : Nat) (aborted : Bool) : State :=
  if aborted then report y.x.s c cseq Status.chargeAborted 0
  else if y.bad ≠ [] then report y.x.s c cseq (badStatus y.x.bad) (lowest y.bad)
  else if y.out ≠ 0 then report y.x.s c cseq Status.gatherIndexRange y.out
  else report y.x.s c cseq 0 0

/-- GATHER (R5, R236, R237). -/
def execGather (ctx cseq : Nat) (f : Finds) (s : State) : Res :=
  .next (fabricCharge s ctx cseq 0x120 (fun e =>
    let g := gatherOf e
    let st := firstFail [(g.table < 2 ^ 44 && g.index < 2 ^ 44 && g.dst < 2 ^ 44 && fld (pw e 0x20) 63 33 = 0 && tailZero e 0x28,
        Status.fieldReserved), (isL8 s, Status.featureAbsent), (gatherShape g, Status.moveDescInvalid), (gatherEnds s g = 0, gatherEnds s g)]
    let q := match inWindow g.dst (gatherSpan g) with
      | some (l, o) => checkRegion s l 8 .wr [(o, gatherSpan g)] 0
      | none => (s, true)
    if st ≠ 0 then report s ctx cseq st 0
    else if !moversRun s [(g.table, g.rows * g.size), (g.index, 4 * g.count), (g.dst, gatherSpan g)] then s
    else if q.2 = false then report q.1 ctx cseq Status.scratchRegion 0
    else
      let stop := decide (e.st = .abortPending)
      let ws := if stop then openPrefix s (windowsOf g) else windowsOf g
      gatherReport (gatherWindows f 8 noSubject g ws { x := { s := if stop then bumpFree s else s } }) ctx cseq stop))

end Sys2Proof.Machine
end

