-- ==== Sys2Proof/Machine/Shots.lean ====
section
/-! DEFINITION. Shots: headers and opening records (R252 to R256), how a shot reaches a core of this module (R26), negative
acknowledgements and the return table (R259), and the inbound cell writer with its flow contexts (R257). -/

namespace Sys2Proof.Machine

/-! ## Headers -/

/-- The 8-byte header of a shot (R252). -/
def shotHeader (x : Shot) : Nat :=
  b2n x.mcast * 2 ^ 10 + b2n x.rcarry * 2 ^ 11 + b2n x.last * 2 ^ 12 + x.seq % 4096 * 2 ^ 13 + x.flow % 1024 * 2 ^ 25
    + x.typ % 16 * 2 ^ 35 + x.epoch % 4 * 2 ^ 39 + x.vl % 4 * 2 ^ 41 + x.core % 128 * 2 ^ 43 + x.dest % 2 ^ 14 * 2 ^ 50

/-- `WHERE` of a record about a flow (R450). -/
def flowWhere (flow seq : Nat) : Nat := flow % 1024 + seq % 4096 * 2 ^ 10

/-- The shot is of a control type (R253). -/
def isControl (x : Shot) : Bool := 8 ≤ x.typ

/-- The shot belongs to a transfer. -/
def isTransfer (x : Shot) : Bool := x.typ ≤ 4

/-- A shot of defined type (R253). -/
def typeDefined (x : Shot) : Bool := x.typ ≤ 4 || x.typ = 8 || x.typ = 9 || x.typ = 10

/-- The opening record of a payload (R255). -/
def openRecord (p : List Byte) : Flow :=
  let w := w64 p 0
  { st := 1, kind := fld w 63 60, atomSat := bitOf w 59, runner := fld w 56 52, srcCore := fld w 51 45, srcMover := fld w 44 43,
    srcCoord := fld w 36 23, dst := fld w 22 0, stride := fld (w64 p 8) 63 32, rowLen := fld (w64 p 8) 31 0,
    rowsM1 := fld (w64 p 0x10) 47 32, count := fld (w64 p 0x10) 31 0 }

/-- The payload of an `OPEN` shot. -/
def openPayload (x : Flow) : List Byte :=
  toLE 8 (x.dst % 2 ^ 23 + x.srcCoord % 2 ^ 14 * 2 ^ 23 + x.srcMover % 4 * 2 ^ 43 + x.srcCore % 128 * 2 ^ 45 + x.runner % 32 * 2 ^ 52
    + b2n x.atomSat * 2 ^ 59 + x.kind % 16 * 2 ^ 60)
    ++ toLE 8 (x.rowLen % 2 ^ 32 + x.stride % 2 ^ 32 * 2 ^ 32) ++ toLE 8 (x.count % 2 ^ 32 + x.rowsM1 % 2 ^ 16 * 2 ^ 32)
    ++ List.replicate 40 0

/-- Lines of one row (R256): line address, first byte and end of the byte range. -/
def rowLines (a n : Nat) : List (Nat × Nat × Nat) :=
  (List.range (if n = 0 then 0 else (a % 64 + n + 63) / 64)).map (fun i =>
    let line := a / 64 * 64 + 64 * i
    (line, max a line, min (a + n) (line + 64)))

/-- The lines of a transfer in order (R256). -/
def shotLines (dst stride rows len : Nat) : List (Nat × Nat × Nat) :=
  (List.range rows).flatMap (fun r => rowLines (dst + r * stride) len)

/-- Line `i` of a transfer: line address, first byte and end of the range (R256). -/
def lineOf (dst stride len : Nat) : Nat → Nat → Option (Nat × Nat × Nat)
  | 0, _ => none
  | rows + 1, i =>
    let ls := rowLines dst len
    if i < ls.length then ls[i]? else lineOf (dst + stride) stride len rows (i - ls.length)

/-- The data type of the shots of a kind (R255). -/
def dataType (kind : Nat) (sat : Bool) : Nat := if kind = 2 then 1 else if kind = 3 then (if sat then 3 else 2) else 4

/-! ## Delivery on this module (R26) -/

/-- Logical core `l` is being rebound: shots to it are held (R26, R383). -/
def rebinding (s : State) (l : Nat) : Bool := s.fence.active.any (fun e => e.2.core = l)

/-- A shot enters the hub from die port 10 or 11, which stamps its epoch (R286); one of the hub itself or of the Afiup (2) through
port 10. A transfer enters whole, so its data shots take the epoch of their OPEN. -/
def intoHub (s : State) (die : Nat) (x : Shot) : State :=
  modLPort s (10 + die % 2) (fun p => { p with inbuf := p.inbuf ++ [{ x with epoch := s.route.epoch }] })

/-- Shots to core `l` are held: it is being rebound, or a lost bridge keeps its die out of reach (R26, R29; log 95). -/
def coreHeld (s : State) (l : Nat) : Bool := rebinding s l || dieLost s (dieOf l)

/-- A shot to a core of this module: held, with the credit of its lane, or on its die's mesh. -/
def toCore (s : State) (port lane key : Nat) (x : Shot) : State :=
  if coreHeld s x.core then
    { s with route := { s.route with heldShots := s.route.heldShots ++ [{ shot := x, port := port, lane := lane, key := key }] } }
  else emit s (.local_ x)

/-- A negative acknowledgement (R259): it goes over the mesh when the source is a core of the sender's die, else through the
hub. `die` is where it is sent from, 2 for the hub. -/
def sendNack (s : State) (status flow seq mover byCore toCoord core die : Nat) : State :=
  let w := ownCoord s % 2 ^ 14 * 2 ^ 3 + byCore % 128 * 2 ^ 17 + mover % 4 * 2 ^ 24 + seq % 4096 * 2 ^ 26 + flow % 1024 * 2 ^ 38
    + status % 2 ^ 16 * 2 ^ 48
  let x : Shot := { dest := toCoord, core := core, vl := 0, epoch := 0, typ := 8, flow := flow, seq := 0, last := false,
                    rcarry := false, mcast := false, payload := toLE 8 w ++ List.replicate 56 0, tail := 0 }
  if toCoord = ownCoord s ∧ core < 88 ∧ dieOf core = die then (if isBound s core then toCore s 12 2 0 x else s) else intoHub s die x

/-- The sources of open transfers on a flow, by (core, flow) key, are the same. -/
def sameSource (s : State) (k : Nat) (src : Nat × Nat × Nat) (j : Nat) : Bool :=
  j % 1024 = k % 1024 && s.route.ret.any (fun e => e.1 = j && e.2 = src)

/-- The return table takes the source of an `OPEN` (R259); its transfer has not been acknowledged. -/
def noteOpen (s : State) (core : Nat) (x : Shot) : State :=
  if x.typ = 0 then
    let r := openRecord x.payload
    let k := 1024 * core + x.flow
    let src := (r.srcCoord, r.srcCore, r.srcMover)
    { s with route := { s.route with ret := (k, src) :: s.route.ret.filter (fun e => e.1 ≠ k)
                                     nacked := s.route.nacked.filter (fun j => j ≠ k && !sameSource s k src j) } }
  else s

/-- The hub drops a shot for a withdrawn or out-of-range core, with one negative acknowledgement per transfer, whichever of its
destinations dropped it first (R26, R259, R298). -/
def fencedDrop (s : State) (core : Nat) (x : Shot) : State :=
  let k := 1024 * core + x.flow
  match s.route.ret.find? (fun e => e.1 = k) with
  | some (_, src) =>
    if !isTransfer x || s.route.nacked.any (fun j => j = k || sameSource s k src j) then s
    else sendNack { s with route := { s.route with nacked := k :: s.route.nacked } } Status.shotFencedDrop x.flow x.seq src.2.2 127 src.1
      src.2.1 2
  | none => s

/-- An on-die mesh drops a shot: a transfer enters it whole, so its `OPEN` is the first one dropped, and the core that injected it
is acknowledged (R259). -/
def meshDrop (s : State) (core : Nat) (x : Shot) : State :=
  if x.typ = 0 then
    let r := openRecord x.payload
    sendNack s Status.shotFencedDrop x.flow 0 r.srcMover 127 r.srcCoord r.srcCore (dieOf core)
  else s

/-- No core of this module takes a shot for `core`. -/
def coreGone (s : State) (core : Nat) : Bool := 88 ≤ core || !isBound s core

/-- The hub delivers a shot of an input port and lane to logical core `core` (R26). -/
def deliver (s : State) (port lane key core : Nat) (x : Shot) : State :=
  if coreGone s core then fencedDrop s core x else toCore s port lane key { x with core := core }

/-- A core injects a shot: one for a core of its own die stays on the mesh (R26). -/
def inject (s : State) (l : Nat) (x : Shot) : State :=
  if x.mcast = false ∧ x.dest = ownCoord s ∧ x.core < 88 ∧ dieOf x.core = dieOf l then
    (if coreGone s x.core then meshDrop s x.core x else toCore s 12 0 0 x)
  else intoHub s (dieOf l) x

/-! ## Messages between Afiups (R323, R373, R393) -/

/-- The shots of a message: the opening CONTROL shot with its payload, then data shots of 64 bytes, `SEQ` 1, 2, …, zero-padded. The
flow is 0 (log 97). -/
def afiupShots (coord : Nat) (mirror : Bool) (head data : List Byte) : List Shot :=
  let n := cdiv data.length 64
  (List.range (n + 1)).map (fun i =>
    { dest := coord, core := 0, vl := 0, epoch := 0, typ := 9, flow := 0, seq := i % 4096, last := decide (i = n), rcarry := false
      mcast := false, payload := if i = 0 then slice head 0 64 else slice data (64 * (i - 1)) 64, tail := 0, mirror := mirror })

/-- The Afiup sends a message to the Afiup of another module. -/
def sendAfiup (s : State) (coord : Nat) (mirror : Bool) (head data : List Byte) : State :=
  (afiupShots coord mirror head data).foldl (fun s x => intoHub s 2 x) s

/-! ## The inbound cell writer (R257) -/

/-- The cell writer of a core takes a shot: the core is bound, its shots are not held, and its stages advance (R39). -/
def writerRuns (s : State) (l : Nat) : Bool :=
  isBound s l && !coreHeld s l && stagesAdvance s

def getFlow (s : State) (l n : Nat) : Flow := tget {} (getCore s l).flows n
def setFlow (s : State) (l n : Nat) (x : Flow) : State := modCore s l (fun c => { c with flows := tput c.flows n x })

/-- SUBJECT of a record about a shot at core `l` from a peer. -/
def shotSubject (s : State) (l : Nat) (x : Flow) : Nat := subjectWord l (siteOf s l) 0 8 63 15 x.srcCoord x.srcCore

/-- The writer refuses a shot with a negative acknowledgement to the source of `x`. -/
def nackTo (s : State) (l status flow seq : Nat) (x : Flow) : State :=
  sendNack (bumpCore s l 27 1) status flow seq x.srcMover l x.srcCoord x.srcCore (dieOf l)

/-- A refused data shot: the context becomes FAULTED. -/
def refuseShot (s : State) (l status : Nat) (sh : Shot) (x : Flow) : State :=
  nackTo (bumpCore (setFlow s l sh.flow { x with st := 2 }) l 26 1) l status sh.flow sh.seq x

/-- OPEN (R255, R257). -/
def execOpenFlow (core : Nat) (shot : Shot) (s : State) : Res :=
  let x := getFlow s core shot.flow
  let r := openRecord shot.payload
  .next (
    if shot.typ ≠ 0 ∨ writerRuns s core = false then s
    else if x.st = 1 ∧ (x.srcCoord ≠ r.srcCoord ∨ x.srcCore ≠ r.srcCore ∨ x.srcMover ≠ r.srcMover) then
      nackTo (bumpCore s core 26 1) core Status.flowBusy shot.flow shot.seq r
    else
      let s := if x.st = 1 then
          raiseEv s Status.flowAbandoned 1 (shotSubject s core r) (flowWhere shot.flow shot.seq) (shotHeader shot) 0
        else s
      let s := if r.srcCoord = ownCoord s then s else journalOpen s r.srcCoord r.srcCore core shot r.count
      setFlow s core shot.flow r)

/-- The shot is data shot `got + 1` of the open transfer, of its type and within its count (R257). -/
def shotFits (x : Flow) (sh : Shot) : Bool :=
  sh.seq = (x.got + 1) % 4096 && sh.typ = dataType x.kind x.atomSat && x.got < x.count && (!sh.last || x.got + 1 = x.count)

/-- A written shot advances the flow; the last one applies its signal and ends the transfer (R99, R229, R257). -/
def shotWritten (s : State) (l : Nat) (sh : Shot) (x : Flow) : State :=
  let s := bumpCore s l 25 1
  let s := if x.srcCoord = ownCoord s then s else journalShot s l sh
  let s := setFlow s l sh.flow (if sh.last then {} else { x with got := x.got + 1 })
  if sh.last && sh.rcarry && fld sh.tail 31 0 = x.got + 1 then applyWord s l (fld sh.tail 63 32) (shotSubject s l x) else s

/-- A data shot of type `typ` arrives: discarded outside an open transfer, a protocol fault when it does not fit, else
`f`. -/
def dataShot (s : State) (l : Nat) (sh : Shot) (typ : Nat) (f : State → Flow → State) : State :=
  let x := getFlow s l sh.flow
  if sh.typ ≠ typ ∨ writerRuns s l = false ∨ x.st ≠ 1 then s
  else if shotFits x sh then f s x
  else nackTo (bumpCore (setFlow s l sh.flow { x with st := 2 }) l 26 1) l Status.flowProtocol sh.flow sh.seq x

/-- The line of the next data shot, and the bytes of it that the shot carries. -/
def nextLine (x : Flow) : Nat × Nat × Nat := (lineOf x.dst x.stride x.rowLen (x.rowsM1 + 1) x.got).getD (0, 0, 0)

/-- The region check of an arriving shot (R198), as master 8; a range beyond the scratchpad is refused too. -/
def shotAllowed (s : State) (l : Nat) (k : Kind) (a n : Nat) : State × Bool :=
  let q := checkRegion s l 8 k [(a, n)] 0
  if spSize < a + n then (if q.2 then refuseRegion s l 8 (getCore s l).regionL k a 0 else q.1, false) else q

/-- WRITE (R99, R198, R256, R257). -/
def execWrite (core : Nat) (shot : Shot) (f : Finds) (s : State) : Res :=
  .next (dataShot s core shot 1 (fun s x =>
    let q := nextLine x
    let n := q.2.2 - q.2.1
    match shotAllowed s core .wr q.2.1 n with
    | (s, false) => refuseShot s core Status.scratchRegion shot x
    | (s, true) =>
      let y := writeSp f core 8 { s := s } q.2.1 (slice shot.payload (q.2.1 - q.1) n)
      if y.skip then refuseShot y.s core Status.scratchUncorrectable shot x else shotWritten y.s core shot x))

/-- Apply one addend to a word that read well (R191); a clamp raises its record (R192). -/
def addWord (f : Word64 → Word64 → Word64 × Bool) (l subj : Nat) (s : State) (a : Nat) (b : Word64) : State :=
  let q := f (BitVec.ofNat 64 (leNat (spB s l a 8))) b
  let s := modCore s l (fun c => putScratch c a (toLE 8 q.1.toNat))
  if q.2 then raiseEv (bumpCore s l 20 1) Status.scratchAtomicSaturated 1 subj a b.toNat 0 else s

/-- Eight atomic adds of a shot (R191): a word that reads lasting keeps its value, the others are applied (R200). -/
def atomicShot (core : Nat) (shot : Shot) (fnd : Finds) (typ : Nat) (f : Word64 → Word64 → Word64 × Bool) (s : State) : State :=
  dataShot s core shot typ (fun s x =>
    let a := (nextLine x).1
    match shotAllowed s core .atom a 64 with
    | (s, false) => refuseShot s core Status.scratchRegion shot x
    | (s, true) =>
      let y := readWords fnd core 8 { s := s } (wordsOf a 64)
      let s := (List.range 8).foldl (fun s e =>
        if y.bad.contains (winAddr core (a + 8 * e)) then s
        else addWord f core (shotSubject s core x) s (a + 8 * e) (BitVec.ofNat 64 (w64 shot.payload (8 * e)))) y.s
      if y.bad = [] then shotWritten s core shot x else refuseShot s core Status.scratchUncorrectable shot x)

/-- ATOMIC (R190, R191, R257). -/
def execAtomic (core : Nat) (shot : Shot) (f : Finds) (s : State) : Res :=
  .next (atomicShot core shot f 2 (fun o b => (o + b, false)) s)

/-- ATOMIC_SAT (R191, R192, R257). -/
def execAtomicSat (core : Nat) (shot : Shot) (f : Finds) (s : State) : Res := .next (atomicShot core shot f 3 addSat s)

/-- ENTRY (R203 to R205, R211, R257). -/
def execEntry (core : Nat) (shot : Shot) (ptrMismatch : Bool) (s : State) : Res :=
  .next (dataShot s core shot 4 (fun s x =>
    let r := getRunner s core x.runner
    if r.enabled = false ∨ cfgRemote r.cfg.toNat = false then refuseShot s core Status.runnerRemoteRefused shot x
    else if ptrMismatch then refuseShot (pointerFault s core x.runner 0) core Status.runnerRemoteRefused shot x
    else if r.canPush = false then refuseShot s core Status.runnerRemoteFull shot x
    else shotWritten (pushEntry s core x.runner (slice shot.payload 0 64)) core shot x))

end Sys2Proof.Machine
end

