-- ==== Sys2Proof/Machine/Movers.lean ====
section
/-! DEFINITION. The mover kinds (R225 to R231): each row does the work of a started descriptor; its completion signal
follows with COMPLETION_SIGNAL. -/

namespace Sys2Proof.Machine

/-- The stop has reached the core, or its launch has ended: its started movers end at a burst boundary (R108). -/
def moverStopped (s : State) (l : Nat) : Bool :=
  match (getCore s l).run with
  | some r => r.stopped
  | none => true

/-- The scratchpad master of a mover (R83). -/
def movMaster (m : Nat) : Nat := m + 4

/-- Bursts that a started descriptor still moves. -/
def moverBursts (s : State) (l : Nat) (bs : List (Nat × Nat × Nat)) : State × List (Nat × Nat × Nat) :=
  if moverStopped s l then (bumpFree s, openPrefix s bs) else (s, bs)

/-- Units of 64 bytes that bursts move (counter 17). -/
def countUnits (s : State) (l : Nat) (bs : List (Nat × Nat × Nat)) : State :=
  bumpCore s l 17 ((bs.map (fun b => (unitsOf b.2.1 b.2.2).length)).sum)

/-- The descriptor's work is over: it fails on what read lasting, or its completion signal follows (R231). -/
def moverEnd (x : Acc) (l m : Nat) : State :=
  if x.bad = [] then finishJob x.s l (m + 3)
  else engineTrap x.s l (m + 3) (badStatus x.bad) (x.bad.headD 0) (x.tw = 0)

/-- The row of a mover kind: `f` on a started descriptor of that kind. -/
def moverRow (s : State) (l m kind : Nat) (f : State → Job → List Byte → State) : State :=
  match jobAt s l (m + 3) 2 with
  | some j => if m < 4 ∧ mKind j.desc = kind then f s j j.desc else s
  | none => s

/-- MOVE_COPY (R225, R228, R231): `hostData` is what the host's memory holds from `SRC` on. -/
def execMoveCopy (core mover : Nat) (hostData : List Byte) (f : Finds) (s : State) : Res :=
  .next (moverRow s core mover 0 (fun s j d =>
    let p := (getCtx s j.ctx).owner
    let subj := coreSubject s core (movMaster mover)
    let q := moverBursts s core (rowBursts (mSrc d) (mSrcStride d) (mDst d) (mDstStride d) (mRows d) (mLen d))
    let s := countUnits q.1 core q.2
    let x : Acc := { s := s, tw := jobTrapWord j }
    if (mSrcHost d || mDstHost d) && !hostReady s j.ctx then
      engineTrap s core (mover + 3) Status.hostPortLost 0 false
    else if mSrcHost d then
      moverEnd (putBursts f (movMaster mover) subj (fun a n => slice hostData (a - mSrc d) n) x q.2) core mover
    else if mDstHost d then moverEnd (hostBursts f (movMaster mover) subj p x q.2) core mover
    else moverEnd (copyBursts f (movMaster mover) subj x q.2) core mover))

/-- MOVE_FILL (R225, R226, R228). -/
def execMoveFill (core mover : Nat) (f : Finds) (s : State) : Res :=
  .next (moverRow s core mover 1 (fun s j d =>
    let q := moverBursts s core (rowBursts (mDst d) (mDstStride d) (mDst d) (mDstStride d) (mRows d) (mLen d))
    moverEnd (fillBursts f (movMaster mover) (coreSubject s core (movMaster mover)) (mPattern d)
      { s := countUnits q.1 core q.2, tw := jobTrapWord j } q.2) core mover))

/-! ## Remote kinds (R229, R255) -/

/-- A data shot to be sent: where its bytes lie in the source, and where in the 64 bytes of its line they go. -/
structure Cut where
  src : Nat
  off : Nat
  len : Nat

/-- The data shots of a descriptor, in order (R256). -/
def cutsOf (d : List Byte) : List Cut :=
  if mKind d = 4 then
    (List.range (mRows d)).flatMap (fun r => (List.range (mLen d / 64)).map (fun k =>
      { src := mSrc d + r * mSrcStride d + 64 * k, off := 0, len := 64 }))
  else
    (List.range (mRows d)).flatMap (fun r =>
      let a := mDst d + r * mDstStride d
      (rowLines a (mLen d)).map (fun q => { src := mSrc d + r * mSrcStride d + (q.2.1 - a), off := q.2.1 - q.1, len := q.2.2 - q.2.1 }))

/-- The burst of the descriptor that holds a shot's last byte, as row and place in the row (R228): a runner kind's bursts end where
the source's do. -/
def cutBurst (d : List Byte) (c : Cut) : Nat × Nat :=
  let r := if mSrcStride d = 0 then 0 else (c.src - mSrc d) / mSrcStride d
  let a := mSrc d + r * mSrcStride d
  let bs := bursts a (if mKind d = 4 then a else mDst d + r * mDstStride d) (mLen d)
  (r, bs.findIdx (fun b => c.src + c.len ≤ b.1 + b.2.2))

/-- The numbers of shots after which a burst ends. -/
def burstStops (d : List Byte) (cs : List Cut) : List Nat :=
  0 :: ((List.range cs.length).filter (fun i => (cs[i]?).map (cutBurst d) ≠ (cs[i + 1]?).map (cutBurst d))).map (· + 1)

/-- The shots that a stopped transfer still sends: up to a burst boundary that timing selects (R108, R228; log 7). -/
def stopCuts (s : State) (d : List Byte) (cs : List Cut) : List Cut :=
  let bs := burstStops d cs
  cs.take (bs.getD ((Config.freeWord s.free).toNat % bs.length) 0)

/-- A shot of the descriptor to its destination. -/
def shotOf (j : Job) (typ seq : Nat) (last rcarry : Bool) (payload : List Byte) (tail : Nat) : Shot :=
  let d := j.desc
  { dest := if mMcast d then mTree d else mCoord d, core := if mMcast d then 0 else mCore d, vl := 0, epoch := 0, typ := typ,
    flow := mFlow d, seq := seq % 4096, last := last, rcarry := rcarry, mcast := mMcast d, payload := payload, tail := tail,
    replay := j.ctx = replayCtx }

/-- The payload of a data shot; bytes outside the line's range are ignored by the receiver and open (R256; log 7). -/
def cutPayload (s : State) (c : Cut) : List Byte :=
  let pad := fun (o n : Nat) => (List.range n).map (fun i => Config.freeByte (s.free + o + i))
  if c.len = 64 then bytesAt s c.src 64 else pad 0 c.off ++ bytesAt s c.src c.len ++ pad (c.off + c.len) (64 - c.off - c.len)

/-- Send data shot number `i` of `n`. -/
def sendCut (l : Nat) (j : Job) (n : Nat) (s : State) (i : Nat) (c : Cut) : State :=
  let d := j.desc
  let last := decide (i + 1 = n)
  let carry := last && mSigEn d
  let x := shotOf j (dataType (mKind d) (mSat d)) (i + 1) last carry (cutPayload s c) (if carry then mSignal d * 2 ^ 32 + n else 0)
  inject { s with free := s.free + 64 } l x

/-- Send data shots in order until one holds a lasting unit or word; units are read once, in order. -/
def sendCuts (f : Finds) (l m : Nat) (j : Job) (n : Nat) : Acc → Nat → List Cut → Acc
  | x, _, [] => x
  | x, i, c :: r =>
    let x := readAt f (movMaster m) (coreSubject x.s l (movMaster m)) x [(c.src, c.len)]
    if x.bad = [] then sendCuts f l m j n { x with s := sendCut l j n x.s i c } (i + 1) r else x

/-- The opening record of a descriptor's transfer. -/
def openOf (s : State) (l m : Nat) (d : List Byte) (n : Nat) : Flow :=
  { st := 1, kind := mKind d, atomSat := mSat d, runner := mRunner d, srcCore := l, srcMover := m, srcCoord := ownCoord s,
    dst := mDst d % 2 ^ 23, stride := mDstStride d, rowLen := mLen d, rowsM1 := mRows d - 1, count := n }

/-- A whole transfer: the OPEN shot, then the data shots; a stop ends it at a burst boundary. -/
def sendTransfer (s : State) (l m : Nat) (f : Finds) (j : Job) (d : List Byte) : State :=
  let cuts := cutsOf d
  let n := cuts.length
  let go := if moverStopped s l then stopCuts s d cuts else cuts
  let s := if moverStopped s l then bumpFree s else s
  let s := modCore s l (fun c => { c with sends := tput c.sends (1024 * m + mFlow d) (j.pc, j.ctx, j.cseq) })
  let s := if mMcast d || mCoord d ≠ ownCoord s then
      journalSend s j.ctx j.cseq (mCoord d) (mCore d) l (mFlow d) n (cuts.map (cutPayload s)) else s
  let s := bumpCore (inject s l (shotOf j 0 0 false false (openPayload (openOf s l m d n)) 0)) l 17 go.length
  moverEnd (sendCuts f l m j n { s := s, tw := jobTrapWord j } 0 go) l m

/-- MOVE_SEND (R225, R229, R231, R255). -/
def execMoveSend (core mover : Nat) (f : Finds) (s : State) : Res :=
  .next (moverRow s core mover 2 (fun s j d => sendTransfer s core mover f j d))

/-- MOVE_SEND_ATOMIC (R225, R229, R255). -/
def execMoveSendAtomic (core mover : Nat) (f : Finds) (s : State) : Res :=
  .next (moverRow s core mover 3 (fun s j d => sendTransfer s core mover f j d))

/-! ## Runner kinds (R211, R230) -/

/-- The source address of entry `k` of a descriptor. -/
def entrySrc (d : List Byte) (k : Nat) : Nat := mSrc d + k / (mLen d / 64) * mSrcStride d + 64 * (k % (mLen d / 64))

/-- The destination address of entry `k` of a descriptor. -/
def entryDst (d : List Byte) (k : Nat) : Nat := mDst d + k / (mLen d / 64) * mDstStride d + 64 * (k % (mLen d / 64))

/-- Entries that a runner kind moves. -/
def entryCount (d : List Byte) : Nat := mRows d * (mLen d / 64)

/-- One entry was moved by a mover. -/
def entryMoved (s : State) (l m : Nat) : State :=
  bumpCore (modJob s l (m + 3) (fun j => { j with sent := j.sent + 1 })) l 17 1

/-- Push entry `k` of the descriptor; one whose source unit is lasting is left out (R231). -/
def pushOne (f : Finds) (l m : Nat) (d : List Byte) (k : Nat) (x : Acc) : Acc :=
  let y := readAt f (movMaster m) (coreSubject x.s l (movMaster m)) { x with bad := [] } [(entrySrc d k, 64)]
  let s := if y.bad ≠ [] then y.s else pushEntry y.s l (mRunner d) (bytesAt y.s (entrySrc d k) 64)
  { y with s := entryMoved s l m, bad := x.bad ++ y.bad }

/-- Pop entry `k` of the descriptor to its destination; of one that holds a lasting word nothing is written (R200, R231). -/
def popOne (f : Finds) (l m : Nat) (d : List Byte) (k : Nat) (x : Acc) : Acc :=
  let q := headEntry f x.s l (mRunner d) x.tw
  let y := { q.2 with s := dropEntry q.2.s l (mRunner d) }
  let y := if q.2.bad ≠ [] then y else writeAt f (movMaster m) (coreSubject x.s l (movMaster m)) y (entryDst d k) q.1
  { y with s := entryMoved y.s l m, bad := x.bad ++ y.bad }

/-- Serve entries from entry `k` on while the runner `can`; `mism` is the number of entries after which its pointers disagree
(R205). The access, and whether a mismatch was met. -/
def serveEntries (can : Runner → Bool) (one : Nat → Acc → Acc) (l : Nat) (d : List Byte) : Nat → Nat → Option Nat → Acc → Acc × Bool
  | 0, _, _, x => (x, false)
  | fuel + 1, k, mism, x =>
    if entryCount d ≤ k then (x, false)
    else if mism = some 0 then (x, true)
    else if can (getRunner x.s l (mRunner d)) then serveEntries can one l d fuel (k + 1) (mism.map (· - 1)) (one k x)
    else (x, false)

/-- What follows a round of a runner kind: a pointer fault fails the descriptor at once (R211); a lasting unit or word fails it
when every other entry has moved (R231); the carried signal and the end when all have, or the launch has stopped; else the mover
holds (R230). -/
def runnerEnd (q : Acc × Bool) (l m : Nat) (d : List Byte) : State :=
  let s := if q.1.bad = [] then q.1.s else modJob q.1.s l (m + 3) (fun j =>
    { j with fail := j.fail.or (some (badStatus q.1.bad, q.1.bad.headD 0, decide (q.1.tw = 0))) })
  match (getEngine (getCore s l) (m + 3)).job with
  | some j =>
    if q.2 then
      engineTrap (pointerFault s l (mRunner d) (jobTrapWord j)) l (m + 3) Status.runnerPointerFault (mRunner d) true
    else if j.sent < entryCount d ∧ moverStopped s l = false then s
    else match j.fail with
      | some e => engineTrap s l (m + 3) e.1 e.2.1 e.2.2
      | none => finishJob (if entryCount d ≤ j.sent ∧ mSigEn d = true
          then applyWord s l (mSignal d) (coreSubject s l (movMaster m)) else s) l (m + 3)
  | none => s

/-- A local runner kind: a disabled runner fails it (R211); a stopped one ends; else entries are served. -/
def runnerRow (s : State) (l m : Nat) (j : Job) (d : List Byte) (mism : Option Nat) (can : Runner → Bool) (one : Nat → Acc → Acc) :
    State :=
  if moverStopped s l then finishJob s l (m + 3)
  else if (getRunner s l (mRunner d)).enabled = false then engineTrap s l (m + 3) Status.runnerDisabled (mRunner d) false
  else runnerEnd (serveEntries can one l d (entryCount d) j.sent mism
    { s := s, tw := if j.fail.isSome then 0 else jobTrapWord j }) l m d

/-- MOVE_RUNNER_PUSH (R211, R225, R229, R230); `ptrMismatch` names the entry of this step before which the pointers disagree. -/
def execMoveRunnerPush (core mover : Nat) (ptrMismatch : Option Nat) (f : Finds) (s : State) : Res :=
  .next (moverRow s core mover 4 (fun s j d =>
    if mLocalPush s core d then runnerRow s core mover j d ptrMismatch Runner.canPush (pushOne f core mover d)
    else sendTransfer s core mover f j d))

/-- MOVE_RUNNER_POP (R211, R225, R230). -/
def execMoveRunnerPop (core mover : Nat) (ptrMismatch : Option Nat) (f : Finds) (s : State) : Res :=
  .next (moverRow s core mover 5 (fun s j d =>
    runnerRow s core mover j d ptrMismatch (fun r => !r.popEmpty) (popOne f core mover d)))

/-- The quantities of a GATHER descriptor (R236). -/
def gatherDesc (d : List Byte) : GatherJob :=
  { table := mSrc d, rows := mTabRows d, size := mLen d, index := mIdxAddr d, count := mIdxCount d, dst := mDst d, pitch := mDstStride d }

/-- MOVE_GATHER (R225, R236, R237): an index beyond the table raises one record with the descriptor's completion. -/
def execMoveGather (core mover : Nat) (f : Finds) (s : State) : Res :=
  .next (moverRow s core mover 6 (fun s j d =>
    let g := gatherDesc d
    let ws := if moverStopped s core then openPrefix s (windowsOf g) else windowsOf g
    let s := if moverStopped s core then bumpFree s else s
    let subj := coreSubject s core (movMaster mover)
    let y := gatherWindows f (movMaster mover) subj g ws { x := { s := bumpCore s core 17 g.count, tw := jobTrapWord j } }
    if y.bad ≠ [] then engineTrap y.x.s core (mover + 3) (badStatus y.x.bad) (lowest y.bad) (y.x.tw = 0)
    else finishJob (if y.out = 0 then y.x.s else raiseEv y.x.s Status.gatherIndexRange 1 subj 0 0 0) core (mover + 3)))

end Sys2Proof.Machine
end

