-- ==== Sys2Proof/Machine/Launch.lean ====
section
/-! DEFINITION. The load charges and LAUNCH (R104 to R106, R483), the end of a launch on a core (R107, R108), and what the
start of a work-queue item does on its core (R85, R102, R104, R173, R197, R302). -/

namespace Sys2Proof.Machine

/-! ## Checks at dispatch (R106) -/

/-- The core mask names a core, and every core it names is bound. -/
def maskChecks (s : State) (e : Entry) : List (Bool × Nat) :=
  [(namedCores e != [], Status.coreMaskEmpty), ((namedCores e).all (isBound s), Status.coreWithdrawn)]

/-- The image range of a load charge: byte offset in its store, and its length. -/
def loadRange (e : Entry) (table : Bool) : Nat × Nat :=
  if table then (16384 * fld (pw4 e 0x1C) 3 0, pw4 e 0x18) else (8 * fld (pw4 e 0x1C) 14 0, pw4 e 0x18)

/-- The length and the place of an image. -/
def loadRangeOk (e : Entry) (table : Bool) : Bool :=
  let r := loadRange e table
  8 ≤ r.2 && r.2 % 8 = 0 && (if table then r.2 ≤ 16384 else r.1 + r.2 ≤ 262144)

/-- The status of a load charge at dispatch. -/
def loadStatus (s : State) (e : Entry) (table : Bool) : Nat :=
  firstFail (maskChecks s e ++
    [(loadRangeOk e table, Status.progLoadRange), (inMem s (pw e 0x10) (loadRange e table).2, Status.addressUnpopulated),
     (fld (pw e 8) 63 24 = 0 && pw e 0x10 % 8 = 0 && fld (pw4 e 0x1C) 31 (if table then 4 else 15) = 0 && tailZero e 0x20,
       Status.fieldReserved)])

/-- The argument bytes that a launch reads: 64 for each named core. -/
def argRanges (e : Entry) : List (Nat × Nat) := (namedCores e).map (fun l => (pw e 0x18 + 64 * l, 64))

/-- The launch reads its arguments from memory. -/
def perCore (e : Entry) : Bool := bitOf (pw4 e 0x14) 0

/-- The status of a launch at dispatch. -/
def launchStatus (s : State) (e : Entry) : Nat :=
  firstFail (maskChecks s e ++
    [(!perCore e || (argRanges e).all (fun r => inMem s r.1 r.2), Status.addressUnpopulated),
     (fld (pw e 8) 63 24 = 0 && fld (pw4 e 0x10) 31 15 = 0 && fld (pw4 e 0x14) 31 1 = 0
       && (!perCore e || pw e 0x18 % 64 = 0) && tailZero e 0x60, Status.fieldReserved)])

/-! ## The charges -/

/-- A charge that places items reads what it needs and places one on each named core; a lasting unit places none (R483). -/
def placeCharge (s : State) (c cseq : Nat) (e : Entry) (f : Finds) (rs : List (Nat × Nat)) (item : State → Nat → Item) : State :=
  let y := readUnits f noSubject { s := s } (rs.flatMap (fun r => unitsOf r.1 r.2))
  if y.bad ≠ [] then report y.s c cseq Status.memLasting (lowest y.bad)
  else placeItems y.s c cseq (namedCores e) (item y.s)

/-- A charge that places items acts once, after the earlier ones of its context (R67): aborted before that, it ends (R81);
failing a check, it changes no core (R106). -/
def itemCharge (s : State) (c cseq op : Nat) (status : Entry → Nat) (place : Entry → State) : State :=
  fabricCharge s c cseq op (fun e =>
    if e.phase ≠ 0 ∨ inTurn s c cseq = false then s
    else if e.st = .abortPending then report s c cseq Status.chargeAborted 0
    else if status e ≠ 0 then report s c cseq (status e) 0
    else place e)

/-- PROG_LOAD (R104 to R106, R483): every item carries the bytes read at dispatch. -/
def execProgLoad (ctx cseq : Nat) (f : Finds) (s : State) : Res :=
  .next (itemCharge s ctx cseq 0x200 (fun e => loadStatus s e false) (fun e =>
    let n := (loadRange e false).2
    placeCharge s ctx cseq e f [(pw e 0x10, n)] (fun t _ =>
      { kind := .progLoad, ctx := ctx, cseq := cseq, entry := (loadRange e false).1 / 8, data := memB t (pw e 0x10) n })))

/-- TABLE_LOAD (R104 to R106, R483). -/
def execTableLoad (ctx cseq : Nat) (f : Finds) (s : State) : Res :=
  .next (itemCharge s ctx cseq 0x201 (fun e => loadStatus s e true) (fun e =>
    let n := (loadRange e true).2
    placeCharge s ctx cseq e f [(pw e 0x10, n)] (fun t _ =>
      { kind := .tableLoad, ctx := ctx, cseq := cseq, entry := fld (pw4 e 0x1C) 3 0, data := memB t (pw e 0x10) n })))

/-- The arguments that core `l` receives. -/
def launchArgs (s : State) (e : Entry) (l : Nat) : List Word64 :=
  (List.range 8).map (fun i =>
    BitVec.ofNat 64 (if perCore e then leNat (memB s (pw e 0x18 + 64 * l + 8 * i) 8) else pw e (0x20 + 8 * i)))

/-- LAUNCH (R104 to R106, R483). -/
def execLaunch (ctx cseq : Nat) (f : Finds) (s : State) : Res :=
  .next (itemCharge s ctx cseq 0x210 (launchStatus s) (fun e =>
    placeCharge s ctx cseq e f (if perCore e then argRanges e else []) (fun t l =>
      { kind := .launch, ctx := ctx, cseq := cseq, entry := fld (pw4 e 0x10) 14 0, args := launchArgs t e l })))

/-! ## The start of an item -/

/-- Core `l` can take its next item: it runs none, and no rebinding is in progress on it (R104). -/
def itemReady (s : State) (l : Nat) : Option Item :=
  let x := getCore s l
  if fabricRuns s && isBound s l && !rebinding s l && !dieLost s (dieOf l) && x.run.isNone then x.queue.head? else none

/-- The item leaves the queue; the region registers are latched, held runner registers take effect, and a new vector
library reaches the microcode store (R104, R173, R197, R208). -/
def takeItem (s : State) (l : Nat) (i : Item) : State :=
  let r : Run := { item := i, cores := (boundCores s).length }
  let s := modCore s l (fun x =>
    fillQueue { x with queue := x.queue.tail, run := some r, regionL := x.region, ucode := s.sec.version.getD 5 0 })
  applyRunners s l

/-- An image is written to the instruction store; a library range that it touches becomes dirty (R302, R366). -/
def loadInstr (x : Core) (i : Item) : Core :=
  let n := i.data.length / 8
  let w := fun (k : Nat) => BitVec.ofNat 64 (w64 i.data (8 * k))
  let x := (List.range n).foldl (fun x k => putInstr x (i.entry + k) (w k)) x
  { x with imgInstr := (List.range n).foldl (fun t k => tset (instrDefault x (i.entry + k)) t (i.entry + k) (w k)) x.imgInstr
           dirtyColl := x.dirtyColl || decide (30720 < i.entry + n)
           dirtyUpd := x.dirtyUpd || (decide (28672 < i.entry + n) && decide (i.entry < 30720)) }

/-- A table is written to the function table store. -/
def loadTable (x : Core) (i : Item) : Core :=
  { x with tables := writeB x.tables (16384 * i.entry) i.data, imgTables := writeB x.imgTables (16384 * i.entry) i.data }

/-- A launch starts on a core (R85); `i.args` holds the arguments for g1 to g8. -/
def startLaunch (x : Core) (i : Item) : Core :=
  let y := { x with g := [], p := 0, pc := i.entry, bpSkip := false, haltedAt := false }
  i.args.zipIdx.foldl (fun y a => putG y (a.2 + 1) a.1) y

/-- A library range is loaded again from the firmware copy (R302, R366). -/
def reloadLib (s : State) (l : Nat) (coll : Bool) : State :=
  let lo := if coll then 30720 else 28672
  let keep := fun (t : Tab Word64) => t.filter (fun e => e.1 < lo || lo + 2048 ≤ e.1)
  modCore s l (fun x =>
    let y := { x with instr := keep x.instr, imgInstr := keep x.imgInstr }
    if coll then { y with dirtyColl := false, libs := (some (s.sec.version.getD 6 0), x.libs.2) }
    else { y with dirtyUpd := false, libs := (x.libs.1, some (s.sec.version.getD 7 0)) })

/-! ## The end of a launch on a core -/

/-- A stop can reach core `l`: it runs, or `CORE_RAIL_LOW` has halted it at an instruction boundary (R36, R39, R369). -/
def stopReaches (s : State) (l : Nat) : Bool := coreRuns { s with power := { s.power with railLow := false } } l

/-- LAUNCH_STOP (R108, R109): the core stops at its next instruction boundary; a waiting instruction ends without effect,
and descriptors that have not started are discarded. -/
def execLaunchStop (core : Nat) (s : State) : Res :=
  .next (match (getCore s core).run with
    | some r =>
      if r.stopping && stopReaches s core then
        if r.item.kind = .launch then
          let s := if r.stopped then s else modRun (leaveRisers s core) core (fun r =>
            { r with stopped := true, holding := false, waiting := false })
          settleCore (modRun (discardUnstarted s core) core (fun r => { r with stopping := false })) core
        else endItem s core
      else s
    | none => s)

end Sys2Proof.Machine
end

