-- ==== Sys2Proof/Machine/Messages.lean ====
section
/-! DEFINITION. The messages between Afiups of different modules: the opening payloads of mirror messages (R393) and of seal messages,
and the byte string of a seal record (R373). -/

namespace Sys2Proof.Machine

/-- `MKIND` of an opening payload. -/
def msgKind (head : List Byte) : Nat := fld (w64 head 0) 63 60

/-! ## Mirror messages (R393) -/

/-- The fields of a mirror message. -/
structure MirrorMsg where
  kind    : Nat
  full    : Bool := false
  noImage : Bool := false
  resend  : Bool := false
  addr    : Nat := 0
  step    : Nat := 0
  value   : Nat := 0
  serial  : Nat := 0

/-- Its opening payload. -/
def mirrorHead (m : MirrorMsg) : List Byte :=
  toLE 8 (m.addr % 2 ^ 44 + b2n m.resend * 2 ^ 57 + b2n m.noImage * 2 ^ 58 + b2n m.full * 2 ^ 59 + m.kind % 16 * 2 ^ 60)
    ++ toLE 8 m.step ++ toLE 8 m.value ++ toLE 8 m.serial ++ List.replicate 32 0

/-- The fields of an opening payload. -/
def readMirror (b : List Byte) : MirrorMsg :=
  { kind := msgKind b, full := bitOf (w64 b 0) 59, noImage := bitOf (w64 b 0) 58, resend := bitOf (w64 b 0) 57
    addr := fld (w64 b 0) 43 0, step := w64 b 8, value := w64 b 0x10, serial := w64 b 0x18 }

/-- A mirror message goes out; its shots wait in the port's mirror queue. -/
def sendMirror (s : State) (coord : Nat) (m : MirrorMsg) (data : List Byte) : State := sendAfiup s coord true (mirrorHead m) data

/-! ## Seal messages (R373) -/

/-- The fields of a seal message. -/
structure SealMsg where
  kind    : Nat
  axis    : Nat := 0
  ovf     : Bool := false
  group   : Nat
  opcode  : Nat := 0
  hops    : Nat := 0
  step    : Nat
  value   : Nat
  ghash   : Word64
  collSeq : Nat := 0
  origin  : Nat
  layers  : Nat := 0

/-- `DATA_SHOTS` of a seal record with `n` layers. -/
def recordShots (n : Nat) : Nat := cdiv (2080 + 24 * n) 64

/-- Its opening payload. -/
def sealHead (m : SealMsg) : List Byte :=
  toLE 8 (m.hops % 32 * 2 ^ 31 + m.opcode % 4096 * 2 ^ 36 + m.group % 256 * 2 ^ 48 + b2n m.ovf * 2 ^ 56 + m.axis % 8 * 2 ^ 57
      + m.kind % 16 * 2 ^ 60)
    ++ toLE 8 m.step ++ toLE 8 m.value ++ toLE 8 m.ghash.toNat
    ++ toLE 8 (m.collSeq % 2 ^ 32 + m.origin % 2 ^ 14 * 2 ^ 32 + m.layers % 2 ^ 11 * 2 ^ 48)
    ++ toLE 8 (if m.kind = 7 then recordShots m.layers else 0) ++ List.replicate 16 0

/-- The fields of an opening payload. -/
def readSeal (b : List Byte) : SealMsg :=
  let w := w64 b 0
  let v := w64 b 0x20
  { kind := msgKind b, axis := fld w 59 57, ovf := bitOf w 56, group := fld w 55 48, opcode := fld w 47 36, hops := fld w 35 31
    step := w64 b 8, value := w64 b 0x10, ghash := BitVec.ofNat 64 (w64 b 0x18), collSeq := fld v 31 0, origin := fld v 45 32
    layers := fld v 58 48 }

/-- The byte string of a seal record, zero-padded to whole shots. -/
def recordData (r : SealRec) : List Byte :=
  let d := toLE 32 r.mask ++ (List.range 256).flatMap (fun g => toLE 8 (tget 0 r.balance g).toNat)
    ++ r.layers.flatMap (fun x => toLE 4 x.1 ++ toLE 4 0 ++ toLE 8 x.2.1 ++ toLE 8 x.2.2)
  slice d 0 (64 * cdiv d.length 64)

/-- The record that a message carries. -/
def readRecord (m : SealMsg) (d : List Byte) : SealRec :=
  { members := m.value, mask := leNat (slice d 0 32)
    balance := (List.range 256).foldl (fun t g => tset 0 t g (BitVec.ofNat 64 (w64 d (32 + 8 * g)))) []
    ovf := m.ovf
    layers := (List.range m.layers).map (fun i => (wordAt d (2080 + 24 * i) 4, w64 d (2088 + 24 * i), w64 d (2096 + 24 * i))) }

end Sys2Proof.Machine
end

