-- ==== Sys2Proof/Machine/Mirror.lean ====
section
/-! DEFINITION. The mirror as its partner sees it (R391 to R393): the twin that the map names, pieces, and the deltas that the
Afiup sends. A delta's messages leave together; how long they take is timing. -/

namespace Sys2Proof.Machine

/-- The holder of this module's mirror: serial and coordinate; none while the map names no twin. -/
def twinOf (s : State) : Option (Nat × Nat) :=
  match s.map with
  | some m => if mapTwinSerial m = 0 then none else some (mapTwinSerial m, mapTwinCoord m)
  | none => none

/-- Bytes of a piece. -/
def pieceSize : Nat := 65536

/-- The addresses of the pieces that hold a byte of a range. -/
def piecesOf (a n : Nat) : List Nat :=
  if n = 0 then [] else (List.range ((a % pieceSize + n + pieceSize - 1) / pieceSize)).map (fun i => a / pieceSize * pieceSize + pieceSize * i)

/-- The digest of a piece (R393). -/
def pieceDigest (serial step addr : Nat) (d : List Byte) : Word64 :=
  collDigest (BitVec.ofNat 64 serial) (step % 2 ^ 32) 0 (addr / pieceSize) 0 (wordsLE d)

/-- Send one piece of fast-tier memory to the holder. -/
def sendPiece (step coord : Nat) (s : State) (a : Nat) : State :=
  let d := memB s a pieceSize
  sendMirror s coord { kind := 1, addr := a, step := step, value := (pieceDigest s.ident.serial step a d).toNat, serial := s.ident.serial } d

/-- Send the commit of a delta of `n` pieces. -/
def sendCommit (s : State) (coord step n : Nat) (full : Bool) : State :=
  sendMirror s coord { kind := 2, full := full, step := step, value := n, serial := s.ident.serial } []

/-- Send a delta: its pieces, then the commit (R394). -/
def sendDelta (s : State) (step : Nat) (full : Bool) (as : List Nat) : State :=
  match twinOf s with
  | none => s
  | some (_, c) =>
    let s := sendCommit (as.foldl (sendPiece step c) s) c step as.length full
    { s with twin := { s.twin with sending := some (step, full, as.length) } }

/-- Start a delta: at once, or after the acknowledgement of the one in progress (R394). -/
def startDelta (s : State) (step : Nat) (full : Bool) (as : List Nat) : State :=
  if (twinOf s).isNone then s
  else if s.twin.sending.isSome then { s with twin := { s.twin with queued := some (step, full, as) } }
  else sendDelta s step full as

/-- A full delta of the last sealed step (R392). -/
def fullDelta (s : State) : State :=
  match s.step.lastSealed with
  | some t => startDelta s t true s.twin.own
  | none => s

/-- The holder has acknowledged the delta of the last sealed step, or there is none to wait for (R370). -/
def twinReady (s : State) : Bool := (twinOf s).isNone || s.step.lastSealed.isNone || s.twin.acked = s.step.lastSealed

end Sys2Proof.Machine
end

