-- ==== Sys2Proof/Machine/Groups.lean ====
section
/-! DEFINITION. Groups: membership, ranks and the ring (R304 to R306), and the early end of a collective on this member
(R323, R324). -/

namespace Sys2Proof.Machine

/-! ## Groups (R304, R306) -/

def getGroup (s : State) (g : Nat) : Group := tget {} s.groups g

/-- A group is defined on this module. -/
def Group.defined (g : Group) : Bool := g.params ≠ []

/-- Word `i` of a group's parameters (R304). -/
def gw (w : List Nat) (i : Nat) : Nat := w.getD i 0

/-- The axes that a group selects, in order. -/
def groupAxes (w : List Nat) : List Nat := bitsOf 5 (fld (gw w 2) 12 8)

/-- The span of an axis: start, extent, stride. -/
def groupSpan (w : List Nat) (a : Nat) : Nat × Nat × Nat :=
  let x := if a = 4 then fld (gw w 4) 15 0 else fld (gw w 3) (16 * a + 15) (16 * a)
  (fld x 4 0, fld x 9 5 + 1, fld x 14 10 + 1)

/-- The 16 bits of a span. -/
def spanBits (w : List Nat) (a : Nat) : Nat := if a = 4 then fld (gw w 4) 15 0 else fld (gw w 3) (16 * a + 15) (16 * a)

/-- Members of a group. -/
def groupSize (w : List Nat) : Nat := ((groupAxes w).map (fun a => (groupSpan w a).2.1)).foldl (· * ·) 1

/-- Working area, first riser and first flow of a group. -/
def groupArea (w : List Nat) : Nat := fld (gw w 5) 22 0
def groupRiser (w : List Nat) : Nat := fld (gw w 5) 43 32
def groupFlow (w : List Nat) : Nat := fld (gw w 5) 57 48

/-- The index of a coordinate on a span. -/
def spanIndex (w : List Nat) (a c : Nat) : Option Nat :=
  let q := groupSpan w a
  (List.range q.2.1).find? (fun i => q.1 + i * q.2.2 = c)

/-- The rank of a packed coordinate, for the axes that are left, with the product of the extents before them. -/
def rankFrom (w : List Nat) (c : Nat) : List Nat → Nat → Option Nat
  | [], _ => some 0
  | a :: r, m =>
    match spanIndex w a (coordOn c a), rankFrom w c r (m * (groupSpan w a).2.1) with
    | some i, some t => some (i * m + t)
    | _, _ => none

/-- The rank of a coordinate in a group (R306), if it is a member. -/
def rankOf (w : List Nat) (c : Nat) : Option Nat := rankFrom w c (groupAxes w) 1

/-- This module's rank. -/
def myRank (s : State) (w : List Nat) : Nat := (rankOf w (ownCoord s)).getD 0

/-- The coordinate of a rank: this module's on unselected axes. -/
def coordOfRank (s : State) (w : List Nat) (r : Nat) : Nat :=
  ((groupAxes w).foldl (fun (q : Nat × Nat) a =>
    let p := groupSpan w a
    (setCoord q.1 a (p.1 + q.2 % p.2.1 * p.2.2), q.2 / p.2.1)) (ownCoord s, r)).1

/-- The cores that a group's mask names. -/
def groupCores (w : List Nat) : List Nat := bitsOf 64 (gw w 0) ++ (bitsOf 24 (gw w 1)).map (· + 64)

/-- Ring successor and predecessor of a rank. -/
def ringNext (w : List Nat) (r : Nat) : Nat := (r + 1) % groupSize w
def ringPrev (w : List Nat) (r : Nat) : Nat := (r + groupSize w - 1) % groupSize w

/-- The port by which a shot to a coordinate leaves this module, by the current table (R283, R284). -/
def firstPort (s : State) (c : Nat) : Option Nat :=
  ((List.range 5).find? (fun a => coordOn c a ≠ coordOn (ownCoord s) a)).map (fun a =>
    2 * a + ((s.route.cur.dirs.getD a []).getD (coordOn c a) 2) % 2)

/-! ## Parameters of a collective (R308) -/

def cGroup (e : Entry) : Nat := fld (pw e 0) 7 0
def cIn (e : Entry) : Nat := fld (pw e 0) 11 8
def cOut (e : Entry) : Nat := fld (pw e 0) 15 12
def cDetour (e : Entry) : Bool := bitOf (pw e 0) 16
def cRelay (e : Entry) : Bool := bitOf (pw e 0) 17
def cRoot (e : Entry) : Nat := fld (pw e 0) 31 18
def cSeq (e : Entry) : Nat := fld (pw e 0) 63 32
def cSrc (e : Entry) : Nat := pw e 8
def cDst (e : Entry) : Nat := pw e 0x10
def cCount (e : Entry) : Nat := pw e 0x18
def cHop (e : Entry) : Nat := fld (pw e 0x20) 29 16
def cAxis (e : Entry) : Nat := fld (pw e 0x20) 32 30
def cDir (e : Entry) : Nat := fld (pw e 0x20) 33 33
def cSendCounts (e : Entry) : Nat := pw e 0x28
def cRecvCounts (e : Entry) : Nat := pw e 0x30
def cToken (e : Entry) : Nat := fld (pw e 0x38) 31 0
def cCap (e : Entry) : Nat := fld (pw e 0x38) 63 32

/-- The opcodes of R308. -/
def opAllReduce : Nat := 0x310
def opReduceScatter : Nat := 0x311
def opAllGather : Nat := 0x312
def opAllToAllV : Nat := 0x313
def opBroadcast : Nat := 0x314
def opBarrier : Nat := 0x315

/-- A reduction. -/
def isRed (op : Nat) : Bool := op = 0x310 || op = 0x311

/-! ## What a collective reads and writes (R311, R315) -/

/-- Bytes of an element of a reduction's format. -/
def fmtBytes (f : Nat) : Nat := (fmtOf f).width / 8

/-- Elements of a granule of 64 bytes of the input format. -/
def granule (fin : Nat) : Nat := 64 / fmtBytes fin

/-- The chunk bound B(c) of a reduction over `n` ranks (R311). -/
def chunkBound (count fin n c : Nat) : Nat := min (granule fin * (c * cdiv count (granule fin) / n)) count

/-- The source range that the operation reads on this member (R315); that of `ALL_TO_ALL_V` follows its send counts. -/
def collSrc (s : State) (w : List Nat) (e : Entry) : Option (Nat × Nat) :=
  if cRelay e then none
  else if isRed e.opcode then some (cSrc e, cCount e * fmtBytes (cIn e))
  else if e.opcode = opAllGather ∨ (e.opcode = opBroadcast ∧ myRank s w = cRoot e) then some (cSrc e, cCount e)
  else none

/-- The destination range that the operation writes on this member (R315, R316). -/
def collDst (s : State) (w : List Nat) (e : Entry) : Option (Nat × Nat) :=
  let n := groupSize w
  let r := myRank s w
  let b := fun c => chunkBound (cCount e) (cIn e) n c
  if cRelay e then none
  else if e.opcode = opAllReduce then some (cDst e, cCount e * fmtBytes (cOut e))
  else if e.opcode = opReduceScatter then some (cDst e, (b (r + 1) - b r) * fmtBytes (cOut e))
  else if e.opcode = opAllGather then some (cDst e, n * cCount e)
  else if e.opcode = opBroadcast then some (cDst e, cCount e)
  else if e.opcode = opAllToAllV then some (cDst e, cCap e * cToken e)
  else none

/-! ## Ring steps and detours (R306, R327) -/

/-- A coordinate moved one step along an axis, against the direction when `back`. -/
def movedCoord (s : State) (axis dir : Nat) (back : Bool) (c : Nat) : Nat :=
  let l := ringLen s axis
  setCoord c axis (if decide (dir = 1) = back then (coordOn c axis + 1) % l else (coordOn c axis + l - 1) % l)

/-- The module to which this member sends what is for rank `d` in a direction (0 increasing ranks): across the bypassed link, the relay
beside it (R327). -/
def hopCoord (s : State) (k : Coll) (w : List Nat) (dir d : Nat) : Nat :=
  let n := groupSize w
  let r := myRank s w
  match k.hop with
  | some h =>
    if (dir = 0 ∧ r = h ∧ d = (h + 1) % n) ∨ (dir = 1 ∧ r = (h + 1) % n ∧ d = h) then movedCoord s k.axis k.dir false (ownCoord s) else coordOfRank s w d
  | none => coordOfRank s w d

/-- The module to which a relay passes on what travels in a direction (0 from rank h to h + 1): the other relay, or the member that it
serves. A relay's own coordinate on the detour axis makes `coordOfRank` name the relays. -/
def relayCoord (s : State) (k : Coll) (w : List Nat) (dir : Nat) : Nat :=
  let h := k.hop.getD 0
  let u := coordOfRank s w h
  let v := coordOfRank s w ((h + 1) % groupSize w)
  if dir = 0 then (if ownCoord s = u then v else movedCoord s k.axis k.dir true v)
  else if ownCoord s = u then movedCoord s k.axis k.dir true u else u

/-- The relay beside the member of rank `q`, for a member of the group. -/
def relayOf (s : State) (k : Coll) (w : List Nat) (q : Nat) : Nat :=
  setCoord (coordOfRank s w q) k.axis (coordOn (movedCoord s k.axis k.dir false (ownCoord s)) k.axis)

/-- The modules with which this one exchanges a collective's ring steps. -/
def stepPeers (s : State) (k : Coll) : List Nat :=
  let w := (getGroup s k.group).params
  let r := myRank s w
  if k.relay then (if k.hop.isSome then [relayCoord s k w 0, relayCoord s k w 1] else [])
  else [hopCoord s k w 0 (ringNext w r), hopCoord s k w 1 (ringPrev w r)]

/-- The port at which a shot from a coordinate arrives: on the last axis on which that module differs, from the direction that a
module's first table takes (R283, R290; log 98). -/
def arrivalPort (s : State) (c : Nat) : Option Nat :=
  ((List.range 5).reverse.find? (fun a => coordOn c a ≠ coordOn (ownCoord s) a)).map (fun a =>
    let l := ringLen s a
    if 2 * ((coordOn (ownCoord s) a + l - coordOn c a) % l) ≤ l then 2 * a + 1 else 2 * a)

/-- The ports of this module on a collective's ring steps, in both directions (R325). -/
def ringPorts (s : State) (k : Coll) : List Nat :=
  (stepPeers s k).flatMap (fun c => if c = ownCoord s then [] else (firstPort s c).toList ++ (arrivalPort s c).toList)

/-! ## Early ends (R323, R324) -/

/-- The payload of an end message (R323). -/
def endPayload (status group collSeq origin dir : Nat) (ghash : Word64) : List Byte :=
  toLE 8 (collSeq % 2 ^ 32 * 2 ^ 8 + group % 256 * 2 ^ 40 + status % 2 ^ 16 * 2 ^ 48) ++ toLE 8 (origin % 2 ^ 14 + dir % 2 * 2 ^ 14)
    ++ toLE 8 ghash.toNat ++ List.replicate 40 0

/-- End messages of an origin: both ways round the ring, and to the relays in detour mode; a relay tells the members that
it serves. -/
def sendEnds (s : State) (k : Coll) (status : Nat) : State :=
  let g := getGroup s k.group
  let w := g.params
  let n := groupSize w
  let r := myRank s w
  let one := fun (s : State) (d : Nat × Nat) => sendAfiup s d.1 false (endPayload status k.group k.collSeq r d.2 g.hash) []
  if k.ctx = replayCtx then s
  else match k.relay, k.hop with
    | true, some h =>
      let u := movedCoord s k.axis k.dir true (coordOfRank s w h)
      let v := movedCoord s k.axis k.dir true (coordOfRank s w ((h + 1) % n))
      [(v, 0), (u, 1)].foldl one s
    | true, none => s
    | false, hop =>
      let s := if n ≤ 1 then s else [(coordOfRank s w (ringNext w r), 0), (coordOfRank s w (ringPrev w r), 1)].foldl one s
      match hop with
      | some h => [(relayOf s k w h, 1), (relayOf s k w ((h + 1) % n), 0)].foldl one s
      | none => s

/-- Bytes of memory become open (log 7). -/
def freeFill (s : State) (a n : Nat) : State :=
  { s with mem := (List.range n).foldl (fun m i => tset 0 m (a + i) (Config.freeByte (s.free + i))) s.mem, free := s.free + n }

/-- The destination buffers of a collective that ends early are undefined (R81, R323). -/
def spoilDst (s : State) (k : Coll) : State :=
  match running s k.ctx k.cseq k.opcode with
  | some e => match collDst s (getGroup s k.group).params e with
    | some d => freeFill s d.1 d.2
    | none => s
  | none => s

/-- A group's definition is withdrawn on every core of this member (R323). -/
def withdrawGroup (s : State) (n : Nat) : State :=
  let g := getGroup s n
  { s with groups := tput s.groups n {}, rings := (g.hash, g.params) :: s.rings.filter (fun x => x.1 ≠ g.hash)
           cores := s.cores.map (fun c => (c.1, { c.2 with groups := c.2.groups.filter (fun x => x.1 ≠ n) })) }

/-- The collective stops here: its charge ends with `status` (an aborted one with CHARGE_ABORTED), its items stop, its destination is
undefined and the group's definition is withdrawn. -/
def stopColl (s : State) (k : Coll) (status : Nat) : State :=
  let s := withdrawGroup (spoilDst s k) k.group
  let s := { s with colls := s.colls.filter (fun x => !(x.ctx = k.ctx && x.cseq = k.cseq)) }
  let s := modRunning s k.ctx k.cseq (fun e => if e.st = .abortPending then e else { e with status := status })
  finishItems (stopCharge s k.ctx k.cseq) k.ctx k.cseq

/-- This member is the origin of an early end: its own outcome and the status that the messages carry. -/
def originEnd (s : State) (k : Coll) (own carried : Nat) : State := stopColl (sendEnds s k carried) k own

/-- The running collective of a charge. -/
def collOf (s : State) (c cseq : Nat) : Option Coll := s.colls.find? (fun k => k.ctx = c && k.cseq = cseq)

/-- Every running collective with a port that went down on its ring steps ends with LINK_LOST; every one remembers the loss
(R325, R326). -/
def collPortDown (s : State) (p : Nat) : State :=
  let t := { s with colls := s.colls.map (fun (k : Coll) => { k with portDown := true }) }
  (t.colls.filter (fun k => k.ctx ≠ replayCtx && (ringPorts t k).contains p)).foldl (fun s k =>
    originEnd s k Status.linkLost Status.linkLost) t

end Sys2Proof.Machine
end

