-- ==== Sys2Proof/Machine/Wire.lean ====
section
/-! DEFINITION. Frames as bytes: the header, body and trailer of a link frame (R261, R262), its encapsulation on axis D (R277),
the shots of a body (R252, R254, R262) and the fragments of link-control messages (R272). -/

namespace Sys2Proof.Machine

/-! ## CRC-32 (R262) -/

/-- One bit of the CRC-32 of IEEE 802.3. -/
def crcBit (c : Nat) : Nat := if c % 2 = 1 then (c / 2) ^^^ 0xEDB88320 else c / 2

/-- One byte of the CRC-32. -/
def crcByte (c : Nat) (b : Byte) : Nat := crcBit (crcBit (crcBit (crcBit (crcBit (crcBit (crcBit (crcBit (c ^^^ b.toNat))))))))

/-- The CRC-32 of IEEE 802.3 over bytes. -/
def crc32 (bs : List Byte) : Nat := bs.foldl crcByte 0xFFFFFFFF ^^^ 0xFFFFFFFF

/-! ## The frame header (R261) -/

/-- The fields of a frame header. -/
structure Frame where
  version  : Nat := 1
  kind     : Nat
  fseq     : Nat
  ack      : Nat
  retryReq : Bool
  bseq     : Nat
  words    : Nat
  port     : Nat
  link     : Nat
  credit   : List Nat
deriving DecidableEq, Repr

/-- The 16 bytes of a header. -/
def headerBytes (h : Frame) : List Byte :=
  toLE 16 (h.credit.getD 0 0 % 4096 * 2 ^ 16 + h.credit.getD 1 0 % 4096 * 2 ^ 28 + h.credit.getD 2 0 % 4096 * 2 ^ 40
    + h.credit.getD 3 0 % 4096 * 2 ^ 52 + h.link % 16 * 2 ^ 64 + h.port % 16 * 2 ^ 68 + h.words % 2048 * 2 ^ 72 + h.bseq % 4096 * 2 ^ 83
    + b2n h.retryReq * 2 ^ 95 + h.ack % 4096 * 2 ^ 96 + h.fseq % 4096 * 2 ^ 108 + h.kind % 4 * 2 ^ 122 + h.version % 16 * 2 ^ 124)

/-- The header that 16 bytes hold. -/
def readHeader (b : List Byte) : Frame :=
  let w := wordAt b 0 16
  { version := fld w 127 124, kind := fld w 123 122, fseq := fld w 119 108, ack := fld w 107 96, retryReq := bitOf w 95
    bseq := fld w 94 83, words := fld w 82 72, port := fld w 71 68, link := fld w 67 64
    credit := [fld w 27 16, fld w 39 28, fld w 51 40, fld w 63 52] }

/-- The header is of the one version and of a defined kind, with its reserved bits 0 (R17, R261; log 96). -/
def headerDefined (b : List Byte) : Bool :=
  let w := wordAt b 0 16
  fld w 127 124 = 1 && fld w 123 122 ≠ 3 && fld w 121 120 = 0 && fld w 15 0 = 0

/-! ## Shots of a body (R252, R254, R262) -/

/-- A shot with its signal tail, as bytes. -/
def shotBytes (x : Shot) : List Byte := toLE 8 (shotHeader x) ++ slice x.payload 0 64 ++ (if x.rcarry then toLE 8 x.tail else [])

/-- The shot that nine words hold, with its tail word. -/
def readShot (b : List Byte) : Shot :=
  let w := w64 b 0
  { dest := fld w 63 50, core := fld w 49 43, vl := fld w 42 41, epoch := fld w 40 39, typ := fld w 38 35, flow := fld w 34 25
    seq := fld w 24 13, last := bitOf w 12, rcarry := bitOf w 11, mcast := bitOf w 10, payload := slice b 8 64
    tail := if bitOf w 11 then w64 b 72 else 0 }

/-- The shots of a body, parsed from its start; `fuel` bounds their number. -/
def readShots : Nat → List Byte → List Shot
  | 0, _ => []
  | fuel + 1, b =>
    if b.length < 72 then []
    else
      let x := readShot b
      x :: readShots fuel (b.drop (if x.rcarry then 80 else 72))

/-! ## Network mode (R277) -/

/-- The map in force, or zeros. -/
def mapOrZero (s : State) : List Byte := s.map.getD (List.replicate 1024 0)

/-- A base address with `j` added to its low byte. -/
def addrPlus (base j : Nat) : Nat := base / 256 * 256 + (base + j) % 256

/-- The IPv6 address of a D link. -/
def ownAddress (m : List Byte) (n : Nat) : Nat := addrPlus (wordAt m 0x1C0 16) (n - 42)

/-- The IPv6 address of the link that a D link sends to. -/
def peerAddress (m : List Byte) (n : Nat) : Nat :=
  if portOf n = 8 then addrPlus (wordAt m 0x1D0 16) (3 + linkIndex n) else addrPlus (wordAt m 0x1E0 16) (linkIndex n)

/-- The UDP source port of a link. -/
def udpSource (n : Nat) : Nat := 0xC000 + 8 * portOf n + linkIndex n

/-- A number of `n` bytes in network order. -/
def toBE (n v : Nat) : List Byte := (toLE n v).reverse

/-- A number in network order. -/
def wordBE (b : List Byte) (off n : Nat) : Nat := leNat (slice b off n).reverse

/-- The ones' complement sum of 16-bit words in network order. -/
def onesSum (b : List Byte) : Nat :=
  let t := ((List.range (cdiv b.length 2)).map (fun i => wordBE b (2 * i) 2)).sum
  (t % 65536 + t / 65536) % 65536 + (t % 65536 + t / 65536) / 65536

/-- The Ethernet, IPv6 and UDP headers of a payload on a D link, the payload, and the frame check sequence. -/
def encapsulate (s : State) (n : Nat) (p : List Byte) : List Byte :=
  let m := mapOrZero s
  let cfg := w64 m 0x1F0
  let dscp := fld cfg 21 16
  let addrs := toBE 16 (ownAddress m n) ++ toBE 16 (peerAddress m n)
  let len := 8 + p.length
  let ports := toBE 2 (udpSource n) ++ toBE 2 (fld cfg 15 0) ++ toBE 2 len
  let sum := 65535 - onesSum (addrs ++ toBE 4 len ++ toBE 4 17 ++ ports ++ p)
  let b := toBE 6 (wordAt m (0x200 + 0x10 * (n - 42)) 6) ++ toBE 6 (Config.linkMac s.ident.serial n % 2 ^ 48)
    ++ (if bitOf cfg 34 then toBE 2 0x8100 ++ toBE 2 (dscp / 8 * 2 ^ 13 + fld cfg 33 22) else [])
    ++ toBE 2 0x86DD ++ toBE 4 (6 * 2 ^ 28 + dscp * 2 ^ 22 + udpSource n) ++ toBE 2 len ++ toBE 1 17 ++ toBE 1 64 ++ addrs
    ++ ports ++ toBE 2 (if sum = 0 then 65535 else sum) ++ p
  b ++ toLE 4 (crc32 b)

/-! ## Whole frames -/

/-- A frame on a link, as bytes: a trailer with the CRC in direct mode (R262), Ethernet in network mode (R277). -/
def wireOf (s : State) (n : Nat) (h : Frame) (body : List Byte) : List Byte :=
  let b := headerBytes { h with words := body.length / 8, port := portOf n, link := linkIndex n } ++ body
  if isNet (portOf n) then encapsulate s n b else b ++ toLE 8 (crc32 b)

/-- What arrives on a link: a frame that fails CRC, FEC or FCS, one that is discarded, or a header and a body. -/
inductive Arrival where
  | bad
  | stray
  | frame (h : Frame) (body : List Byte)
deriving DecidableEq, Repr

/-- Header and body of the bytes of a frame. -/
def readFrame (b : List Byte) : Arrival :=
  let h := readHeader b
  if b.length < 16 + 8 * h.words ∨ headerDefined b = false then .stray else .frame h (slice b 16 (8 * h.words))

/-- The frame names the peer link that this D link expects (R278). -/
def peerFrame (n : Nat) (h : Frame) : Bool := h.port = portOf n + 1 - 2 * (portOf n % 2) && h.link = linkIndex n

/-- The addresses and the UDP port of a packet are those that a D link accepts (R278). -/
def packetOk (s : State) (n : Nat) (b : List Byte) : Bool :=
  let m := mapOrZero s
  wordBE b 0 2 = 0x86DD && wordBE b 8 1 = 17 && wordBE b 10 16 = peerAddress m n && wordBE b 26 16 = ownAddress m n
    && wordBE b 44 2 = fld (w64 m 0x1F0) 15 0

/-- A frame arrives on a link; `fecOk` is the physical layer's verdict (R262, R265, R277, R278). -/
def receive (s : State) (n : Nat) (wire : List Byte) (fecOk : Bool) : Arrival :=
  if isNet (portOf n) then
    let b := wire.take (wire.length - 4)
    let t := b.drop (if wordBE b 12 2 = 0x8100 then 16 else 12)
    if !fecOk || wire.length < 4 || wordAt wire (wire.length - 4) 4 ≠ crc32 b then .bad
    else if !packetOk s n t then .stray
    else match readFrame (t.drop 50) with
      | .frame h body => if peerFrame n h then .frame h body else .stray
      | a => a
  else
    let b := wire.take (wire.length - 8)
    if !fecOk || wire.length < 24 || wordAt wire (wire.length - 8) 4 ≠ crc32 b || b.length ≠ 16 + 8 * (readHeader b).words then .bad
    else readFrame b

/-! ## Link-control fragments (R272) -/

/-- Words of a message that one frame holds beside its fragment header. -/
def fragWords (p : Nat) : Nat := if isNet p then 1079 else 62

/-- Zero-padded to whole words. -/
def padWords (b : List Byte) : List Byte := slice b 0 (8 * cdiv b.length 8)

/-- The body of fragment `i` of `k`. -/
def fragment (p mtype reason mseq k i : Nat) (msg : List Byte) : List Byte :=
  let w := 8 * fragWords p
  toLE 8 (mseq % 2 ^ 32 + reason % 16 * 2 ^ 36 + k % 256 * 2 ^ 40 + i % 256 * 2 ^ 48 + mtype % 256 * 2 ^ 56)
    ++ (msg.drop (w * i)).take w

/-- The fragments of a message. -/
def fragments (p mtype reason mseq : Nat) (body : List Byte) : List (List Byte) :=
  let msg := padWords body
  let k := max 1 (cdiv msg.length (8 * fragWords p))
  (List.range k).map (fun i => fragment p mtype reason mseq k i msg)

end Sys2Proof.Machine
end

