-- ==== Sys2Proof/Machine/Net.lean ====
section
/-! DEFINITION. Ports and links: the fields of the installation map (R273), port states (R280), and the sending of frames
with credits, bundle order and replay buffers (R261 to R265). -/

namespace Sys2Proof.Machine

/-! ## Ports -/

/-- The neighbour coordinate on a port (R250). -/
def neighbor (s : State) (p : Nat) : Nat :=
  let a := p / 2
  let l := ringLen s a
  let c := ownCoord s
  setCoord c a (if p % 2 = 0 then (coordOn c a + 1) % l else (coordOn c a + l - 1) % l)

/-- Some map is in force and uses the port. -/
def portUsed (s : State) (p : Nat) : Bool :=
  match s.map with
  | some m => mapUsed m p
  | none => false

/-- `EXPECTED` of a port in the map in force. -/
def portExpected (s : State) (p : Nat) : Nat :=
  match s.map with
  | some m => mapExpected m p
  | none => 0

/-- The link is in the bundle: ACTIVE or KEEPALIVE. -/
def inBundle (x : Link) : Bool := x.st = .active || x.st = .keepalive

/-- The links of a port that are in its bundle. -/
def activeLinks (s : State) (p : Nat) : List Nat := (portLinks p).filter (fun n => inBundle (getLink s n))

/-- `PORT_STAT.ACTIVE`. -/
def activeMask (s : State) (p : Nat) : Nat := ((activeLinks s p).map (fun n => 2 ^ linkIndex n)).sum

/-- `PORT_STAT.STATE` (R280): 0 DARK, 1 DOWN, 2 UP, 3 DEGRADED. -/
def portState (s : State) (p : Nat) : Nat :=
  if !portUsed s p then 0
  else if activeMask s p = 0 then 1
  else if activeMask s p = portExpected s p then 2 else 3

/-- The port carries traffic: UP or DEGRADED. -/
def portUp (s : State) (p : Nat) : Bool := 2 ≤ portState s p

/-- The level of a port's active links (R271, R280). -/
def portLevel (s : State) (p : Nat) : Nat :=
  match activeLinks s p with
  | n :: _ => (getLink s n).level
  | [] => 0

/-! ## Credits (R264) -/

/-- Shot buffers per lane of a receiving port. -/
def laneBuffers (p : Nat) : Nat := if isNet p then 4096 else 512

/-- Add to a lane's count. -/
def addLane (l : List (Nat × Nat)) (v n : Nat) : List (Nat × Nat) := tput l v (lookD 0 l v + n)

/-- Take from a lane's count. -/
def subLane (l : List (Nat × Nat)) (v n : Nat) : List (Nat × Nat) := tput l v (lookD 0 l v - n)

/-- A shot has left the receiving buffer of an input port: its credit is owed to the sender. -/
def oweCredit (s : State) (p v : Nat) : State :=
  if p < 10 then modLPort s p (fun x => { x with owed := addLane x.owed v 1 }) else s

/-- A lane of an output port has a buffer at the far end for one more shot than those that already wait for a frame (R264). -/
def laneFree (s : State) (p v : Nat) : Bool :=
  let x := getLPort s p
  lookD 0 x.used v + (x.outq.filter (fun y => y.vl = v)).length < laneBuffers p

/-- The credits that a frame of the port returns; none while the port's links are in KEEPALIVE (R410). -/
def takeCredits (s : State) (p : Nat) : State × List Nat :=
  if s.power.st = .drawn then (s, [0, 0, 0, 0])
  else (modLPort s p (fun x => { x with owed := x.owed.map (fun e => (e.1, e.2 - min 4095 e.2)) }), (List.range 4).map (fun v => min 4095 (lookD 0 (getLPort s p).owed v)))

/-! ## Sending frames (R261 to R263) -/

/-- Send one frame on a link with the next acknowledgement, retry request and credits. -/
def sendFrame (s : State) (n kind fseq bseq : Nat) (shots : List Shot) : State :=
  let l := getLink s n
  let q := takeCredits s (portOf n)
  emit q.1 (.frame n (wireOf s n { kind := kind, fseq := fseq, ack := l.rxFseq, retryReq := l.retryReq, bseq := bseq, words := 0, port := 0
                                   link := 0, credit := q.2 } (shots.flatMap shotBytes)))

/-- Words of a shot in a frame's body. -/
def shotWords (x : Shot) : Nat := if x.rcarry then 10 else 9

/-- The body of a frame has room: 63 words, or 1,080 words and 120 shots in network mode (R262, R277). -/
def bodyRoom (p words count : Nat) (x : Shot) : Bool :=
  if isNet p then words + shotWords x ≤ 1080 && count < 120 else words + shotWords x ≤ 63

/-- The lanes of the control class, then of the data class, in the order in which an output port looks at them: round-robin (R289). -/
def controlOrder (x : LPort) : List Nat := if x.ctlNext = 3 then [3, 2] else [2, 3]
def dataOrder (x : LPort) : List Nat := if x.dataNext = 1 then [1, 0] else [0, 1]

/-- The first of some lanes that holds a shot and a credit. -/
def laneShot (p : Nat) (x : LPort) (lanes : List Nat) : Option Shot :=
  lanes.findSome? (fun v => if lookD 0 x.used v < laneBuffers p then x.outq.find? (fun y => y.vl = v) else none)

/-- The mirror shot that the port may take: neither data lane holds a shot with a credit, or 8 data shots have left since the last
one (R393). -/
def mirrorShot (p : Nat) (x : LPort) : Option Shot :=
  if (laneShot p x (dataOrder x)).isNone ∨ 8 ≤ x.sinceMirror then
    x.mirrorq.head?.filter (fun y => lookD 0 x.used y.vl < laneBuffers p)
  else none

/-- The next shot for a frame (R289, R393). -/
def nextShot (p words count : Nat) (x : LPort) : Option Shot :=
  ((laneShot p x (controlOrder x)).or ((mirrorShot p x).or (laneShot p x (dataOrder x)))).filter (bodyRoom p words count)

/-- A shot leaves the port's queue against a credit of its lane; the other lane of its pair is next. -/
def takeShot (x : LPort) (y : Shot) : LPort :=
  let t := { x with used := addLane x.used y.vl 1 }
  if y.mirror then { t with mirrorq := t.mirrorq.erase y, sinceMirror := 0 }
  else if 2 ≤ y.vl then { t with outq := t.outq.erase y, ctlNext := 5 - y.vl }
  else { t with outq := t.outq.erase y, dataNext := 1 - y.vl, sinceMirror := t.sinceMirror + 1 }

/-- Fill a frame from the lanes. -/
def fillFrame (p : Nat) : Nat → LPort → List Shot → LPort × List Shot
  | 0, x, got => (x, got)
  | fuel + 1, x, got =>
    match nextShot p (got.map shotWords).sum got.length x with
    | some y => fillFrame p fuel (takeShot x y) (got ++ [{ y with mirror := false }])
    | none => (x, got)

/-- The next link, in cyclic order of index, that takes frames and has room in its replay buffer of 128 (R263). -/
def nextLink (s : State) (p : Nat) : Option Nat :=
  let c := (getLPort s p).cursor
  let k := linkCount p
  ((List.range k).map (fun i => firstLink p + (c + 1 + i) % k)).find? (fun n =>
    let l := getLink s n
    l.st = .active && !l.leaving && l.loopback.isNone && l.kept.length < 128)

/-- `BSEQ` values between the oldest frame not acknowledged and the next one (R263). -/
def bseqSpan (s : State) (p : Nat) : Nat :=
  let x := getLPort s p
  let out := (portLinks p).flatMap (fun n => (getLink s n).kept.map Kept.bseq) ++ x.resend.map Prod.fst
  (out.map (fun b => (x.txBseq + 4096 - b) % 4096)).foldl max 0

/-- Place a frame on a link: kept for replay, counted, sent. -/
def placeFrame (s : State) (p n bseq : Nat) (shots : List Shot) : State :=
  let l := getLink s n
  let s := setLink s n { l with txFseq := (l.txFseq + 1) % 4096, kept := l.kept ++ [{ fseq := l.txFseq, bseq := bseq, shots := shots }] }
  let s := modLPort s p (fun x => { x with cursor := linkIndex n })
  let s := bump (bump s 2 (8 * n) 1) 2 (8 * n + 2) shots.length
  sendFrame (phaseAdd s 1 shots.length) n 0 l.txFseq bseq shots

/-- Send what the port can send: first the frames of dropped links, in `BSEQ` order, then new frames. -/
def pumpPort (s : State) (p : Nat) : Nat → State
  | 0 => s
  | fuel + 1 =>
    match nextLink s p with
    | none => s
    | some n =>
      match (getLPort s p).resend with
      | f :: r => pumpPort (placeFrame (modLPort s p (fun x => { x with resend := r })) p n f.1 f.2) p fuel
      | [] =>
        let x := getLPort s p
        let q := fillFrame p (x.outq.length + x.mirrorq.length) x []
        if q.2 = [] ∨ 1024 ≤ bseqSpan s p ∨ s.power.st = .drawn then s
        else pumpPort (placeFrame (setLPort s p { q.1 with txBseq := (x.txBseq + 1) % 4096 }) p n x.txBseq q.2) p fuel

/-- Send everything that waits and can go. -/
def pumpOut (s : State) (p : Nat) : State :=
  let x := getLPort s p
  pumpPort s p (x.outq.length + x.mirrorq.length + x.resend.length + 1)

/-! ## Link-control messages (R272) -/

/-- Send one fragment of a link-control message: the next `FSEQ` without consuming it, `BSEQ` 0, and acknowledgement, retry request
and credits as an ack-only frame carries them (R261). -/
def sendFragment (s : State) (n : Nat) (body : List Byte) : State :=
  let l := getLink s n
  let q := if inBundle l then takeCredits s (portOf n) else (s, [0, 0, 0, 0])
  emit q.1 (.frame n (wireOf s n { kind := 2, fseq := l.txFseq, ack := l.rxFseq, retryReq := l.retryReq, bseq := 0, words := 0, port := 0
                                   link := 0, credit := q.2 } body))

/-- Send a link-control message on a link, in fragments; each has a new number. -/
def sendControl (s : State) (n mtype reason : Nat) (body : List Byte) : State :=
  let l := getLink s n
  (fragments (portOf n) mtype reason l.mseq body).foldl (fun s b => sendFragment s n b) (setLink s n { l with mseq := l.mseq + 1 })

/-- Announce DROP or LEAVE of link index `i` on the active links of a port, three times in all. -/
def announce (s : State) (p mtype reason i : Nat) : State :=
  (activeLinks s p).foldl (fun s n =>
    sendControl (modLink s n (fun l => { l with reps := l.reps ++ [(mtype, i, reason, 2)] })) n mtype reason (toLE 8 i)) s

end Sys2Proof.Machine
end

