-- ==== Sys2Proof/Machine/Routing.lean ====
section
/-! DEFINITION. The router: paths, lanes, discards and multicast (R283 to R298), epoch tables and their drain (R290 to R295),
and the routing charges. -/

namespace Sys2Proof.Machine

/-! ## Tables and paths (R283 to R285, R290, R292) -/

/-- The table of an epoch, among current, old and next. -/
def tableFor (s : State) (epoch : Nat) : Option RouteTab :=
  if epoch = s.route.epoch then some s.route.cur
  else match s.route.old, s.route.next with
    | some (e, t), n => if e = epoch then some t else if epoch = (s.route.epoch + 1) % 4 then n else none
    | none, n => if epoch = (s.route.epoch + 1) % 4 then n else none

/-- Entry of a table on an axis toward a coordinate: 0 +, 1 −, 2 unreachable. -/
def dirOf (t : RouteTab) (a c : Nat) : Nat := (t.dirs.getD a []).getD c 2

/-- The first axis on which a destination differs from this module. -/
def firstAxis (s : State) (dest : Nat) : Option Nat :=
  (List.range 5).find? (fun a => coordOn dest a ≠ coordOn (ownCoord s) a)

/-- A hop out of a port crosses the dateline. -/
def crosses (s : State) (p : Nat) : Bool :=
  let c := coordOn (ownCoord s) (p / 2)
  if p % 2 = 0 then c = ringLen s (p / 2) - 1 else c = 0

/-- The lane of a hop (R285): `inp` is the input port (10 and 11 the die ports). -/
def laneOf (s : State) (inp out : Nat) (x : Shot) : Nat :=
  let base := if isControl x then 2 else 0
  if crosses s out then base + 1 else if inp / 2 = out / 2 ∧ inp < 10 then x.vl else base

/-- Shots may be routed to the port: it is UP or DEGRADED, or a firmware update retrains it and holds its traffic (R398). -/
def portTakes (s : State) (p : Nat) : Bool := portUp s p || (getLPort s p).fwHold

/-- Whether an old-epoch shot may leave on a port (R295). -/
def oldAllowed (s : State) (p epoch : Nat) : Bool :=
  match s.route.old with
  | some (e, _) => e ≠ epoch || (getLPort s p).steady
  | none => true

/-- What the router does with a shot. -/
inductive Hop where
  | discard (reason status : Nat)
  | toDie
  | out (port : Nat)
  | copies (ports : List Nat) (cores : List Nat)
deriving DecidableEq, Repr

/-- A unicast shot's hop (R283, R284, R287). -/
def unicastHop (s : State) (inp : Nat) (x : Shot) : Hop :=
  if x.dest = ownCoord s then .toDie
  else if s.map = none ∨ (List.range 5).any (fun a => ringLen s a ≤ coordOn x.dest a) = true then
    .discard 0 Status.routeUnreachable
  else match tableFor s x.epoch, firstAxis s x.dest with
    | none, _ => .discard 1 Status.routeEpochStale
    | some t, some a =>
      let p := if inp < 10 ∧ inp / 2 = a then (if inp % 2 = 0 then inp + 1 else inp - 1) else 2 * a + dirOf t a (coordOn x.dest a) % 2
      if !(inp < 10 ∧ inp / 2 = a) ∧ 2 ≤ dirOf t a (coordOn x.dest a) then .discard 0 Status.routeUnreachable
      else if portTakes s p && oldAllowed s p x.epoch then .out p else .discard 0 Status.routeUnreachable
    | some _, none => .toDie

/-- The hop of any shot. -/
def hopOf (s : State) (inp : Nat) (x : Shot) : Hop :=
  if !typeDefined x then .discard 2 0
  else if x.mcast then
    if (tableFor s x.epoch).isNone then .discard 1 Status.routeEpochStale
    else match s.route.mcast.find? (fun e => e.1 = x.dest % 256) with
    | some (_, m) => if m.inPort = min inp 10 then .copies (bitsOf 10 m.outs) (bitsOf 88 m.cores)
        else .discard 3 Status.mcastTreeMismatch
    | none => .discard 3 Status.mcastTreeMismatch
  else unicastHop s inp x

/-! ## Discards (R287) -/

/-- The router discards a shot: counted, a record at most once per 1 ms and reason, and a negative acknowledgement for an
`OPEN`. -/
def discardShot (s : State) (inp : Nat) (x : Shot) (reason status : Nat) : State :=
  let s := bump s 0 (5 + reason) 1
  let recent := s.route.windows.any (fun w => w.1 = reason && s.time < w.2 + 1000000)
  let s := if recent then s else
    raiseEv { s with route := { s.route with windows := (reason, s.time) :: s.route.windows.filter (fun w => w.1 ≠ reason) } }
      (if reason = 2 then Status.fieldReserved else status) 2
      (subjectWord 0x7F 0 0 0 63 (if inp < 10 then inp else 15) 0 0) (flowWhere x.flow x.seq) (shotHeader x) 0
  if x.typ = 0 ∧ reason ≠ 2 then
    let r := openRecord x.payload
    sendNack s status x.flow 0 r.srcMover 127 r.srcCoord r.srcCore 2
  else s

/-- A copy of a shot leaves on a port, or is discarded there. -/
def forwardOn (s : State) (inp : Nat) (x : Shot) (p : Nat) : State :=
  if portTakes s p && oldAllowed s p x.epoch then
    let y := { x with vl := laneOf s inp p x }
    pumpOut (modLPort s p (fun q =>
      if x.mirror then { q with mirrorq := q.mirrorq ++ [y] } else { q with outq := q.outq ++ [y], lastIn := tput q.lastIn y.vl inp })) p
  else discardShot s inp x 0 Status.routeUnreachable

/-- A shot for this module: a control message goes to the Afiup, any other shot to its core (R26, R288). -/
def deliverHere (s : State) (inp key : Nat) (x : Shot) : State :=
  if x.typ = 9 then emit s (.local_ x) else deliver (noteOpen s x.core x) inp x.vl key x.core x

/-- The hub discards an outbound shot of a replayed charge: it leaves on no port (R402). -/
def leaves (s : State) (inp : Nat) (x : Shot) (p : Nat) : State := if x.replay then s else forwardOn s inp x p

/-- Carry out a hop; copies for cores share a key. -/
def doHop (s : State) (inp key : Nat) (x : Shot) (h : Hop) : State :=
  match h with
  | .discard r st => if x.replay && !x.mcast && x.dest ≠ ownCoord s then s else discardShot s inp x r st
  | .toDie => deliverHere s inp key x
  | .out p => leaves s inp x p
  | .copies ps ls =>
    let s := ls.foldl (fun s l => noteOpen s l x) (ps.foldl (fun s p => leaves s inp x p) s)
    ls.foldl (fun s l => deliver s inp x.vl key l x) s

/-! ## The drain of the old epoch (R294, R295) -/

/-- Shots that wait in the buffers of the router. -/
def buffered (s : State) : List Shot :=
  ((List.range 12).flatMap (fun p => (getLPort s p).inbuf ++ (getLPort s p).outq ++ (getLPort s p).mirrorq)) ++ s.route.heldShots.map Held.shot

/-- A shot of an epoch; a DRAIN is none. -/
def ofEpoch (epoch : Nat) (x : Shot) : Bool := x.epoch = epoch && x.typ ≠ 10

/-- An (input port, lane) pair is drained for an epoch. -/
def pairDrained (s : State) (epoch p v : Nat) : Bool :=
  s.route.drainIn.contains (64 * epoch + 4 * p + v) || !(getLPort s p).steady

/-- Every input pair is drained (the die ports are, since a transfer enters the hub whole). -/
def allDrained (s : State) (epoch : Nat) : Bool :=
  (List.range 10).all (fun p => (List.range 4).all (fun v => pairDrained s epoch p v))

/-- The (input port, lane) pairs that the routing rules could forward to a lane of an output port, the die ports left out
(R285); a shot passes an axis's dateline once (R284, R288). -/
def feeds (s : State) (p v : Nat) : List (Nat × Nat) :=
  let c := v / 2 * 2
  let a := p / 2
  let opp := if p % 2 = 0 then p + 1 else p - 1
  let lower := (List.range (2 * a)).flatMap (fun q => [(q, c), (q, c + 1)])
  if crosses s p then (if v = c + 1 then (opp, c) :: lower else [])
  else if v = c then (opp, c) :: lower else [(opp, c + 1)]

/-- An old-epoch shot for an output lane may remain in a buffer. -/
def oldWaits (s : State) (epoch p v : Nat) : Bool :=
  ((getLPort s p).outq ++ (getLPort s p).mirrorq).any (fun x => ofEpoch epoch x && x.vl = v)
    || (feeds s p v).any (fun q => (getLPort s q.1).inbuf.any (fun x => ofEpoch epoch x && x.vl = q.2))
    || [10, 11].any (fun d => (getLPort s d).inbuf.any (fun x => ofEpoch epoch x && decide (isControl x = (2 ≤ v))))

/-- The lanes of an output port whose DRAIN is due. -/
def drainDue (s : State) (epoch p : Nat) : List Nat :=
  if (getLPort s p).steady && portUp s p then
    (List.range 4).filter (fun v => !s.route.drainSent.contains (4 * p + v)
      && (feeds s p v).all (fun q => pairDrained s epoch q.1 q.2) && !oldWaits s epoch p v)
  else []

/-- A DRAIN on an output port for the lanes whose conditions are met (R294, R295). -/
def sendDrain (epoch : Nat) (s : State) (port : Nat) : State :=
  let vs := drainDue s epoch port
  if vs = [] then s
  else
    let lanes := (vs.map (fun v => 2 ^ v)).sum
    let x : Shot := { dest := neighbor s port, core := 0, vl := 2, epoch := epoch, typ := 10, flow := 0, seq := 0, last := false,
                      rcarry := false, mcast := false, payload := toLE 1 (lanes + 16 * epoch) ++ List.replicate 63 0, tail := 0 }
    let s := { s with route := { s.route with drainSent := s.route.drainSent ++ vs.map (fun v => 4 * port + v) } }
    pumpOut (modLPort s port (fun q => { q with outq := q.outq ++ [x] })) port

/-- Once every input pair is drained and no old-epoch shot waits, every DRAIN still due goes out, the old table is discarded, and a
waiting switch retires (R295). -/
def settleOld (s : State) : State :=
  match s.route.old with
  | none => s
  | some (e, _) =>
    if allDrained s e && (buffered s).all (fun x => !ofEpoch e x) then
      let s := (List.range 10).foldl (sendDrain e) s
      let r := { s.route with old := none, drainIn := s.route.drainIn.filter (fun d => d / 64 ≠ e), drainSent := [], dieDrained := false,
                              waitDrain := none }
      let t := { s with route := r }
      match s.route.waitDrain with
      | some (c, cseq) => report t c cseq 0 (s.route.epoch + (s.time - s.route.switchTime) * 4)
      | none => t
    else s

/-- DRAIN_EMIT (R294, R295): a DRAIN for the lanes of an output port whose conditions are met. -/
def execDrainEmit (port : Nat) (s : State) : Res :=
  .next (match s.route.old with
    | none => s
    | some (e, _) => if port < 10 then settleOld (sendDrain e s port) else s)

/-- DRAIN (R294): the receiving router consumes the shot and records its lanes. -/
def execDrain (port : Nat) (shot : Shot) (s : State) : Res :=
  .next (
    if shot.typ ≠ 10 ∨ 10 ≤ port ∨ (getLPort s port).inbuf.contains shot = false then s
    else
      let s := modLPort s port (fun q => { q with inbuf := q.inbuf.erase shot })
      let b := wordAt shot.payload 0 1
      let e := fld b 5 4
      let new := ((bitsOf 4 b).map (fun v => 64 * e + 4 * port + v)).filter (fun d => !s.route.drainIn.contains d)
      settleOld (oweCredit { s with route := { s.route with drainIn := s.route.drainIn ++ new } } port shot.vl))

/-- The lane class of a shot in an input buffer: its lane, or of a die port its class. -/
def inLane (inp : Nat) (x : Shot) : Nat := if inp < 10 then x.vl else if isControl x then 2 else 0

/-- The oldest shot of each lane of an input buffer; the lanes pass shots in order (R260, R286). -/
def laneHeads (inp : Nat) : List Nat → List Shot → List Shot
  | _, [] => []
  | seen, x :: r =>
    if x.typ = 10 ∨ seen.contains (inLane inp x) = true then laneHeads inp seen r
    else x :: laneHeads inp (inLane inp x :: seen) r

/-- The oldest shots of an input port's lanes. -/
def headsOf (s : State) (inp : Nat) : List Shot := laneHeads inp [] (getLPort s inp).inbuf

/-- The output port and lane for which a unicast shot of an input port waits. -/
def wants (s : State) (inp : Nat) (x : Shot) : Option (Nat × Nat) :=
  match hopOf s inp x with
  | .out p => if x.replay || x.mirror then none else some (p, laneOf s inp p x)
  | _ => none

/-- It is input port `inp`'s turn for a lane of an output port: no input between the one served last and it waits for that lane
(R289). -/
def portTurn (s : State) (inp p v : Nat) : Bool :=
  let last := lookD 11 (getLPort s p).lastIn v
  let dist := fun (q : Nat) => (q + 23 - last) % 12
  (List.range 12).all (fun q => dist inp ≤ dist q || (headsOf s q).all (fun y => wants s q y ≠ some (p, v)))

/-- A shot may leave its input buffer: a unicast one for a link when its lane has a credit and its port the turn, a multicast one
when every copy has a credit (R264, R289), any other at once: a mirror shot has a queue of its own (R393). -/
def mayLeave (s : State) (inp : Nat) (x : Shot) : Bool :=
  match hopOf s inp x with
  | .out p => x.replay || x.mirror || (laneFree s p (laneOf s inp p x) && portTurn s inp p (laneOf s inp p x))
  | .copies ps _ => x.replay || ps.all (fun p => laneFree s p (laneOf s inp p x))
  | _ => true

/-- The shot has left the router; its credit is owed unless a held copy keeps it (R26, R264). -/
def freeBuffer (s : State) (port lane key : Nat) : State :=
  if s.route.heldShots.any (fun h => h.key = key) then s else oweCredit s port lane

/-- SHOT_FORWARD (R26, R253, R283 to R298): the oldest shot of a lane of an input port leaves its buffer. -/
def execShotForward (port : Nat) (s : State) : Res :=
  .next (match (headsOf s port).find? (mayLeave s port) with
    | none => s
    | some x =>
      if s.boot.off || s.boot.shutdown then s
      else
        let h := hopOf s port x
        let key := s.route.holds + 1
        let s := modLPort { s with route := { s.route with holds := key } } port (fun q => { q with inbuf := q.inbuf.erase x })
        settleOld (freeBuffer (doHop s port key x h) port x.vl key))

/-! ## Route tables (R291, R293) -/

/-- Entries of the parameter word of an axis. -/
def dirEntries (w a : Nat) : List Nat := (List.range ([4, 8, 4, 4, 32].getD a 0)).map (fun c => fld w (2 * c + 1) (2 * c))

/-- The table of a ROUTE_TABLE_LOAD. -/
def routeTabOf (e : Entry) : RouteTab :=
  { version := fld (pw e 0) 31 0, dirs := (List.range 5).map (fun a => dirEntries (pw e (8 + 8 * a)) a) }

/-- A table is valid for this module (R291). -/
def routeTabOk (s : State) (e : Entry) : Bool :=
  let t := routeTabOf e
  fld (pw e 0) 63 34 = 0 && fld (pw e 8) 63 8 = 0 && fld (pw e 0x10) 63 16 = 0 && fld (pw e 0x18) 63 8 = 0
    && fld (pw e 0x20) 63 8 = 0 && tailZero e 0x30 && t.version ≠ 0 && t.dirs.all (fun l => l.all (fun d => d < 3))
    && (List.range 5).all (fun a => dirOf t a (coordOn (ownCoord s) a) = 0)
    && (List.range 5).all (fun a => ((t.dirs.getD a []).drop (ringLen s a)).all (fun d => d = 2))

/-- ROUTE_TABLE_LOAD (R291). -/
def execRouteTableLoad (ctx cseq : Nat) (s : State) : Res :=
  .next (onCharge s ctx cseq 0x510 (fun e =>
    let st := firstFail [(routeTabOk s e, Status.routeTableInvalid),
      (fld (pw e 0) 33 32 = (s.route.epoch + 1) % 4, Status.routeEpochOrder), (s.route.old.isNone, Status.routeEpochBusy)]
    if st ≠ 0 then report s ctx cseq st 0
    else report { s with route := { s.route with next := some (routeTabOf e) } } ctx cseq 0 0))

/-- The switch at the hub (R293). -/
def switchEpoch (s : State) (t : RouteTab) : State :=
  let r := s.route
  let s := { s with route := { r with old := some (r.epoch, r.cur), epoch := (r.epoch + 1) % 4, cur := t, next := none, drainSent := []
                                      dieDrained := true, switchTime := s.time } }
  (List.range 10).foldl (fun s p => modLPort s p (fun q => { q with steady := portUp s p })) s

/-- ROUTE_EPOCH_SWITCH (R293, R295). -/
def execRouteEpochSwitch (ctx cseq : Nat) (s : State) : Res :=
  .next (onCharge s ctx cseq 0x511 (fun e =>
    if e.phase ≠ 0 then settleOld s
    else
      let ver := fld (pw e 0) 31 0
      let good := match s.route.next with
        | some t => decide (t.version = ver)
        | none => false
      let st := firstFail [(fld (pw e 0) 63 33 = 0 && tailZero e 8, Status.fieldReserved), (good, Status.routeEpochOrder),
        (s.route.old.isNone, Status.routeEpochBusy)]
      if st ≠ 0 then report s ctx cseq st 0
      else match s.route.next with
        | some t =>
          let s := switchEpoch s t
          if bitOf (pw e 0) 32 then
            let s := { s with route := { s.route with waitDrain := some (ctx, cseq) } }
            settleOld (modRunning s ctx cseq (fun e => { e with phase := 1 }))
          else settleOld (report s ctx cseq 0 s.route.epoch)
        | none => s))

/-- The first table of epoch 0 (R290): the shorter direction, + when equal; unreachable without a map. -/
def resetTable (s : State) : RouteTab :=
  { version := 0
    dirs := (List.range 5).map (fun a => (List.range ([4, 8, 4, 4, 32].getD a 0)).map (fun c =>
      let l := ringLen s a
      if s.map = none ∨ l ≤ c then 2
      else
        let d := (c + l - coordOn (ownCoord s) a) % l
        if 2 * d ≤ l then 0 else 1)) }

/-! ## Multicast (R296) -/

/-- The fields of a MCAST_TREE_LOAD are valid. -/
def mcastOk (s : State) (e : Entry) : Bool :=
  let w := pw e 8
  let inp := fld w 3 0
  let outs := bitsOf 10 (fld w 25 16)
  fld (pw e 0) 63 9 = 0 && fld w 15 4 = 0 && fld w 63 26 = 0 && fld (pw e 0x18) 63 24 = 0 && tailZero e 0x20
    && (if bitOf (pw e 0) 8 then w = 0 && pw e 0x10 = 0 && pw e 0x18 = 0
        else inp ≤ 10 && outs.all (fun p => p ≠ inp && portUsed s p
          && (10 ≤ inp || !(p / 2 < inp / 2 || (p / 2 = inp / 2 && p ≠ inp + 1 - 2 * (inp % 2))))))

/-- MCAST_TREE_LOAD (R296). -/
def execMcastTreeLoad (ctx cseq : Nat) (s : State) : Res :=
  .next (onCharge s ctx cseq 0x520 (fun e =>
    let w := pw e 8
    let t := fld (pw e 0) 7 0
    if !mcastOk s e then report s ctx cseq Status.mcastTreeInvalid 0
    else
      let rest := s.route.mcast.filter (fun m => m.1 ≠ t)
      let m := { inPort := fld w 3 0, outs := fld w 25 16, cores := pw e 0x10 + pw e 0x18 * 2 ^ 64 }
      report { s with route := { s.route with mcast := if bitOf (pw e 0) 8 then rest else (t, m) :: rest } } ctx cseq 0 0))

/-! ## Register views (R299) -/

/-- `ROUTE_EPOCH`. -/
def routeEpochWord (s : State) : Nat :=
  s.route.epoch % 4 + (match s.route.old with
    | some (e, _) => e % 4 * 4 + 2 ^ 7
    | none => 0) + (if s.route.next.isSome then 2 ^ 6 else 0) + s.route.cur.version % 2 ^ 32 * 2 ^ 32

/-- Output pairs that need a DRAIN: every lane of a port that has been up since the switch. -/
def drainNeeded (s : State) : List Nat :=
  (List.range 40).filter (fun d => (getLPort s (d / 4)).steady)

/-- `ROUTE_DRAIN`. -/
def routeDrainWord (s : State) : Nat :=
  match s.route.old with
  | some (e, _) => ((List.range 40).filter (fun d => pairDrained s e (d / 4) (d % 4)) |>.map (fun d => 2 ^ d)).sum
      + (if (drainNeeded s).all (fun d => s.route.drainSent.contains d) then 2 ^ 40 else 0) + b2n s.route.dieDrained * 2 ^ 41
  | none => 0

end Sys2Proof.Machine
end

