-- ==== Sys2Proof/Machine/Links.lean ====
section
/-! DEFINITION. Links: frames received, retry, drops and leaves (R261 to R268), identity (R269 to R271), link-control messages
(R272), network mode (R277, R278), and the charges MAP_LOAD, MAP_READ, LINK_STATUS and LINK_RETRAIN (R274 to R279). -/

namespace Sys2Proof.Machine

/-! ## Leaving a bundle (R266 to R268) -/

/-- A record about a link and its port (R450). -/
def linkEvent (s : State) (status n reason : Nat) : State :=
  let p := portOf n
  raiseEv s status 3 (linkSubject n p) reason (((getLink s n).peer.map Peer.serial).getD 0) (activeMask s p)

/-- Traffic of a port that cannot be delivered is discarded, without acknowledgements, and collectives learn of it (R267, R325). -/
def clearPort (s : State) (p : Nat) : State :=
  let s := modLPort s p (fun x => { x with held := [], outq := [], mirrorq := [], resend := [], steady := false })
  settleOld (collPortDown s p)

/-- The last active link of a port has left (R267). Numbers and credits of the port start afresh (log 24). While a firmware update
retrains the port, its traffic waits (R398). -/
def portDown (s : State) (n reason : Nat) : State :=
  let p := portOf n
  let s := linkEvent s Status.portDown n reason
  let s := modLPort s p (fun x => { x with txBseq := 0, rxBseq := 0, used := [], owed := [], intentOut := false, intentIn := false })
  if (getLPort s p).fwHold then
    modLPort s p (fun x => { x with held := [], resend := [], outq := x.resend.flatMap Prod.snd ++ x.outq })
  else clearPort s p

/-- The link stops carrying frames. -/
def resetLink (l : Link) : Link :=
  { l with txFseq := 0, rxFseq := 4095, retryReq := false, kept := [], replays := 0, retryTimes := [], leaving := false,
           darkNext := false, noLeave := false, told := false, level := 0, ownOk := none, peerOk := none, ownReason := 0, peerReason := 0, reps := [] }

/-- A link enters TRAINING (R268); message numbers start at 0 (R272). -/
def trainLink (s : State) (n : Nat) : State :=
  modLink s n (fun l => { resetLink l with st := .training, reason := 0, mseq := 0, chal := [], parts := [], stuck := false })

/-- A link goes DARK. -/
def darkLink (s : State) (n : Nat) : State := modLink s n (fun l => { resetLink l with st := .dark, reason := 0 })

/-- A link becomes DROPPED and its drop counts toward the allowance; after the fourth it stays DROPPED. One that was leaving for DARK
is not expected, so it goes there (R268, R275). -/
def dropState (s : State) (n reason : Nat) : State :=
  modLink s n (fun l => { resetLink l with st := if l.darkNext then .dark else .dropped, reason := reason, drops := min 4 (l.drops + 1), stuck := decide (3 ≤ l.drops) })

/-- Insert a frame by `BSEQ` distance from `base`. -/
def insBseq (base : Nat) (f : Nat × List Shot) : List (Nat × List Shot) → List (Nat × List Shot)
  | [] => [f]
  | g :: r => if (f.1 + 4096 - base) % 4096 ≤ (g.1 + 4096 - base) % 4096 then f :: g :: r else g :: insBseq base f r

/-- The oldest `BSEQ` that a port still has to deliver. -/
def oldestBseq (s : State) (p : Nat) : Nat := ((getLPort s p).txBseq + 4096 - bseqSpan s p) % 4096

/-- A link drops out of its bundle (R266): its unacknowledged frames go on the remaining links; `announced` says that this
end decided. -/
def dropLink (s : State) (n reason : Nat) (announced : Bool) : State :=
  let p := portOf n
  let base := oldestBseq s p
  let frames := (getLink s n).kept.map (fun k => (k.bseq, k.shots))
  let s := bump (dropState s n reason) 2 (8 * n + 7) 1
  let s := linkEvent s Status.linkDropped n reason
  let s := modLPort s p (fun x => { x with resend := frames.foldl (fun r f => insBseq base f r) x.resend })
  if activeLinks s p = [] then portDown s n reason
  else pumpOut (if announced then announce s p 4 reason (linkIndex n) else s) p

/-- A leaving link leaves its bundle. -/
def finishLeave (s : State) (n : Nat) : State :=
  let s := if (getLink s n).darkNext then darkLink s n else trainLink s n
  if activeLinks s (portOf n) = [] then portDown s n 0 else s

/-- A link leaves its bundle under a retrain, a map change or a peer's LEAVE, once its frames are acknowledged (R268, R272, R275). It
announces a LEAVE of its own; the last active link of a port stays until it has carried the repeats. -/
def leaveLink (s : State) (n : Nat) : State :=
  let l := getLink s n
  if l.noLeave then finishLeave s n
  else
    let s := if l.told then s else announce (modLink s n (fun l => { l with told := true })) (portOf n) 5 0 (linkIndex n)
    if activeLinks s (portOf n) ≠ [n] ∨ (getLink s n).reps = [] then finishLeave s n else s

/-! ## Frames received (R261 to R265) -/

/-- An acknowledgement takes frames out of the replay buffer; one that ends a replay counts as a transient retry. -/
def takeAck (s : State) (n ack : Nat) : State :=
  let l := getLink s n
  if l.kept.any (fun k => k.fseq = ack) then
    let rest := (l.kept.dropWhile (fun k => k.fseq ≠ ack)).drop 1
    let s := if l.replays = 0 then s else bump s 2 (8 * n + 5) 1
    setLink s n { getLink s n with kept := rest, replays := 0 }
  else s

/-- Replay every unacknowledged frame of a link, in order; a retry event (R265, R266). -/
def replay (s : State) (n : Nat) : State :=
  let l := getLink s n
  if l.kept = [] then s
  else
    let recent := l.retryTimes.filter (fun t => s.time < t + 1000000)
    let s := bump (setLink s n { l with replays := l.replays + 1, retryTimes := s.time :: recent }) 2 (8 * n + 6) l.kept.length
    l.kept.foldl (fun s k => sendFrame s n 0 k.fseq k.bseq k.shots) s

/-- Acknowledgement, retry request and credits of a frame header. -/
def takeHeader (s : State) (n : Nat) (h : Frame) : State :=
  let p := portOf n
  let s := takeAck s n h.ack
  let s := modLPort s p (fun x => { x with used := (List.range 4).foldl (fun u v => subLane u v (h.credit.getD v 0)) x.used })
  let s := if h.retryReq then replay s n else s
  pumpOut s p

/-- Take held frames that are next in `BSEQ` order (R263). -/
def deliverHeld (s : State) (p : Nat) : Nat → State
  | 0 => s
  | fuel + 1 =>
    let x := getLPort s p
    match x.held.find? (fun f => f.1 = x.rxBseq) with
    | some f => deliverHeld (setLPort s p { x with held := x.held.filter (fun g => g.1 ≠ f.1), rxBseq := (x.rxBseq + 1) % 4096
                                                   inbuf := x.inbuf ++ f.2 }) p fuel
    | none => s

/-- A data frame in order on its link: held for its turn in the bundle, or a duplicate. -/
def takeFrame (s : State) (n : Nat) (h : Frame) (shots : List Shot) : State :=
  let p := portOf n
  let x := getLPort s p
  let s := bump (bump s 2 (8 * n + 1) 1) 2 (8 * n + 3) shots.length
  if (h.bseq + 4096 - x.rxBseq) % 4096 < 1024 ∧ x.held.any (fun f => f.1 = h.bseq) = false then
    deliverHeld (setLPort s p { x with held := x.held ++ [(h.bseq, shots)] }) p (x.held.length + 1)
  else s

/-- The receiver asks for a replay (R265). -/
def askReplay (s : State) (n : Nat) : State := modLink s n (fun l => { l with retryReq := true })

/-- A frame that fails its CRC, FEC or FCS, or that the link does not accept, is discarded and counted. -/
def discardFrame (s : State) (n : Nat) : State := bump s 2 (8 * n + 4) 1

/-- LINK_DATA_FRAME (R261 to R265, R277, R278, R410): only an ACTIVE link takes data frames. -/
def execLinkDataFrame (link : Nat) (wire : List Byte) (fecOk : Bool) (s : State) : Res :=
  let l := getLink s link
  .next (
    if l.st ≠ .active ∨ l.loopback.isSome then s
    else match receive s link wire fecOk with
      | .bad => askReplay (discardFrame s link) link
      | .stray => discardFrame s link
      | .frame h body =>
        if h.kind ≠ 0 then s
        else if h.fseq ≠ (l.rxFseq + 1) % 4096 then askReplay s link
        else
          let s := setLink s link { l with rxFseq := h.fseq, retryReq := false }
          takeHeader (takeFrame s link h (readShots 120 body)) link h)

/-- ACK_ONLY_FRAME (R261, R264, R265): it carries the next `FSEQ`, which shows a frame that is missing. -/
def execAckOnlyFrame (link : Nat) (wire : List Byte) (fecOk : Bool) (s : State) : Res :=
  let l := getLink s link
  .next (
    if inBundle l = false ∨ l.loopback.isSome then s
    else match receive s link wire fecOk with
      | .frame h _ =>
        if h.kind ≠ 1 then s
        else takeHeader (if h.fseq = (l.rxFseq + 1) % 4096 then s else askReplay s link) link h
      | _ => discardFrame s link)

/-- IDLE_FRAME_TIMER (R261, R262). -/
def execIdleFrameTimer (link : Nat) (s : State) : Res :=
  let l := getLink s link
  .next (if inBundle l ∧ l.loopback.isNone then sendFrame s link 1 l.txFseq 0 [] else s)

/-- ACK_TIMEOUT (R265). -/
def execAckTimeout (link : Nat) (s : State) : Res :=
  .next (if (getLink s link).st = .active then replay s link else s)

/-- RETRY_LIMIT (R266): eight consecutive replays of the oldest frame have failed, or 256 retry events fell within 1 ms. -/
def execRetryLimit (link : Nat) (s : State) : Res :=
  let l := getLink s link
  .next (if inBundle l ∧ (8 ≤ l.replays ∨ 256 ≤ l.retryTimes.length) then dropLink s link 5 true else s)

/-- LOSS_OF_LOCK (R266). -/
def execLossOfLock (link : Nat) (s : State) : Res :=
  .next (if inBundle (getLink s link) then dropLink s link 6 true else s)

/-! ## Training and identity (R268 to R271) -/

/-- Send this end's challenge (R269). -/
def sendChallenge (s : State) (n : Nat) : State := sendControl s n 1 0 (getLink s n).chal

/-- LINK_TRAINED (R268, R269, R278). -/
def execLinkTrained (link : Nat) (s : State) : Res :=
  .next (
    if (getLink s link).st ≠ .training then s
    else
      let c := slice (Config.nonceBytes s.free) 0 16
      let s := bumpFree (modLink s link (fun l => { l with st := .identify, chal := c }))
      let s := if isNet (portOf link) && s.map.isSome then emit s (.neighborAdvert link) else s
      sendChallenge s link)

/-- TRAINING_FAILED (R268). -/
def execTrainingFailed (link : Nat) (s : State) : Res :=
  .next (if (getLink s link).st = .training then dropState s link 4 else s)

/-- DROP_RETRAIN_TIMER (R268): within the allowance. -/
def execDropRetrainTimer (link : Nat) (s : State) : Res :=
  .next (if (getLink s link).st = .dropped ∧ (getLink s link).stuck = false ∧ (getLink s link).loopback.isNone then trainLink s link
    else s)

/-- DROP_ALLOWANCE_SPAN_END (R268). -/
def execDropAllowanceSpanEnd (link : Nat) (s : State) : Res :=
  .next (modLink s link (fun l => { l with drops := l.drops - 1 }))

/-- LINK_LEAVE_BUNDLE (R268, R275). -/
def execLinkLeaveBundle (link : Nat) (s : State) : Res :=
  let l := getLink s link
  .next (if inBundle l ∧ l.leaving ∧ l.kept = [] then leaveLink s link else s)

/-- The identity record that answers a challenge (R269); a RETURNED module's signature is all zero (R422). -/
def identityRecord (s : State) (n : Nat) (echo : List Byte) : List Byte :=
  let ver := match s.map with
    | some m => mapVersion m
    | none => 0
  let b := toLE 8 s.ident.serial ++ toLE 1 (portOf n) ++ toLE 1 (linkIndex n) ++ toLE 1 s.protoLevel ++ toLE 1 s.protoMin
    ++ toLE 1 (if isL8 s then 1 else 2) ++ List.replicate 3 0 ++ toLE 4 ver ++ toLE 2 (ownCoord s) ++ List.replicate 2 0
    ++ slice echo 0 16 ++ slice (getLink s n).chal 0 16
  b ++ (if s.sec.lifecycle = 3 then List.replicate 114 0 else slice (Config.sign s.ident.serial b) 0 114) ++ s.sec.cert

/-- The physical layer is trained, so the link carries link-control messages (R268, R270). -/
def speaks (l : Link) : Bool := l.st = .identify || l.st = .active || l.st = .quarantined

/-- The content of fragment `i` that a link holds of message `q`. -/
def partOf (l : Link) (q i : Nat) : Option (List Byte) := (l.parts.find? (fun x => x.1 = q && x.2.1 = i)).map (fun x => x.2.2)

/-- A fragment of a link-control message of type `mtype` arrives (R261, R272): its acknowledgement and credits are taken, a fragment
held already is ignored, and the message that it completes does `act`, given its reason and content. A reserved type, or a fragment
header that is not well formed, is discarded and counted (log 96). -/
def takeFragment (s : State) (n mtype : Nat) (h : Frame) (body : List Byte) (act : State → Nat → List Byte → State) : State :=
  let l := getLink s n
  let w := w64 body 0
  let t := fld w 63 56
  let i := fld w 55 48
  let k := fld w 47 40
  let q := fld w 31 0
  if body.length < 8 ∨ t = 0 ∨ 6 < t ∨ k ≤ i ∨ fld w 35 32 ≠ 0 then discardFrame s n
  else if t ≠ mtype then s
  else
    let s := if inBundle l then takeHeader s n h else s
    if (partOf l q i).isSome then s
    else
      let s := modLink s n (fun l => { l with parts := l.parts ++ [(q, i, body.drop 8)] })
      if (List.range k).all (fun j => (partOf (getLink s n) q j).isSome) then
        act s (fld w 39 36) ((List.range k).flatMap (fun j => (partOf (getLink s n) q j).getD []))
      else s

/-- A link-control frame arrives on a link whose physical layer is trained. -/
def controlFrame (s : State) (n : Nat) (wire : List Byte) (fecOk : Bool) (mtype : Nat) (act : State → Nat → List Byte → State) : State :=
  let l := getLink s n
  if (speaks l || l.st = .keepalive) = false ∨ l.loopback.isSome then s
  else match receive s n wire fecOk with
    | .frame h body => if h.kind = 2 then takeFragment s n mtype h body act else s
    | _ => discardFrame s n

/-- A challenge is answered with an identity record; a BLANK module has none (R269, R272, R422, R435). -/
def takeChallenge (link : Nat) (s : State) (value : List Byte) : State :=
  if speaks (getLink s link) = false ∨ s.sec.lifecycle = 0 then s else sendControl s link 2 0 (identityRecord s link value)

/-- CHALLENGE (R269, R272). -/
def execChallenge (link : Nat) (wire : List Byte) (fecOk : Bool) (s : State) : Res :=
  .next (controlFrame s link wire fecOk 1 (fun s _ v => takeChallenge link s v))

/-- The fields of a peer's record (R269). -/
def parsePeer (r : List Byte) : Peer :=
  { serial := w64 r 0, port := wordAt r 8 1, link := wordAt r 9 1, level := wordAt r 0xA 1, min := wordAt r 0xB 1, code := wordAt r 0xC 1,
    mapVer := wordAt r 0x10 4, coord := fld (wordAt r 0x14 2) 13 0 }

/-- The wiring check of R270. -/
def wiringOk (s : State) (m : List Byte) (n : Nat) (q : Peer) : Bool :=
  let p := portOf n
  q.serial = mapPeer m p && q.port = p + 1 - 2 * (p % 2) && q.link = linkIndex n && q.coord = neighbor s p

/-- The level checks of R270. -/
def levelOk (s : State) (n : Nat) (q : Peer) : Bool :=
  let others := (activeLinks s (portOf n)).filter (· ≠ n)
  s.protoMin ≤ q.level && q.min ≤ s.protoLevel
    && others.all (fun o => (getLink s o).level = min s.protoLevel q.level)

/-- Both ends have accepted: the link joins its bundle (R268, R270). -/
def joinLink (s : State) (n : Nat) : State :=
  let l := getLink s n
  let s := setLink s n { l with st := if s.power.st = .drawn then .keepalive else .active, reason := 0, level := l.negLevel,
                                txFseq := 0, rxFseq := 4095, kept := [], replays := 0, retryReq := false }
  pumpOut s (portOf n)

/-- Either end has refused: the link is quarantined with this end's reason, or the peer's; one record (R270). -/
def quarantine (s : State) (n : Nat) : State :=
  let l := getLink s n
  let r := if l.ownReason ≠ 0 then l.ownReason else l.peerReason
  linkEvent (setLink s n { l with st := .quarantined, reason := r }) Status.linkQuarantined n r

/-- Send this end's verdict (R272). -/
def sendVerdict (s : State) (n : Nat) : State :=
  let l := getLink s n
  sendControl s n 3 l.ownReason (toLE 8 (if l.ownOk = some true then 1 + l.negLevel * 256 else 0))

/-- This end accepts or refuses, with a reason code. A link that the peer has refused stays quarantined and records this
end's own reason when it finds one (R270). -/
def judge (s : State) (n reason level : Nat) : State :=
  let s := modLink s n (fun l => { l with ownOk := some (decide (reason = 0)), ownReason := reason, negLevel := if reason = 0 then level else 0 })
  let s := sendVerdict s n
  if (getLink s n).st = .quarantined then (if reason ≠ 0 then modLink s n (fun l => { l with reason := reason }) else s)
  else if reason ≠ 0 then quarantine s n
  else if (getLink s n).peerOk = some true then joinLink s n else s

/-- The check of a peer's record that is authentic, under the map in force (R270). -/
def checkPeer (s : State) (n : Nat) (q : Peer) : State :=
  match s.map with
  | none => s
  | some m =>
    if !wiringOk s m n q then judge s n 1 0
    else if !levelOk s n q then judge s n 2 0
    else judge s n 0 (min s.protoLevel q.level)

/-- The certificate chain of a record, its serial number and its signature are valid; the all-zero signature of a RETURNED module
is not (R269, R421, R422). -/
def recordValid (r : List Byte) : Bool :=
  let cert := r.drop 0xAA
  let key := Config.certKey cert
  let sig := slice r 0x38 114
  Config.chainValid cert (w64 r 0) key && Config.verifiesBy key (slice r 0 0x38) sig && sig ≠ List.replicate 114 0

/-- A peer's identity record (R269 to R272, R421). Once this end has judged the link, a later record draws its verdict again. -/
def takeIdentity (link : Nat) (s : State) (record : List Byte) : State :=
  let l := getLink s link
  let q := parsePeer record
  let s := modLink s link (fun l => { l with peer := some q })
  if speaks l = false then s
  else if l.ownOk.isSome then sendVerdict s link
  else if !(recordValid record && slice record 0x18 16 = l.chal) then judge s link 3 0
  else checkPeer s link q

/-- IDENTITY (R269 to R272). -/
def execIdentity (link : Nat) (wire : List Byte) (fecOk : Bool) (s : State) : Res :=
  .next (controlFrame s link wire fecOk 2 (fun s _ r => takeIdentity link s r))

/-- A peer's verdict (R270, R271); both ends negotiate the same level, the lower of the two. -/
def takeVerdict (link : Nat) (s : State) (accept : Bool) (reason : Nat) : State :=
  let l := getLink s link
  let heard := modLink s link (fun l => { l with peerOk := some accept, peerReason := if accept then 0 else reason })
  if l.st = .quarantined then heard
  else if l.st ≠ .identify then s
  else if !accept then quarantine heard link
  else if l.ownOk = some true then joinLink heard link else heard

/-- VERDICT (R270 to R272). -/
def execVerdict (link : Nat) (wire : List Byte) (fecOk : Bool) (s : State) : Res :=
  .next (controlFrame s link wire fecOk 3 (fun s r v => takeVerdict link s (bitOf (w64 v 0) 0) r))

/-! ## Link-control messages (R272) -/

/-- The first copy of a peer's DROP removes the link (R266, R272). -/
def takeDrop (port index reason : Nat) (s : State) : State :=
  let n := firstLink port + index
  if index < linkCount port ∧ inBundle (getLink s n) then dropLink s n reason false else s

/-- DROP (R266, R272). -/
def execDrop (link : Nat) (wire : List Byte) (fecOk : Bool) (s : State) : Res :=
  .next (controlFrame s link wire fecOk 4 (fun s r v => takeDrop (portOf link) (fld (w64 v 0) 2 0) r s))

/-- A peer's LEAVE: the link of that index leaves, announcing nothing (R268, R272). -/
def takeLeave (port index : Nat) (s : State) : State :=
  let n := firstLink port + index
  if index < linkCount port ∧ inBundle (getLink s n) ∧ (getLink s n).leaving = false then
    modLink s n (fun l => { l with leaving := true, noLeave := true })
  else s

/-- LEAVE (R268, R272). -/
def execLeave (link : Nat) (wire : List Byte) (fecOk : Bool) (s : State) : Res :=
  .next (controlFrame s link wire fecOk 5 (fun s _ v => takeLeave (portOf link) (fld (w64 v 0) 2 0) s))

/-- DRAWN_INTENT (R272, R410). -/
def execDrawnIntent (link : Nat) (wire : List Byte) (fecOk : Bool) (s : State) : Res :=
  .next (controlFrame s link wire fecOk 6 (fun s _ v =>
    if inBundle (getLink s link) then modLPort s (portOf link) (fun x => { x with intentIn := bitOf (w64 v 0) 0 }) else s))

/-- LINK_CONTROL_REPEAT (R272): a DROP or LEAVE is repeated, a challenge that no verdict has answered, or a drawn intent. -/
def execLinkControlRepeat (link : Nat) (s : State) : Res :=
  let l := getLink s link
  .next (match l.reps with
    | (t, i, r, k) :: rest =>
      let s := setLink s link { l with reps := if k ≤ 1 then rest else (t, i, r, k - 1) :: rest }
      let s := if inBundle l then sendControl s link t r (toLE 8 i) else s
      if l.told && l.leaving && l.kept = [] && (getLink s link).reps = [] then finishLeave s link else s
    | [] =>
      if (l.st = .identify ∨ l.st = .quarantined) ∧ l.peerOk = none then sendChallenge s link
      else if inBundle l ∧ (getLPort s (portOf link)).intentOut then sendControl s link 6 0 (toLE 8 1) else s)

/-! ## Network mode (R277, R278) -/

/-- NEIGHBOR_SOLICITATION (R278): answered for the link's own address. -/
def execNeighborSolicitation (link target : Nat) (s : State) : Res :=
  .next (match s.map with
    | some m => if isNet (portOf link) ∧ (getLink s link).st ≠ .dark ∧ target = ownAddress m link
        then emit s (.neighborAdvert link) else s
    | none => s)

/-- ECHO_REQUEST (R278): answered for the link's own address. -/
def execEchoRequest (link dest : Nat) (data : List Byte) (s : State) : Res :=
  .next (match s.map with
    | some m => if isNet (portOf link) ∧ (getLink s link).st ≠ .dark ∧ dest = ownAddress m link
        then emit s (.echoReply link data) else s
    | none => s)

/-! ## MAP_LOAD and MAP_READ (R273 to R276) -/

/-- The defined bits of word `i` of the map (R273). -/
def mapMask (i : Nat) : Nat :=
  if i = 0 then 0xFFFFFFFF
  else if i = 2 then 0x0FFF3FFF
  else if i = 4 then 0x33FFF
  else if i = 1 ∨ i = 3 ∨ (56 ≤ i ∧ i < 62) then 2 ^ 64 - 1
  else if 8 ≤ i ∧ i < 48 then (if i % 4 = 0 then 2 ^ 64 - 1 else if i % 4 = 1 then 0x1FF else 0)
  else if i = 62 then 0x7FFFFFFFF
  else if 64 ≤ i ∧ i < 76 ∧ i % 2 = 0 then 2 ^ 48 - 1
  else 0

/-- Offsets of bytes with a reserved bit set. -/
def mapReserved (m : List Byte) : List Nat :=
  (List.range 1024).filter (fun o => (m.getD o 0).toNat &&& (255 - (mapMask (o / 8) >>> (8 * (o % 8))) % 256) ≠ 0)

/-- The coordinate lies within the ring lengths. -/
def coordInside (m : List Byte) (c : Nat) : Bool := (List.range 5).all (fun a => coordOn c a < mapLen m a)

/-- Offsets of the fields that fail a check of R274. -/
def mapFailing (s : State) (m : List Byte) : List Nat :=
  let d := 1 < mapLen m 4
  mapReserved m
    ++ (if mapVersion m = 0 then [0] else []) ++ (if mapSerial m ≠ s.ident.serial % 2 ^ 64 then [8] else [])
    ++ (if coordInside m (mapCoord m) then [] else [0x10])
    ++ (if mapTwinSerial m ≠ 0 then (if coordInside m (mapTwinCoord m) then [] else [0x20])
        else if mapTwinCoord m ≠ 0 ∨ mapTwinCode m ≠ 0 then [0x20] else [])
    ++ ((List.range 10).filter (fun p => (mapUsed m p && mapLen m (p / 2) = 1) || 2 ^ linkCount p ≤ mapExpected m p)).map (fun p => 0x48 + 0x20 * p)
    ++ (if d then ([0x1C0, 0x1D0, 0x1E0].filter (fun o => wordAt m o 16 = 0))
          ++ ((List.range 6).filter (fun i => bitOf (mapExpected m (8 + i / 3)) (i % 3) && wordAt m (0x200 + 0x10 * i) 6 = 0)).map (fun i => 0x200 + 0x10 * i)
        else [])

/-- The map changes the coordinate, a ring length or the network block. -/
def mapMoves (s : State) (m : List Byte) : Bool :=
  match s.map with
  | some o => mapCoord o ≠ mapCoord m || (List.range 5).any (fun a => mapLen o a ≠ mapLen m a) || slice o 0x1C0 0xA0 ≠ slice m 0x1C0 0xA0
  | none => true

/-- The BIST_RUN whose loopback test runs on a link. -/
def loopTest (s : State) (n : Nat) : Option (Nat × Nat) :=
  s.ctxs.findSome? (fun c =>
    (c.2.entries.find? (fun e => e.opcode = 0x900 && e.dispatched && e.report.isNone && e.items.contains n)).map (fun e => (c.1, e.cseq)))

/-- The loopback test of a link ends with its 16-byte result word; the charge ends with the last link (R462). -/
def endLoop (s : State) (n word measured : Nat) : State :=
  let y := writeDev {} noSubject { s := s } (getLink s n).loopDst (toLE 16 word)
  let s := modLink y.s n (fun l => { l with loopback := none })
  match loopTest s n with
  | some (c, q) =>
    let s := match y.bad with
      | u :: _ => report s c q Status.memLasting u
      | [] => s
    let s := modRunning s c q (fun e => { e with items := e.items.filter (· ≠ n), result := e.result + measured })
    match running s c q 0x900 with
    | some e => if e.items = [] then report s c q 0 e.result else s
    | none => s
  | none => s

/-- A retrain or a map change ends the loopback test of a link: the errors counted so far are open (log 7). -/
def preemptLoop (s : State) (n : Nat) : State :=
  if (getLink s n).loopback.isSome then endLoop (bumpFree s) n ((Config.freeWord s.free).toNat % 2 ^ 48 + 2 ^ 48) 0 else s

/-- What a new map does to one link of a port whose entry changed. A link that waits in IDENTIFY for a map checks the record it
keeps; one judged under the old entry trains again (R268, R270, R275). -/
def remapLink (s : State) (n : Nat) (expected : Bool) : State :=
  let s := preemptLoop s n
  let l := getLink s n
  if expected then
    match l.st with
    | .active => modLink s n (fun l => { l with leaving := true, darkNext := false })
    | .keepalive => modLink s n (fun l => { l with leaving := true, darkNext := false })
    | .dark => trainLink s n
    | .dropped => trainLink s n
    | .quarantined => trainLink s n
    | .training => s
    | .identify =>
      let s := if isNet (portOf n) then emit s (.neighborAdvert n) else s
      match l.peer with
      | some q => if l.ownOk = none then checkPeer s n q else trainLink s n
      | none => s
  else if inBundle l then modLink s n (fun l => { l with leaving := true, darkNext := true }) else darkLink s n

/-- A new map takes effect on the links of every port whose entry changed; without a map before, on every port (R275). -/
def remapLinks (s : State) (old : Option (List Byte)) (m : List Byte) : State :=
  (List.range 10).foldl (fun s p =>
    let same := match old with
      | some o => decide (mapEntry o p = mapEntry m p)
      | none => false
    if same then s
    else (portLinks p).foldl (fun s n => remapLink s n (mapUsed m p && bitOf (mapExpected m p) (linkIndex n))) s) s

/-- The status that refuses a map, with RESULT. -/
def mapRefusal (s : State) (m : List Byte) : Nat × Nat :=
  let bad := mapFailing s m
  if bad ≠ [] then (Status.mapInvalid, lowest bad)
  else if mapTwinSerial m ≠ 0 ∧ mapTwinCode m ≠ (if isL8 s then 1 else 2) then (Status.twinVariantMismatch, 0)
  else if mapMoves s m ∧ (List.range 10).any (portUp s) = true then (Status.mapInService, 0)
  else (0, 0)

/-- A map load that changes the twin: a full delta of the last sealed step goes to the new holder at once (R392). -/
def remapTwin (s : State) (old : Option (List Byte)) (m : List Byte) : State :=
  let same := match old with
    | some o => decide (mapTwinSerial o = mapTwinSerial m ∧ mapTwinCoord o = mapTwinCoord m)
    | none => false
  if same then s else fullDelta { s with twin := { s.twin with acked := none, sending := none, queued := none } }

/-- MAP_LOAD (R7, R274, R275). -/
def execMapLoad (ctx cseq : Nat) (f : Finds) (s : State) : Res :=
  .next (onCharge s ctx cseq 0x010 (fun e =>
    let src := pw e 0
    let st := firstFail [(src % 64 = 0 && pw e 8 = 1024 && tailZero e 0x10, Status.fieldReserved), (deviceOk s src 1024, Status.addressUnpopulated)]
    let q := deviceRegion s src 1024 .rd
    if st ≠ 0 then report s ctx cseq st 0
    else if q.2 = false then report q.1 ctx cseq Status.scratchRegion 0
    else
      let x := readAt f 8 noSubject { s := s } [(src, 1024)]
      let s := x.s
      let m := bytesAt s src 1024
      if x.bad ≠ [] then report s ctx cseq (badStatus x.bad) 0
      else
        let r := mapRefusal s m
        if r.1 ≠ 0 then report s ctx cseq r.1 r.2
        else report (remapTwin (remapLinks { s with map := some m } s.map m) s.map m) ctx cseq 0 0))

/-- `LINK_STAT.STATE` codes (R268). -/
def linkCode : LinkSt → Nat
  | .dark => 0
  | .training => 1
  | .identify => 2
  | .active => 3
  | .keepalive => 4
  | .dropped => 5
  | .quarantined => 6

/-- The 32 bytes of a peer record in MAP_READ (R276). -/
def peerBytes (l : Link) : List Byte :=
  match l.peer with
  | none => List.replicate 32 0
  | some q => toLE 8 q.serial ++ toLE 1 q.port ++ toLE 1 q.link ++ toLE 1 q.level ++ toLE 1 q.min ++ toLE 2 q.coord ++ toLE 2 0
      ++ toLE 4 q.mapVer ++ toLE 1 (linkCode l.st) ++ toLE 1 l.reason ++ List.replicate 10 0

/-- MAP_READ (R276). -/
def execMapRead (ctx cseq : Nat) (s : State) : Res :=
  .next (onCharge s ctx cseq 0x011 (fun e =>
    let d := pw e 0
    let st := firstFail [(d % 64 = 0 && tailZero e 8, Status.fieldReserved), (deviceOk s d 2560, Status.addressUnpopulated)]
    let b := (match s.map with
      | some m => slice m 0 1024
      | none => List.replicate 1024 0) ++ (List.range 48).flatMap (fun n => peerBytes (getLink s n))
    if st ≠ 0 then report s ctx cseq st 0
    else putDevice s ctx cseq d b (match s.map with
      | some m => mapVersion m
      | none => 0)))

/-! ## LINK_STATUS and LINK_RETRAIN (R279, R280) -/

/-- `LINK_STAT`. -/
def linkStatWord (s : State) (n : Nat) : Nat :=
  let l := getLink s n
  l.drops % 16 * 2 ^ 44 + (if inBundle l then l.level % 256 else 0) * 2 ^ 48 + l.reason % 16 * 2 ^ 56 + linkCode l.st * 2 ^ 60

/-- `PORT_STAT`. -/
def portStatWord (s : State) (p : Nat) : Nat :=
  portLevel s p % 256 * 2 ^ 36 + portExpected s p % 256 * 2 ^ 44 + activeMask s p % 256 * 2 ^ 52 + portState s p * 2 ^ 60

/-- The record of one link in LINK_STATUS. -/
def linkRecord (s : State) (n : Nat) : List Byte :=
  toLE 8 (linkStatWord s n) ++ toLE 8 (((getLink s n).peer.map Peer.serial).getD 0) ++ toLE 8 (counterOf s 2 (8 * n + 5)).word
    ++ toLE 8 (counterOf s 2 (8 * n + 6)).word

/-- LINK_STATUS (R279). -/
def execLinkStatus (ctx cseq : Nat) (s : State) : Res :=
  .next (onCharge s ctx cseq 0x500 (fun e =>
    let d := pw e 0
    let st := firstFail [(d % 64 = 0 && tailZero e 8, Status.fieldReserved), (deviceOk s d (32 * 48), Status.addressUnpopulated)]
    if st ≠ 0 then report s ctx cseq st 0
    else putDevice s ctx cseq d ((List.range 48).flatMap (linkRecord s)) 0))

/-- A LINK_RETRAIN is refused (R279). -/
def retrainRefused (s : State) (mask : Nat) (allow : Bool) : Bool :=
  (bitsOf 48 mask).any (fun n => portState s (portOf n) = 0 || (getLink s n).st = .dark)
    || (!allow && (List.range 10).any (fun p =>
      activeLinks s p ≠ [] && (activeLinks s p).all (fun n => bitOf mask n)))

/-- What a retrain does to a named link. -/
def retrainLink (s : State) (n : Nat) : State :=
  let s := preemptLoop s n
  let l := getLink s n
  if inBundle l then modLink s n (fun l => { l with leaving := true, noLeave := false })
  else if l.st = .dropped ∨ l.st = .quarantined then trainLink s n else s

/-- A named link has reached ACTIVE, DROPPED or QUARANTINED. -/
def retrainDone (l : Link) : Bool := (l.st = .active && !l.leaving) || l.st = .dropped || l.st = .quarantined

/-- LINK_RETRAIN (R268, R271, R279): it retires when every named link has come to rest. -/
def execLinkRetrain (ctx cseq : Nat) (s : State) : Res :=
  .next (onCharge s ctx cseq 0x501 (fun e =>
    let mask := fld (pw e 0) 47 0
    let ns := bitsOf 48 mask
    if e.phase = 0 then
      let st := firstFail [(fld (pw e 0) 63 49 = 0 && tailZero e 8, Status.fieldReserved),
        (!retrainRefused s mask (bitOf (pw e 0) 48), Status.linkRetrainRefused)]
      if st ≠ 0 then report s ctx cseq st 0
      else
        let s := ns.foldl retrainLink s
        if ns = [] then report s ctx cseq 0 0 else modRunning s ctx cseq (fun e => { e with phase := 1 })
    else if ns.all (fun n => retrainDone (getLink s n)) then
      report s ctx cseq 0 (((ns.filter (fun n => (getLink s n).st = .active)).map (fun n => 2 ^ n)).sum)
    else s))

end Sys2Proof.Machine
end

