-- ==== Sys2Proof/Machine/Contexts.lean ====
section
/-! DEFINITION. Contexts, hoppers and the retire stage: intake (R59, R63 to R66), dispatch (R35, R67), finish reports, abort
marks and retirement (R68, R74 to R81), and the context charges (R72 to R74). -/

namespace Sys2Proof.Machine

/-! ## Headers and intake -/

/-- The entry that a charge's bytes spell (R62). The padding after the LENGTH parameter bytes is dropped unread: the spec names
no check of it (log 84). -/
def parseEntry (b : List Byte) : Entry :=
  let w := w64 b 0
  let v := w64 b 8
  let len := fld w 60 48
  { cseq := fld v 31 0, opcode := fld w 11 0, tag := fld w 47 32, quiet := bitOf w 14, fence := bitOf w 13,
    notify := bitOf w 12, reserved := bitOf w 15 || fld w 31 26 ≠ 0 || fld w 63 61 ≠ 0 || fld v 63 32 ≠ 0,
    params := (b.drop 16).take len, size := 16 + roundUp len 16 }

/-- The context number in a header. -/
def headerCtx (b : List Byte) : Nat := fld (w64 b 0) 25 16

/-- The LENGTH field of a header. -/
def headerLen (b : List Byte) : Nat := fld (w64 b 0) 60 48

/-- Journal an accepted charge of the step context while a step's journal entry is open (R400). -/
def journalAccept (s : State) (c : Nat) (e : Entry) : State :=
  if s.step.ctx = c then modJournal s (fun j => { j with charges := j.charges ++ [{ entry := e }] }) else s

/-- The outcome of a retired charge: entered in the open entry beside the charge (R400); in a RUN, set beside it (R402). -/
def journalRetire (s : State) (c : Nat) (e : Entry) : State :=
  let x : JCharge := { entry := e, status := e.status, result := e.result, done := true }
  if c = replayCtx then modFor s c (fun j => { j with charges := j.charges ++ [x] })
  else match s.journal.entries with
    | j :: r =>
      if s.step.ctx = c then
        let ch := updFirst (fun y => y.entry.cseq = e.cseq && !y.done) (fun y => { x with entry := y.entry }) j.charges
        { s with journal := { s.journal with entries := { j with charges := ch } :: r } }
      else s
    | [] => s

/-- Bytes of accepted charges that are not dispatched (R61). -/
def hopperBytes (x : Ctx) : Nat :=
  ((x.entries.filter (fun e => e.moved && !e.dispatched && e.st = .waiting)).map Entry.size).sum

/-- Received whole charges that have not moved into the hopper, and received bytes of a charge not complete. -/
def ringBytes (x : Ctx) : Nat :=
  ((x.entries.filter (fun e => !e.moved)).map Entry.size).sum + x.partialBuf.length

/-- Write the intake head into the host's shadow word (R64). -/
def shadowWrite (s : State) (c : Nat) : State :=
  let x := getCtx s c
  if x.shadow ≠ 0 && canMaster s x.owner then emit s (.hostWrite x.owner x.shadow (toLE 8 x.head)) else s

/-- An accepted charge of `n` bytes is kept in the hopper region, a ring of the fast tier: how its bytes lie there is open, so
the bytes of the ring that it takes are free values (R66; log 86). -/
def hopperStore (s : State) (c n : Nat) : State :=
  let x := getCtx s c
  let size := 2 ^ x.hopLog2
  let t := (List.range n).foldl (fun m i => tset 0 m (x.hopBase + (x.hopPos + i) % size) (Config.freeByte (s.free + i))) s.mem
  setCtx { s with mem := t, free := s.free + n } c { x with hopPos := (x.hopPos + n) % size }

/-- A charge moves into the hopper: counted, journalled, kept in the hopper region (R66, R400, R443). -/
def enterHopper (s : State) (c : Nat) (e : Entry) : State :=
  let p := (getCtx s c).owner
  journalAccept (bump (hopperStore s c e.size) 0 (if p = .a then 2 else 3) 1) c e

/-- Move whole charges from the intake ring into the hopper while it has room; the head advances, and the shadow is written
when it crosses a 4 KiB boundary or the ring becomes empty (R64, R66). The hopper is full when the bytes of the accepted
charges not yet dispatched would exceed the region's size (the model's choice: log 86). -/
def pump (s : State) (c : Nat) : Nat → State
  | 0 => s
  | fuel + 1 =>
    let x := getCtx s c
    match x.entries.find? (fun e => !e.moved) with
    | none => s
    | some e =>
      if e.size ≠ 0 ∧ 2 ^ x.hopLog2 < hopperBytes x + e.size then s
      else
        let head := (x.head + e.size) % 65536
        let y := { x with entries := updFirst (fun e => !e.moved) (fun e => { e with moved := true }) x.entries, head := head }
        let s := setCtx s c y
        let s := if e.size = 0 then s else enterHopper s c e
        let s := if e.size ≠ 0 ∧ (x.head / 4096 ≠ head / 4096 ∨ ringBytes y = 0) then shadowWrite s c else s
        pump s c fuel

/-- Run the move into the hopper to its end. -/
def pumpAll (s : State) (c : Nat) : State := pump s c ((getCtx s c).entries.length + 1)

/-- A failing intake check: the context is FAULTED, and one record follows those of the charges before it (R65). -/
def intakeFault (s : State) (c status : Nat) (b : List Byte) : State :=
  let e := { parseEntry ((b ++ List.replicate 16 0).take 16) with st := .finished, status := status, size := 0, params := [], reserved := false }
  modCtx s c (fun x =>
    { x with st := .faulted, lastFault := status, partialBuf := [], entries := x.entries ++ [{ e with notify := false }] })

/-- Check headers and take whole charges out of the received bytes (R65). -/
def takeCharges (s : State) (c : Nat) : Nat → State
  | 0 => s
  | fuel + 1 =>
    let x := getCtx s c
    let b := x.partialBuf
    if b.length < 16 then s
    else
      let e := parseEntry b
      if headerCtx b ≠ c then intakeFault s c Status.contextMismatch b
      else if e.cseq ≠ x.nextCseq then intakeFault s c Status.chargeSequence b
      else if 4096 < headerLen b then intakeFault s c Status.chargeMalformed b
      else if b.length < e.size then s
      else takeCharges (setCtx s c { x with partialBuf := b.drop e.size, nextCseq := (x.nextCseq + 1) % 2 ^ 32,
                                            entries := x.entries ++ [e] }) c fuel

/-- Count a discarded posted write (R56). -/
def discard (s : State) (p : HostPort) : State := setPort s p { getPort s p with discard := (getPort s p).discard.addN 1 }

/-- The port decodes its BARs: its link is up, it is in D0 and Memory Space Enable is set (R49, R51). -/
def portReady (s : State) (p : HostPort) : Bool :=
  (getPort s p).linkUp && !(getPort s p).d3hot && (getPort s p).mse

/-- The write holds a whole charge that the intake takes outside the ring's order (R59). The CSEQ of a CTX_RESET taken so is
not checked: the ring whose NEXT_CSEQ it would follow accepts nothing (log 84). -/
def outOfOrder (s : State) (p : HostPort) (c off : Nat) (d : List Byte) : Bool :=
  off = 0 && 16 ≤ d.length && (parseEntry d).size ≤ d.length && headerLen d ≤ 4096 && headerCtx d = c &&
    ((parseEntry d).opcode = 0x001 || (parseEntry d).opcode = 0x003 ||
      ((parseEntry d).opcode = 0x004 && (getCtx s c).st = .faulted && (getCtx s c).owner = p))

/-- INTAKE_WRITE (R59, R63 to R66). -/
def execIntakeWrite (p : HostPort) (ctx off : Nat) (data : List Byte) (s : State) : Res :=
  let x := getCtx s ctx
  .next (
    if !hubUp s || !portReady s p || 1024 ≤ ctx then s
    else if !bridgesUp s then discard s p
    else if outOfOrder s p ctx off data then modCtx s ctx (fun x => { x with arrivals := x.arrivals ++ [(p, data)] })
    else if x.st ≠ .opened ∨ x.owner ≠ p then discard s p
    else if off ≠ x.tail then pumpAll (intakeFault s ctx Status.intakeOffset data) ctx
    else if 65536 < ringBytes x + data.length then pumpAll (intakeFault s ctx Status.intakeOverrun (x.partialBuf ++ data)) ctx
    else
      let s := setCtx s ctx { x with tail := (x.tail + data.length) % 65536, partialBuf := x.partialBuf ++ data }
      pumpAll (takeCharges s ctx ((x.partialBuf.length + data.length) / 16 + 1)) ctx)

/-! ## Dispatch (R35, R67, R409, R411, R426, R434, R459, R460) -/

/-- The first accepted charge that is not dispatched, with the charges before it that have not retired. -/
def nextQueued (x : Ctx) : Option (List Entry × Entry) :=
  match x.entries.span (fun e => e.dispatched || e.st ≠ .waiting) with
  | (before, e :: _) => if e.moved then some (before, e) else none
  | (_, []) => none

/-- Charges dispatched and not retired (R61). -/
def inflight (x : Ctx) : Nat := (x.entries.filter Entry.dispatched).length

/-- The ordering, fence and in-flight conditions hold (R35, R67). -/
def mayDispatch (x : Ctx) (before : List Entry) (e : Entry) : Bool :=
  (x.st = .opened || x.st = .faulted) && inflight x < 64
    && (if isFabric e.opcode && !e.fence then before.all (fun b => isFabric b.opcode) else before.isEmpty)

/-- Charges that the boot lets through before READY (R459), or after a boot that ended early (R426, R460): 0 go on, else
the refusal; none holds the charge. -/
def bootGate (s : State) (op : Nat) : Option Nat :=
  if s.boot.ready || opClass op = 0 || opClass op = 7 || opClass op = 8 then some 0
  else if s.boot.failKind = 1 then some Status.fwImageInvalid
  else if s.boot.failKind = 2 then
    some (if op = 0x900 || op = 0x901 || op = 0x902 then 0 else Status.memTrainFailed)
  else none

/-- Refusals by power state (R411). -/
def powerGate (s : State) (op : Nat) : Nat :=
  if s.power.st = .drawn && !(opClass op = 0 || opClass op = 6 || opClass op = 7 || opClass op = 8)
  then Status.powerStateDrawn else 0

/-- Refusals by lifecycle (R434). -/
def lifecycleGate (s : State) (op : Nat) : Nat :=
  let l := s.sec.lifecycle
  if (op = 0x700 && l = 0) || (op = 0x901 && (l = 0 || l = 2)) || (op = 0x904 && l = 2 && !bitOf s.sec.scopes 0)
  then Status.securityState else 0

/-- The status with which a charge is refused at dispatch, 0 when it runs: reserved opcode or header (R17), administrative
context (R70), boot, power state, lifecycle. -/
def dispatchRefusal (s : State) (x : Ctx) (e : Entry) (boot : Nat) : Nat :=
  firstFail [(!e.reserved && definedOp e.opcode, Status.fieldReserved),
    (!(needsAdmin e.opcode && !x.admin), Status.contextNotAdmin),
    (boot = 0, boot), (powerGate s e.opcode = 0, powerGate s e.opcode),
    (lifecycleGate s e.opcode = 0, lifecycleGate s e.opcode),
    (e.opcode ≠ 0x001 && e.opcode ≠ 0x003, Status.contextOwned)]

/-- What else holds a charge back: a halted fabric (R39), a lost bridge (R29), a REPLAY RUN in progress (R402), an Afiup
restart (R398), a full work queue (R104), an acceptance act or abort mark still to be done (R74, R80). -/
def held (s : State) (c : Nat) (x : Ctx) (e : Entry) : Bool :=
  !hubUp s || !bridgesUp s || (s.power.railLow && !(s.power.st = .drawn && e.opcode = 0x600))
    || (isFabric e.opcode && (match s.journal.running with
        | some _ => c ≠ replayCtx
        | none => false))
    || (!isFabric e.opcode && s.fence.restarting) || backPressed s e
    || ((e.opcode = 0x004 || e.opcode = 0x005 || e.opcode = 0x006) && !e.reserved && !e.acted)
    || x.marks.any (fun m => m.1 = e.cseq)

/-- The first entry that waits is dispatched. -/
def markDispatched (x : Ctx) (f : Entry → Entry) : Ctx :=
  { x with entries := updFirst (fun e => !e.dispatched && e.st = .waiting) f x.entries }

/-- The lasting units that the hub meets when it reads a charge from its hopper region (R241). -/
def hopperFinds (x : Ctx) (f : Finds) : List Nat :=
  (f.mem.map Prod.fst).filter (fun u => overlaps u 64 x.hopBase (2 ^ x.hopLog2))

/-- The port that owns a context; of the private context of a RUN, that of the issuing context (R402). -/
def chargePort (s : State) (c : Nat) : HostPort :=
  match s.journal.running with
  | some r => if c = replayCtx then (getCtx s r.1).owner else (getCtx s c).owner
  | none => (getCtx s c).owner

/-- Dispatch of a fabric charge in IDLE_LIT starts the wake (R409). -/
def startWake (s : State) (op : Nat) : State :=
  if isFabric op && s.power.st = .idleLit then { s with power := { s.power with wake := true } } else s

/-- What the dispatch of a charge that runs leaves behind: its place among those of class 0x7xx (R433), and the time of the step's latest
`SEAL` (R445). -/
def noteDispatch (s : State) (c : Nat) (e : Entry) : State :=
  let s := joinSecure s c e
  if e.opcode = 0x401 ∧ s.step.ctx = c then phaseTime s 5 else s

/-- CHARGE_DISPATCH (R35, R67): refused charges report at once; the intake moves on (R64). -/
def execChargeDispatch (ctx : Nat) (f : Finds) (s : State) : Res :=
  let x := getCtx s ctx
  .next (match nextQueued x with
    | none => s
    | some (before, e) =>
      match bootGate s e.opcode with
      | none => s
      | some boot =>
        if held s ctx x e || !mayDispatch x before e then s
        else
          let y := readUnits f noSubject { s := s } (hopperFinds x f)
          let s := y.s
          let st := if y.bad ≠ [] then Status.memLasting else dispatchRefusal s x e boot
          let s := setCtx s ctx (markDispatched x (fun e =>
            { e with dispatched := true, port := chargePort s ctx, report := if st = 0 then none else some (st, 0)
                     tag := if y.bad ≠ [] then 0 else e.tag, opcode := if y.bad ≠ [] then 0 else e.opcode }))
          let s := if st = 0 then noteDispatch (startWake s e.opcode) ctx e else s
          pumpAll s ctx)

/-! ## The retire stage (R68, R80) -/

/-- EXECUTOR_FINISH_REPORT (R68, R80): the report reaches the retire stage; an ABORT_PENDING entry has ended. -/
def execExecutorFinishReport (ctx cseq : Nat) (s : State) : Res :=
  let f := fun (e : Entry) => match e.report with
    | some r => if e.st = .abortPending then { e with ended := true } else { e with st := .finished, status := r.1, result := r.2 }
    | none => e
  let p := fun (e : Entry) => e.cseq = cseq && e.dispatched && e.st ≠ .finished && e.report.isSome
  .next (modCtx s ctx (fun x => { x with entries := updFirst p f x.entries }))

/-- The class can be aborted while it runs (R81). -/
def abortable (op : Nat) : Bool := isFabric op

/-- What an abort mark finds: 0 nothing to abort, 1 a queued target, 2 a running target. An abort that names itself finds
nothing: it is neither an earlier charge nor one that could report its own abort (log 84). -/
def markFinds (x : Ctx) (m : Nat × Nat) : Nat :=
  match x.entries.find? (fun e => e.cseq = m.2 && e.size ≠ 0 && e.moved) with
  | none => 0
  | some e =>
    if e.cseq = m.1 then 0
    else if !e.dispatched && e.st = .waiting then 1
    else if e.dispatched && e.st = .waiting && abortable e.opcode then 2
    else 0

/-- The abort of a running charge: its executors stop; a collective ends on every member (R81, R323). -/
def abortRunning (s : State) (c cseq : Nat) : State :=
  match collOf s c cseq with
  | some k => originEnd s k Status.chargeAborted Status.peerAborted
  | none => stopCharge s c cseq

/-- ABORT_MARK (R80, R81): the first mark on its way reaches the retire stage. -/
def execAbortMark (ctx : Nat) (s : State) : Res :=
  let x := getCtx s ctx
  .next (match x.marks with
    | [] => s
    | m :: rest =>
      let k := markFinds x m
      let es := if k = 1 then
          updFirst (fun e => e.cseq = m.2 && !e.dispatched && e.st = .waiting)
            (fun e => { e with st := .finished, status := Status.chargeAborted }) x.entries
        else if k = 2 then
          updFirst (fun e => e.cseq = m.2 && e.dispatched && e.st = .waiting) (fun e => { e with st := .abortPending }) x.entries
        else x.entries
      let es := if k = 0 then es else
        updFirst (fun e => e.cseq = m.1 && e.acted && e.st = .waiting) (fun e => { e with result := e.result + 1 }) es
      let s := setCtx s ctx { x with marks := rest, entries := es }
      let s := if k = 2 then abortRunning s ctx m.2 else s
      pumpAll s ctx)

/-- The record of a finished entry. -/
def recOf (s : State) (e : Entry) : Rec :=
  { cseq := e.cseq, time := s.time, result := if e.st = .abortPending then 0 else e.result,
    status := if e.st = .abortPending then Status.chargeAborted else e.status, opcode := e.opcode, tag := e.tag, notify := e.notify }

/-- An entry is ready to retire. -/
def retirable (e : Entry) : Bool := e.st = .finished || (e.st = .abortPending && e.ended)

/-- Closure or takeover of the event ring's context disables the ring (R452). -/
def dropRing (s : State) (c : Nat) : State :=
  match s.tel.ring with
  | some r => if r.ctx = c then { s with tel := { s.tel with ring := none } } else s
  | none => s

/-- What the retirement of a context charge does (R60, R74); a replayed one leaves the private context as it is (R402). Whole
charges that stand behind a CTX_RESET in the intake ring, the hopper being full, go with the ring and leave no record; the
emptied ring is no crossing of the head, and no shadow is written (log 84). -/
def retireEffect (s : State) (c : Nat) (e : Entry) : State :=
  if e.size = 0 ∨ e.st = .abortPending ∨ e.status ≠ 0 ∨ c = replayCtx then s
  else if e.opcode = 0x002 then
    let s := if s.step.st ≠ .idle ∧ s.step.ctx = c then { s with step := { s.step with ctx := noCtx } } else s
    dropRing (modCtx s c (fun x => { x with st := .closed, entries := [], partialBuf := [], marks := [], held := [], takeover := none })) c
  else if e.opcode = 0x004 then
    modCtx s c (fun x => { x with st := if x.st = .orphaned then .orphaned else .opened, tail := 0, head := 0, partialBuf := []
                                  nextCseq := fld (pw e 0) 31 0, entries := x.entries.filter Entry.moved })
  else s

/-- A CTX_CLOSE about to close a context whose takeover is accepted and not yet applied: it waits for TAKEOVER_APPLY, which
comes at the next charge boundary, so that the takeover's record is written and the close's follows it (R72, R73; log 84). -/
def closesBeforeTakeover (x : Ctx) (e : Entry) : Bool := e.opcode = 0x002 && e.status = 0 && x.takeover.isSome

/-- CHARGE_RETIRE (R68, R76 to R78): the first entry retires when it is finished and its record has room; while the context
is ORPHANED the record is held (R59). A held record goes first. -/
def execChargeRetire (ctx : Nat) (s : State) : Res :=
  let x := getCtx s ctx
  .next (
    if x.st ≠ .orphaned ∧ x.held ≠ [] then
      match x.held with
      | r :: rest => if ringRoom x && canMaster s x.owner then writeRec (setCtx s ctx { x with held := rest }) ctx r else s
      | [] => s
    else match x.entries with
      | [] => s
      | e :: rest =>
        let need := ctx ≠ replayCtx && !(e.quiet && e.st = .finished && e.status = 0)
        if !retirable e || !e.moved || closesBeforeTakeover x e then s
        else if need && x.st = .orphaned && 64 ≤ x.held.length then s
        else if need && x.st ≠ .orphaned && !(ringRoom x && canMaster s x.owner) then s
        else
          let r := recOf s e
          let s := phaseRetire (journalRetire s ctx { e with status := r.status, result := r.result }) ctx e
          let s := setCtx s ctx { x with entries := rest, lastCseq := if e.size = 0 then x.lastCseq else e.cseq
                                         held := if need && x.st = .orphaned then x.held ++ [r] else x.held }
          let s := if need && x.st ≠ .orphaned then writeRec s ctx r else s
          pumpAll (retireEffect s ctx e) ctx)

/-- CONSUMED_COUNT_POLL (R77): while the ring appears full, the module reads the host's word, at most once per microsecond. -/
def execConsumedCountPoll (ctx value : Nat) (s : State) : Res :=
  let x := getCtx s ctx
  .next (
    if (x.st = .opened ∨ x.st = .faulted) ∧ ringRoom x = false ∧ x.pollTime ≤ s.time ∧ canMaster s x.owner = true
    then setCtx s ctx { x with consumed := value % 2 ^ 64, pollTime := s.time + 1000 } else s)

/-! ## Flushes -/

/-- Accepted charges before position `n` that are not dispatched and satisfy a test retire with CHARGE_FLUSHED; with their
number (R74). -/
def flushBefore (p : Entry → Bool) : Nat → List Entry → List Entry × Nat
  | 0, es => (es, 0)
  | _ + 1, [] => ([], 0)
  | n + 1, e :: r =>
    let q := flushBefore p n r
    if e.moved && !e.dispatched && e.st = .waiting && p e
    then ({ e with st := .finished, status := Status.chargeFlushed } :: q.1, q.2 + 1) else (e :: q.1, q.2)

/-- The position of an acting entry. -/
def posOf (x : Ctx) (cseq op : Nat) : Nat :=
  (x.entries.findIdx (fun e => e.cseq = cseq && e.opcode = op && e.moved && !e.dispatched && !e.acted && e.st = .waiting))

/-- Set the acting entry's `acted` and first result. -/
def setActed (x : Ctx) (cseq op result : Nat) : Ctx :=
  let p := fun (e : Entry) => e.cseq = cseq && e.opcode = op && e.moved && !e.dispatched && !e.acted && e.st = .waiting
  { x with entries := updFirst p (fun e => { e with acted := true, result := result }) x.entries }

/-- The whole charges that wait for room in the hopper are accepted, in their order, when the context changes hands or a reset
flushes it (R63, R66, R73, R74). -/
def acceptWaiting (s : State) (c : Nat) : State :=
  let es := (getCtx s c).entries
  let t := (es.filter (fun e => !e.moved && e.size ≠ 0)).foldl (fun s e => enterHopper s c e) s
  modCtx t c (fun x => { x with entries := es.map (fun e => { e with moved := true }) })

/-! ## Context charges (R72 to R74) -/

/-- Ring size of the parameters of CTX_OPEN and CTX_TAKEOVER, kept in range for the record of a refused charge. -/
def ringLogOf (e : Entry) : Nat := let n := fld (pw e 0x20) 4 0; if 6 ≤ n ∧ n ≤ 16 then n else 6

/-- Reserved fields of CTX_OPEN and CTX_TAKEOVER are 0 and the addresses aligned (R17, R72); RING_LOG2, HOPPER_LOG2 and
MSIX_VECTOR lie in their ranges, a value outside being refused like a reserved one (log 84). -/
def openFieldsOk (e : Entry) (isOpen : Bool) : Bool :=
  let w := pw e 0x20
  !e.reserved && pw e 0 % 4096 = 0 && pw e 8 % 8 = 0 && pw e 0x10 % 8 = 0 && fld w 31 13 = 0
    && 6 ≤ fld w 4 0 && fld w 4 0 ≤ 16 && (!isOpen || (16 ≤ fld w 9 5 && fld w 9 5 ≤ 24))
    && fld w 47 32 < 1024 && fld w 63 48 = 0 && fld (pw e 0x28) 63 33 = 0 && pw e 0x30 = 0 && pw e 0x38 = 0 && tailZero e 0x40

/-- The record of an open or takeover charge: slot 0 of the ring that the parameters name (R72). -/
def slot0 (s : State) (p : HostPort) (c : Nat) (e : Entry) (status result : Nat) : State :=
  if canMaster s p then
    bump (emit s (.hostWrite p (pw e 0 / 4096 * 4096)
      (recBytes c { cseq := e.cseq, time := s.time, result := result, status := status, opcode := e.opcode, tag := e.tag,
                    notify := e.notify } true))) 0 4 1
  else s

/-- The first charge that arrived out of order, of a given opcode. -/
def firstArrival (x : Ctx) (op : Nat) : Option (HostPort × Entry × List Byte) :=
  match x.arrivals with
  | (p, d) :: _ => if (parseEntry d).opcode = op then some (p, parseEntry d, d) else none
  | [] => none

/-- CTX_OPEN (R60, R72). Fields are checked before the context, the context before the region (log 84). The region lies in the
fast tier, as R66 and R72 say; R32 names spilled hopper middles among what the deep tier holds (log 86). -/
def execCtxOpen (ctx : Nat) (s : State) : Res :=
  let x := getCtx s ctx
  .next (match firstArrival x 0x001 with
    | none => s
    | some (p, e, _) =>
      let s := setCtx s ctx { x with arrivals := x.arrivals.tail }
      let w := pw e 0x20
      let base := pw e 0x18
      let size := 2 ^ fld w 9 5
      let st := firstFail [(openFieldsOk e true, Status.fieldReserved), (x.st = .closed, Status.contextOwned),
        (base % size = 0 && !inHopper s base size, Status.hopperRegionInvalid), (inFast s base size, Status.addressUnpopulated)]
      if st ≠ 0 then slot0 s p ctx e st 0
      else
        let s := slot0 s p ctx e 0 0
        let s := setCtx s ctx
          { st := .opened, owner := p, admin := bitOf w 10, forceAllowed := bitOf w 11, nextCseq := fld (pw e 0x28) 31 0,
            hopBase := base, hopLog2 := fld w 9 5, ringBase := pw e 0, ringLog2 := fld w 4 0, consAddr := pw e 8,
            shadow := pw e 0x10, msixEn := bitOf w 12, msixVec := fld w 47 32, written := 1, arrivals := x.arrivals.tail }
        if bitOf w 12 && e.notify then raiseMsix s p (fld w 47 32) else s)

/-- CTX_TAKEOVER (R60, R73): accepted or refused on arrival; an accepted takeover waits for the next charge boundary. -/
def execCtxTakeover (ctx : Nat) (s : State) : Res :=
  let x := getCtx s ctx
  .next (match firstArrival x 0x003 with
    | none => s
    | some (p, e, d) =>
      let s := setCtx s ctx { x with arrivals := x.arrivals.tail }
      let free := x.st = .orphaned || x.st = .faulted || (x.st = .opened && bitOf (pw e 0x28) 32 && x.forceAllowed)
      let st := firstFail [(openFieldsOk e false, Status.fieldReserved), (free && x.takeover.isNone, Status.contextOwned)]
      if st ≠ 0 then slot0 s p ctx e st 0
      else setCtx s ctx { x with arrivals := x.arrivals.tail, takeover := some (p, d) })

/-- Held records follow the takeover record from slot 1 while the ring has room (R73). -/
def writeHeld (s : State) (c : Nat) : Nat → State
  | 0 => s
  | fuel + 1 =>
    let x := getCtx s c
    match x.held with
    | [] => s
    | r :: rest => if ringRoom x && canMaster s x.owner then writeHeld (writeRec (setCtx s c { x with held := rest }) c r) c fuel else s

/-- TAKEOVER_APPLY (R73): at a charge boundary of the context. -/
def execTakeoverApply (ctx : Nat) (s : State) : Res :=
  let x := getCtx s ctx
  .next (match x.takeover with
    | none => s
    | some (p, d) =>
      let e := parseEntry d
      let w := pw e 0x20
      let res := x.lastCseq * 2 ^ 32 + x.nextCseq
      let s := slot0 (acceptWaiting s ctx) p ctx e 0 res
      let x := getCtx s ctx
      let q := flushBefore (fun e => e.opcode = 0x110 || e.opcode = 0x111) x.entries.length x.entries
      let s := setCtx s ctx { x with
        st := .opened, owner := p, ringBase := pw e 0, ringLog2 := fld w 4 0, consAddr := pw e 8, shadow := pw e 0x10,
        msixEn := bitOf w 12, msixVec := fld w 47 32, tail := 0, head := 0, partialBuf := [], written := 1, consumed := 0,
        pollTime := 0, takeover := none, entries := q.1 }
      let s := if bitOf w 12 && e.notify then raiseMsix s p (fld w 47 32) else s
      writeHeld (dropRing s ctx) ctx 64)

/-- CTX_CLOSE (R74): at dispatch every earlier charge has retired; the closure takes effect at retirement. -/
def execCtxClose (ctx cseq : Nat) (s : State) : Res :=
  .next (onCharge s ctx cseq 0x002 (fun e => report s ctx cseq (if tailZero e 0 then 0 else Status.fieldReserved) 0))

/-- The acceptance act of a flushing charge: `n` charges flushed, then marks for running abortable charges (R74). -/
def actFlush (s : State) (c cseq op : Nat) (abort : Bool) : State :=
  let x := getCtx s c
  let k := posOf x cseq op
  let q := flushBefore (fun _ => true) k x.entries
  let run := if abort then ((x.entries.take k).filter (fun e => e.dispatched && e.st = .waiting && abortable e.opcode)).map Entry.cseq else []
  let x := setActed { x with entries := q.1 } cseq op q.2
  pumpAll (setCtx s c { x with marks := x.marks ++ run.map (fun t => (cseq, t)) }) c

/-- Take a CTX_RESET that arrived out of order while FAULTED into the context's order, behind the charges accepted before it,
also those that wait for room (R59, R66). -/
def admitReset (s : State) (c cseq : Nat) : State :=
  let x := getCtx s c
  match firstArrival x 0x004 with
  | some (_, e, _) =>
    if e.cseq = cseq then
      let t := acceptWaiting (setCtx s c { x with arrivals := x.arrivals.tail }) c
      enterHopper (modCtx t c (fun x => { x with entries := x.entries ++ [{ e with moved := true }] })) c e
    else s
  | none => s

/-- CTX_RESET (R59, R74): it acts when it is accepted; once dispatched it reports the charges flushed and aborted. -/
def execCtxReset (ctx cseq : Nat) (s : State) : Res :=
  let s := admitReset s ctx cseq
  .next (match accepted s ctx cseq 0x004 with
    | some e =>
      if e.reserved then s
      else if pw e 0 / 2 ^ 32 = 0 && tailZero e 8 then actFlush s ctx cseq 0x004 true
      else setCtx s ctx (setActed (getCtx s ctx) cseq 0x004 0)
    | none => onCharge s ctx cseq 0x004 (fun e =>
        if pw e 0 / 2 ^ 32 = 0 && tailZero e 8 then report s ctx cseq 0 e.result else report s ctx cseq Status.fieldReserved 0))

/-- HOPPER_FLUSH (R74): it acts when it is accepted; once dispatched it reports the charges flushed. -/
def execHopperFlush (ctx cseq : Nat) (s : State) : Res :=
  .next (match accepted s ctx cseq 0x005 with
    | some e =>
      if e.reserved then s
      else if tailZero e 0 then actFlush s ctx cseq 0x005 false
      else setCtx s ctx (setActed (getCtx s ctx) cseq 0x005 0)
    | none => onCharge s ctx cseq 0x005 (fun e =>
        if tailZero e 0 then report s ctx cseq 0 e.result else report s ctx cseq Status.fieldReserved 0))

/-- CHARGE_ABORT (R74, R80): accepted, it sends an abort mark to the retire stage; once dispatched it reports what the mark
found. -/
def execChargeAbort (ctx cseq : Nat) (s : State) : Res :=
  .next (match accepted s ctx cseq 0x006 with
    | some e =>
      if e.reserved then s
      else if pw e 0 / 2 ^ 32 = 0 && tailZero e 8 then
        let x := setActed (getCtx s ctx) cseq 0x006 0
        setCtx s ctx { x with marks := x.marks ++ [(cseq, fld (pw e 0) 31 0)] }
      else setCtx s ctx (setActed (getCtx s ctx) cseq 0x006 0)
    | none => onCharge s ctx cseq 0x006 (fun e =>
        if !(pw e 0 / 2 ^ 32 = 0 && tailZero e 8) then report s ctx cseq Status.fieldReserved 0
        else if e.result = 0 then report s ctx cseq Status.nothingToAbort 0 else report s ctx cseq 0 1))

/-- NOP (R70). -/
def execNop (ctx cseq : Nat) (s : State) : Res :=
  .next (onCharge s ctx cseq 0x008 (fun e => report s ctx cseq (if tailZero e 0 then 0 else Status.fieldReserved) 0))

end Sys2Proof.Machine
end

