-- ==== Sys2Proof/Machine/Ports.lean ====
section
/-! DEFINITION. The host ports: BAR4 accesses (R58), BAR0 writes (R54, R55), and the port events of R51. -/

namespace Sys2Proof.Machine

/-! ## BAR4 (R55, R58) -/

/-- The device address of a BAR4 offset. -/
def bar4Addr (s : State) (p : HostPort) (off : Nat) : Nat := ((getPort s p).winBase * 2 ^ 36 + off) % 2 ^ 44

/-- What a BAR4 range reaches. -/
inductive Bar4Target where
  | device
  | scratch (l o : Nat)
  | nothing
deriving DecidableEq, Repr

/-- The target of a BAR4 access: unpopulated addresses, unused window space, the windows of withdrawn cores, register
space and hopper regions of open contexts are refused (R58), and so is what lies behind a lost bridge (R29). -/
def bar4Target (s : State) (a n : Nat) : Bar4Target :=
  if inMem s a n then
    if inHopper s a n || behindLost s a n then .nothing else .device
  else match inWindow a n with
    | some (l, o) => if isBound s l && !behindLost s a n then .scratch l o else .nothing
    | none => .nothing

/-- The access goes to a scratchpad whose stages do not advance (R39): it waits at the crossing (R36, R41). -/
def bar4Waits (s : State) (t : Bar4Target) : Bool :=
  match t with
  | .scratch _ _ => !stagesAdvance s
  | _ => false

/-- BAR4_WRITE (R58, R194, R198, R200, R240 to R242). -/
def execBar4Write (p : HostPort) (off : Nat) (data : List Byte) (f : Finds) (s : State) : Res :=
  .next (
    if !hubUp s || !portReady s p then s
    else
      let a := bar4Addr s p off
      if bar4Waits s (bar4Target s a data.length) then s
      else match bar4Target s a data.length with
      | .nothing => discard s p
      | .device => (writeDev f noSubject { s := s } a data).s
      | .scratch l o =>
        match checkRegion s l 8 .wr [(o, data.length)] 0 with
        | (s, false) => discard s p
        | (s, true) => (writeSp f l 8 { s := s } o data).s)

/-- Bytes read, with every byte of a lasting unit or word left open (R241). -/
def maskBad (s : State) (a : Nat) (d : List Byte) (bad : List Nat) : List Byte :=
  (List.range d.length).map (fun i => if touchesBad bad (a + i) 1 then Config.freeByte (s.free + i) else d.getD i 0)

/-- The completion of a BAR4 read: poisoned data, reported through AER, when a unit or word proved lasting (R49, R241). -/
def answerRead (x : Acc) (p : HostPort) (a : Nat) (d : List Byte) : State :=
  if x.bad = [] then emit x.s (.readData p d)
  else { emit (emit x.s (.readPoisoned p (maskBad x.s a d x.bad))) (.aerReport p) with free := x.s.free + d.length }

/-- BAR4_READ (R58, R198, R241). -/
def execBar4Read (p : HostPort) (off len : Nat) (f : Finds) (s : State) : Res :=
  .next (
    if !hubUp s || !(getPort s p).linkUp then s
    else if !portReady s p then emit s (.readUnsupported p)
    else
      let a := bar4Addr s p off
      if bar4Waits s (bar4Target s a len) then s
      else match bar4Target s a len with
      | .nothing => emit s (.readUnsupported p)
      | .device => answerRead (readUnits f noSubject { s := s } (unitsOf a len)) p a (memB s a len)
      | .scratch l o =>
        match checkRegion s l 8 .rd [(o, len)] 0 with
        | (s, false) => emit s (.readUnsupported p)
        | (s, true) => answerRead (readWords f l 8 { s := s } (wordsOf o len)) p a (spB s l o len))

/-! ## BAR0 writes (R54, R55) -/

/-- Overlay written bytes on a word: byte `i` of the word takes the written byte at `base + i` where there is one. -/
def overlay (old : Nat) (base off : Nat) (d : List Byte) : Nat :=
  leNat ((List.range 8).map (fun i =>
    if off ≤ base + i ∧ base + i < off + d.length then d.getD (base + i - off) 0 else (toLE 8 old).getD i 0))

/-- Write one byte of the MSI-X table; reserved bits of vector control ignore ones (R17). -/
def msixPut (x : Port) (off : Nat) (b : Byte) : Port :=
  let v : Byte := if off % 16 = 12 then b &&& 1 else if 12 < off % 16 then 0 else b
  { x with msix := tset (if off % 16 = 12 then 1 else 0) x.msix off v }

/-- Send the messages of pending vectors that are no longer masked. -/
def flushPba (s : State) (p : HostPort) : State :=
  let x := getPort s p
  if !canMaster s p then s
  else
    let due := x.pba.filter (fun v => (msixByte x (16 * v + 12)).toNat % 2 = 0)
    due.foldl (fun s v => emit s (.msix p v)) (setPort s p { x with pba := x.pba.filter (fun v => !due.contains v) })

/-- REGISTER_WRITE (R54, R55): PORT_WIN and the MSI-X table take the bytes, every other BAR0 location ignores them. -/
def execRegisterWrite (p : HostPort) (off : Nat) (data : List Byte) (s : State) : Res :=
  .next (
    if !hubUp s || !portReady s p then s
    else
      let x := getPort s p
      let x := { x with winBase := fld (overlay (x.winBase * 2 ^ 36) 0x20 off data) 43 36 }
      let x := (List.range data.length).foldl (fun x i =>
        if 0xC0000 ≤ off + i ∧ off + i < 0xC4000 then msixPut x (off + i - 0xC0000) (data.getD i 0) else x) x
      flushPba (setPort s p x) p)

/-! ## Port events (R51, R57, R60, R71) -/

/-- The contexts of a lost port become ORPHANED, and its running host-memory charges end with HOST_PORT_LOST (R51, R60,
R71). -/
def orphan (s : State) (p : HostPort) : State :=
  let host := fun (e : Entry) => e.dispatched && e.st ≠ .finished && e.report.isNone && e.port = p
    && (e.opcode = 0x110 || e.opcode = 0x111)
  { s with ctxs := s.ctxs.map (fun e => (e.1,
    { e.2 with st := if (e.2.st = .opened || e.2.st = .faulted) && e.2.owner = p && e.1 ≠ replayCtx then .orphaned else e.2.st
               entries := e.2.entries.map (fun x => if host x then { x with report := some (Status.hostPortLost, 0) } else x) })) }

/-- An event of R51: the port's window register and MSI-X state return to their reset values. -/
def portLoss (s : State) (p : HostPort) : State :=
  orphan (setPort s p { getPort s p with winBase := 0, msix := [], pba := [] }) p

/-- A reset of a port: the Command register and the configured sizes too, and PORT_DISCARD.OVF (R51, R56; log 87). -/
def portResetState (s : State) (p : HostPort) : State :=
  let s := portLoss s p
  let x := getPort s p
  setPort s p { x with bme := false, mse := false, d3hot := false, cfg := {}, discard := { x.discard with ovf := false } }

/-- PORT_RESET (R51): a conventional or hot reset. -/
def execPortReset (p : HostPort) (s : State) : Res := .next (portResetState s p)

/-- FUNCTION_LEVEL_RESET (R51). -/
def execFunctionLevelReset (p : HostPort) (s : State) : Res := .next (portResetState s p)

/-- D3HOT_ENTRY (R51): the Command register stays; the port masters nothing while in D3hot. -/
def execD3hotEntry (p : HostPort) (s : State) : Res :=
  .next (let s := portLoss s p; setPort s p { getPort s p with d3hot := true })

/-- D3HOT_EXIT (R49, R51): the port returns to D0. -/
def execD3hotExit (p : HostPort) (s : State) : Res := .next (flushPba (setPort s p { getPort s p with d3hot := false }) p)

/-- PORT_LINK_LOSS (R51): the Command register stays. -/
def execPortLinkLoss (p : HostPort) (s : State) : Res :=
  .next (let s := portLoss s p; setPort s p { getPort s p with linkUp := false })

/-- PORT_LINK_UP (R57, R459): the link of a port that has left Detect comes up. -/
def execPortLinkUp (p : HostPort) (s : State) : Res :=
  .next (if hubUp s && (getPort s p).detected then flushPba (setPort s p { getPort s p with linkUp := true }) p else s)

/-- BUS_MASTER_ENABLE_CLEAR (R51). -/
def execBusMasterEnableClear (p : HostPort) (s : State) : Res :=
  .next (let s := portLoss s p; setPort s p { getPort s p with bme := false })

/-- BUS_MASTER_ENABLE_SET (R49, R51): the host configures the port and sets Bus Master Enable; Memory Space Enable and the
sizes of `cfg` are set with it (no row sets them alone; log 87). -/
def execBusMasterEnableSet (p : HostPort) (cfg : PortCfg) (s : State) : Res :=
  .next (if (getPort s p).linkUp then flushPba (setPort s p { getPort s p with bme := true, mse := true, cfg := cfg }) p else s)

/-- PCIE_COMPLETION_TIMEOUT (R48): the HOST_READ that issued the read ends with HOST_PORT_LOST. -/
def execPcieCompletionTimeout (p : HostPort) (ctx cseq : Nat) (s : State) : Res :=
  .next (onCharge s ctx cseq 0x110 (fun e => if e.port = p then report s ctx cseq Status.hostPortLost 0 else s))

end Sys2Proof.Machine
end

