-- ==== Sys2Proof/Machine/Boot.lean ====
section
/-! DEFINITION. Resets and pins (R455 to R457, R470), the boot (R426, R458 to R461), boundary scan (R466) and the sideband
(R472). -/

namespace Sys2Proof.Machine

/-! ## Resets and the enable pin (R405, R455, R470) -/

/-- The input voltage lies where the module may be on: it has crossed 34.0 V and not left 32 V to 48 V since. -/
def inputPresent (mv : Nat) : Bool := 32000 ≤ mv && mv ≤ 48000

/-- POWER_ON_RESET (R405, R455, R470): the input rises through 34.0 V; with MOD_EN low the module stays OFF. -/
def execPowerOnReset (mv : Nat) (s : State) : Res :=
  if 54000 < mv then .fault .absoluteMaximum
  else .next (
    if s.boot.off = false ∨ mv < 34000 ∨ 48000 < mv then s
    else if s.pins.modEn then powerOn s mv
    else { s with power := { s.power with vinNow := mv } })

/-- MOD_EN (R470): low for 10 µs, the module is OFF; rising with input present, it is reset. -/
def execModEn (level : Bool) (s : State) : Res :=
  .next (
    let t := { s with pins := { s.pins with modEn := level } }
    if level = false then (if s.boot.off then t else goOff t s.power.vinNow)
    else if s.boot.off && inputPresent s.power.vinNow then powerOn t s.power.vinNow
    else t)

/-- A module reset: after a thermal shutdown its cause is 3 (R455, R470). -/
def moduleReset (s : State) (cause : Nat) : State := warmState s (if s.boot.shutdown then 3 else cause)

/-- MOD_RESET_N (R455, R470): held low for 10 µs; while OFF it is ignored. -/
def execModResetN (s : State) : Res :=
  .next (
    let t := { s with pins := { s.pins with modReset := true } }
    if s.boot.off || s.pins.modReset then t else moduleReset t 1)

/-- MOD_RESET_N_RELEASE (R470): a held boot resumes. -/
def execModResetNRelease (s : State) : Res :=
  .next { s with pins := { s.pins with modReset := false }, boot := { s.boot with held := false } }

/-- The sideband endpoint answers: from stage 3 until OFF, after a thermal shutdown, and when the boot halts (R415, R426,
R472). -/
def sidebandUp (s : State) : Bool := !s.boot.off && (s.boot.shutdown || 3 ≤ s.boot.stage || s.boot.failKind = 3)

/-- SIDEBAND_RESET_REQUEST (R455). -/
def execSidebandResetRequest (s : State) : Res := .next (if sidebandUp s then moduleReset s 2 else s)

/-! ## The boot (R426, R458, R460) -/

/-- The subsystems that a stage verifies. -/
def stageSubs (n : Nat) : List Nat := [[], [], [0], [1, 2], [3], [], [4], [], [5, 6, 7], [], []].getD n []

/-- A copy passes the checks of R426; `bad` names the subsystems whose stored copy fails signature or digest. -/
def copyPasses (s : State) (k : Nat) (i : Image) (bad : Nat) : Bool :=
  i.valid && !bitOf bad k && s.sec.svn.getD k 0 ≤ i.svn && !(i.eng && s.sec.lifecycle = 2)

/-- Subsystem `k` is verified from its active copy, else from the other, which becomes active; none when both fail. -/
def verifySub (s : State) (k badActive badOther : Nat) : Option State :=
  let p := s.sec.fw.getD k ({}, {})
  let done := fun (s : State) => { s with boot := { s.boot with done := s.boot.done + 2 ^ k } }
  if copyPasses s k p.1 badActive then some (done (applyImage s k p.1))
  else if copyPasses s k p.2 badOther then
    let t := { s with sec := { s.sec with fw := setAt s.sec.fw k (p.2, p.1) }, boot := { s.boot with fallback := s.boot.fallback + 2 ^ k } }
    some (done (applyImage t k p.2))
  else none

/-- Verify subsystems in order; with the first that fails. -/
def verifySubs (badActive badOther : Nat) : List Nat → State → State × Option Nat
  | [], s => (s, none)
  | k :: r, s => match verifySub s k badActive badOther with
    | some t => verifySubs badActive badOther r t
    | none => (s, some k)

/-- The boot ends early at a stage. -/
def failBoot (s : State) (stage kind : Nat) : State :=
  { s with boot := { s.boot with failed := true, stage := stage, failKind := kind } }

/-- The stage after the last one completed: a module reset that keeps memory skips stages 7 and 9 (R458). -/
def nextStage (s : State) : Nat :=
  let n := s.boot.stage + 1
  if !s.boot.zeroMem && (n = 7 || n = 9) then n + 1 else n

/-- One FW_BOOT_FALLBACK record for each subsystem of a list that booted from its other copy (R426). -/
def fallbackRecords (s : State) (ks : List Nat) : State :=
  (ks.filter (fun k => bitOf s.boot.fallback k)).foldl (fun s _ => raiseEv s Status.fwBootFallback 6 noSubject 0 0 0) s

/-- Stage 3: the Afiup runs; what waited for it is raised, and a step lost to the reset is declared (R426, R457). -/
def startAfiup (s : State) : State :=
  let s := fallbackRecords s [0, 1, 2]
  if s.boot.lostDue then
    raiseEv { s with boot := { s.boot with stepLost := true, lostDue := false } } Status.stepStateLost 0 noSubject 0 0 0
  else s

/-- Stage 6: the links of ports that the map marks used start training, or every link when no map is in force (R268). -/
def startLinks (s : State) : State :=
  (List.range 48).foldl (fun s n =>
    if s.map.isNone || bitOf (portExpected s (portOf n)) (linkIndex n) then trainLink s n else s) s

/-- Stage 8: every core holds the libraries and the microcode (R173, R302, R366). -/
def loadLibraries (s : State) : State :=
  let v := fun k => s.sec.version.getD k 0
  (boundCores s).foldl (fun s l => modCore s l (fun x => { x with ucode := v 5, libs := (some (v 6), some (v 7)) })) s

/-- Stage 10: READY, in IDLE_LIT with AUTO_IDLE. -/
def bootReady (s : State) : State :=
  { s with boot := { s.boot with ready := true, tReady := s.time / 1000 % 2 ^ 32 }, power := { s.power with st := .idleLit, autoIdle := true } }

/-- What a stage does beside verifying its subsystems. -/
def stageAction (s : State) (n : Nat) : State :=
  if n = 3 then startAfiup s
  else if n = 4 ∨ n = 6 ∨ n = 8 then
    let t := fallbackRecords s (stageSubs n)
    if n = 6 then startLinks t else if n = 8 then loadLibraries t else t
  else if n = 5 then { s with route := { s.route with cur := resetTable s } }
  else if n = 7 then { s with mem := s.mem.filter (fun c => !inFast s c.1 1), poison := s.poison.filter (fun u => !inFast s u 1) }
  else if n = 9 then { s with mem := s.mem.filter (fun c => inFast s c.1 1), poison := s.poison.filter (fun u => inFast s u 1) }
  else if n = 10 then bootReady s
  else s

/-- BOOT_STAGE_COMPLETE (R426, R458, R460, R470): the next stage completes; `badActive` and `badOther` name the subsystems
whose active or other copy fails its checks, `memOk` says that training and zeroing succeed. -/
def execBootStageComplete (badActive badOther : Nat) (memOk : Bool) (s : State) : Res :=
  .next (
    if s.boot.off || s.boot.shutdown || s.boot.held || s.boot.failed || s.boot.ready || (s.boot.stage = 1 && s.pins.modReset) then s
    else
      let n := nextStage s
      let v := verifySubs badActive badOther (stageSubs n) s
      match v.2 with
      | some k => if k ≤ 2 then failBoot v.1 n 3 else fallbackRecords (failBoot v.1 n 1) (stageSubs n)
      | none =>
        if (n = 4 || n = 7 || n = 9) && !memOk then raiseEv (fallbackRecords (failBoot v.1 4 2) (stageSubs n)) Status.memTrainFailed 0 noSubject 0 0 0
        else stageAction { v.1 with boot := { v.1.boot with stage := n } } n)

/-! ## Port resets and detection (R51, R459, R469) -/

/-- Set a port's reset input. -/
def putPerst (s : State) (p : HostPort) (low : Bool) : State :=
  match p with
  | .a => { s with pins := { s.pins with perstA := low } }
  | .b => { s with pins := { s.pins with perstB := low } }

/-- The port's reset input is asserted. -/
def perstLow (s : State) (p : HostPort) : Bool :=
  match p with
  | .a => s.pins.perstA
  | .b => s.pins.perstB

/-- PERST_DEASSERT (R459): the port's reset input rises. -/
def execPerstDeassert (p : HostPort) (s : State) : Res := .next (putPerst s p false)

/-- PCIE_DETECT_EXIT (R459): 1 ms after stage 3 and the release of its reset, the port leaves Detect. -/
def execPcieDetectExit (p : HostPort) (s : State) : Res :=
  .next (if hubUp s && !perstLow s p then setPort s p { getPort s p with detected := true } else s)

/-! ## Boundary scan (R429, R466) -/

/-- Enter a boundary-scan instruction; while OFF the test port is ignored (R469). -/
def enterTap (s : State) (code : Nat) : State := if s.boot.off then s else { s with pins := { s.pins with tap := code } }

/-- BYPASS. -/
def execBypass (s : State) : Res := .next (enterTap s 0)

/-- The IDCODE register; the manufacturer identity in [11:1] is not given (log 62). -/
def idcodeWord (s : State) : Nat :=
  1 + Config.jedecId % 2 ^ 11 * 2 + 0x0048 * 2 ^ 12 + s.ident.stepping % 2 ^ 4 * 2 ^ 28

/-- IDCODE: the register is shifted out. -/
def execIdcode (s : State) : Res := .next (if s.boot.off then s else emit (enterTap s 1) (.tdo (idcodeWord s)))

/-- SAMPLE/PRELOAD. -/
def execSamplePreload (s : State) : Res := .next (enterTap s 2)

/-- EXTEST, CLAMP and HIGHZ act only while MOD_RESET_N is asserted, else as BYPASS. -/
def enterDrive (s : State) (code : Nat) : State := enterTap s (if s.pins.modReset then code else 0)

def execExtest (s : State) : Res := .next (enterDrive s 3)
def execClamp (s : State) : Res := .next (enterDrive s 4)
def execHighz (s : State) : Res := .next (enterDrive s 5)

/-- TAP_PRIVATE_INSTRUCTION (R429, R466): with the TAP scope open the internal registers are scanned out, in an order that
is not given (log 7); else it acts as BYPASS. -/
def execTapPrivateInstruction (code : Nat) (s : State) : Res :=
  .next (
    if s.boot.off then s
    else if bitOf s.sec.scopes 2 then
      emit (bumpFree (enterTap s 6)) (.tdo (Config.freeWord (s.free + code)).toNat)
    else enterTap s 0)

/-! ## The sideband (R472) -/

/-- The 48-bit provisioned ID; the MIPI manufacturer identity in [47:33] is not given (log 62). -/
def provisionedId (s : State) : Nat := s.ident.serial % 2 ^ 16 + 0x0048 * 2 ^ 16 + Config.mipiId % 2 ^ 15 * 2 ^ 33

/-- ENTDAA: the target answers with its provisioned ID from stage 3, and the bus assigns its dynamic address. -/
def execEntdaa (addr : Nat) (s : State) : Res :=
  .next (if sidebandUp s then emit { s with pins := { s.pins with i3cAddr := some (addr % 128) } } (.sideband (provisionedId s) []) else s)

/-- The value of a sensor: input voltage, input power, hottest junction, power state, lifecycle (R472). -/
def sensor (s : State) (k : Nat) : Nat :=
  if k = 0 then s.power.vinMv else if k = 1 then s.power.pinW else if k = 2 then s.power.tjMax
  else if k = 3 then pwrCode s.power.st else s.sec.lifecycle

/-- MCTP_MESSAGE (R426, R429, R472): a sensor is read; after a halted boot the endpoint reports the failing subsystem; other
requests are those of the HUB scope, whose data is open (log 7). -/
def execMctpMessage (request : Nat) (s : State) : Res :=
  .next (
    if !sidebandUp s || s.pins.i3cAddr.isNone then s
    else if s.boot.failKind = 3 then emit s (.sideband (lowest ((List.range 3).filter (fun k => !bitOf s.boot.done k))) [])
    else if request < 5 then emit s (.sideband (sensor s request) [])
    else if bitOf s.sec.scopes 1 then emit (bumpFree s) (.sideband (Config.freeWord (s.free + request)).toNat [])
    else s)

/-! ## Output pins (R469) -/

/-- Output pins. `none` stands for an undriven or high-impedance pin. -/
structure OutPins where
  bootOk : Option Bool
  fault  : Option Bool        -- FAULT_N: `some false` is low
  therm  : Option Bool        -- THERM_N
  alert  : Option Bool        -- PWR_ALERT_N
  tdo    : Option Bool        -- driven only while a register is shifted out
  prsnt1 : Option Bool        -- tied to module ground
  prsnt2 : Option Bool
deriving DecidableEq, Repr

/-- An open-drain pin that is low under a condition. -/
def openDrain (low : Bool) : Option Bool := if low then some false else none

/-- The levels that the module drives (R469). -/
def outPins (s : State) : OutPins :=
  if s.boot.off then { bootOk := none, fault := none, therm := none, alert := none, tdo := none, prsnt1 := some false, prsnt2 := some false }
  else
    { bootOk := some (3 ≤ s.boot.stage && s.boot.failKind ≠ 3)
      fault := openDrain (s.boot.failed || s.boot.shutdown)
      therm := openDrain (s.power.throttle || s.boot.shutdown)
      alert := openDrain (s.power.low || s.power.high || s.power.cuts ≠ 0)
      tdo := none, prsnt1 := some false, prsnt2 := some false }

end Sys2Proof.Machine
end

