-- ==== Sys2Proof/Machine/Transport.lean ====
section
/-! DEFINITION. The transport of the collective library (R310 to R318, R327): message lines and their mailboxes, what each member sends
in which order, segments, slots and grants, and what relays pass on. -/

namespace Sys2Proof.Machine

/-! ## Transfers of the library (R317, R318) -/

/-- Change a running collective. -/
def modColl (s : State) (k : Coll) (f : Coll → Coll) : State :=
  { s with colls := s.colls.map (fun x => if x.ctx = k.ctx ∧ x.cseq = k.cseq then f x else x) }

/-- The entry of core `l`'s group table (R304). -/
def coreGroup (s : State) (l g : Nat) : Group := tget {} (getCore s l).groups g

/-- One data shot of a transfer whose destination starts on a line; bytes beyond its end are open (R256; log 7). -/
def segmentLine (s : State) (d : List Byte) (i : Nat) : List Byte :=
  let b := (d.drop (64 * i)).take 64
  b ++ (List.range (64 - b.length)).map (fun j => Config.freeByte (s.free + j))

/-- A SEND transfer of the library from core `l` to the same core of another module; its last shot carries a signal of count 1 on
`riser` (R225, R229, R255, R317). The library sends with mover 0 (log 97). A replayed one is discarded at the hub (R402). -/
def librarySend (s : State) (k : Coll) (l coord flow dst riser : Nat) (d : List Byte) : State :=
  let n := cdiv d.length 64
  let lines := (List.range n).map (segmentLine s d)
  let shot := fun (typ seq : Nat) (last : Bool) (p : List Byte) =>
    ({ dest := coord, core := l, vl := 0, epoch := 0, typ := typ, flow := flow, seq := seq % 4096, last := last, rcarry := last
       mcast := false, payload := p, tail := if last then signalWord riser 1 0 0 * 2 ^ 32 + n else 0, replay := k.ctx = replayCtx } : Shot)
  let s := journalSend { s with free := s.free + 64 } k.ctx k.cseq coord l l flow n lines
  let op : Flow := { st := 1, kind := 2, srcCore := l, srcMover := 0, srcCoord := ownCoord s, dst := dst, rowLen := d.length, count := n }
  let s := inject s l (shot 0 0 false (openPayload op))
  bumpCore (lines.zipIdx.foldl (fun s p => inject s l (shot 1 (p.2 + 1) (decide (p.2 + 1 = n)) p.1)) s) l 17 n

/-! ## Message lines (R318) -/

/-- The 64 bytes of a line. -/
def lineBytes (typ : Nat) (x : CollLine) : List Byte :=
  toLE 8 (x.collSeq % 2 ^ 32 + x.k % 128 * 2 ^ 33 + x.opcode % 4096 * 2 ^ 40 + x.group % 256 * 2 ^ 52 + typ % 16 * 2 ^ 60)
    ++ toLE 8 x.ghash.toNat ++ toLE 8 x.w10 ++ toLE 8 x.w18 ++ toLE 8 x.w20 ++ List.replicate 24 0

/-- The fields of a line. -/
def readLine (b : List Byte) : CollLine :=
  let w := w64 b 0
  { group := fld w 59 52, opcode := fld w 51 40, k := fld w 39 33, collSeq := fld w 31 0, ghash := BitVec.ofNat 64 (w64 b 8)
    w10 := w64 b 0x10, w18 := w64 b 0x18, w20 := w64 b 0x20 }

/-- `CTYPE` of a line. -/
def lineType (b : List Byte) : Nat := fld (w64 b 0) 63 60

/-- The line is of a defined type, and the bits that R318 names for none are 0. -/
def lineDefined (b : List Byte) : Bool :=
  let t := lineType b
  let x := readLine b
  1 ≤ t && t ≤ 5 && bitOf (w64 b 0) 32 = false && w64 b 0x28 = 0 && w64 b 0x30 = 0 && w64 b 0x38 = 0
    && (if t = 1 then fld x.w10 63 40 = 0 && fld x.w18 63 41 = 0 && fld x.w20 63 46 = 0
        else if t = 2 then fld x.w10 31 2 = 0 && x.w18 = 0 && x.w20 = 0
        else if t = 3 then fld x.w10 15 14 = 0 && fld x.w10 31 30 = 0 && x.w18 = 0 && x.w20 = 0
        else if t = 4 then fld x.w18 63 60 = 0 && x.w20 = 0
        else fld x.w10 63 14 = 0 && x.w18 = 0 && x.w20 = 0)

/-- A mailbox's offset, riser and flow in a group: box 0 for messages from the predecessor or a lower rank, 1 from the successor or a
higher one (R317, R318). -/
def boxBase (w : List Nat) (box : Nat) : Nat := groupArea w + 0x3C000 + 0x2000 * box
def boxRiser (w : List Nat) (box : Nat) : Nat := groupRiser w + 30 + box
def boxFlow (w : List Nat) (box : Nat) : Nat := groupFlow w + 3 - box

/-- The box of rank `d` for messages of this member: by their places on the ring when they are neighbours on one side only, else by
rank. -/
def boxFor (s : State) (w : List Nat) (d : Nat) : Nat :=
  let r := myRank s w
  let next := decide (d = ringNext w r)
  let prev := decide (d = ringPrev w r)
  if next = prev then (if r < d then 0 else 1) else if next then 0 else 1

/-- Send a line to the module at `coord`, whose number in the sender's counts is `q`: to the next place of the mailbox (R318). -/
def mailTo (s : State) (k : Coll) (l coord q box typ : Nat) (line : CollLine) : State :=
  let g := coreGroup s l k.group
  let w := (getGroup s k.group).params
  let key := 2 * q + box
  let m := lookD 0 g.sentMail key
  let s := if k.ctx = replayCtx then s else
    modCore s l (fun x => { x with groups := tput x.groups k.group { g with sentMail := tput g.sentMail key (m + 1) } })
  librarySend s k l coord (boxFlow w box) (boxBase w box + 64 * (m % 128)) (boxRiser w box) (lineBytes typ line)

/-- Send a line to a rank. -/
def sendLine (s : State) (k : Coll) (l rank box typ : Nat) (line : CollLine) : State :=
  mailTo s k l (hopCoord s k (getGroup s k.group).params box rank) rank box typ line

/-- A line of the collective with its three words. -/
def lineOfColl (s : State) (k : Coll) (w10 w18 w20 : Nat) : CollLine :=
  let g := getGroup s k.group
  { group := k.group, opcode := k.opcode, k := (groupCores g.params).length, collSeq := k.collSeq, ghash := g.hash
    w10 := w10, w18 := w18, w20 := w20 }

/-! ## Slices (R312) -/

/-- The elements of chunk `c` that core number `j` of the group handles: from, to. -/
def chunkSlice (w : List Nat) (e : Entry) (j c : Nat) : Nat × Nat :=
  let n := groupSize w
  let k := (groupCores w).length
  let u := granule (cIn e)
  let lo := chunkBound (cCount e) (cIn e) n c
  let hi := chunkBound (cCount e) (cIn e) n (c + 1)
  let g := cdiv (hi - lo) u
  (min hi (lo + u * (j * g / k)), min hi (lo + u * ((j + 1) * g / k)))

/-- The elements of chunk `c` for core number `j`. -/
def sliceCount (w : List Nat) (e : Entry) (j c : Nat) : Nat := (chunkSlice w e j c).2 - (chunkSlice w e j c).1

/-- The bytes of a block of `n` bytes in granules of `u` that core number `j` handles: from, to. -/
def blockSlice (w : List Nat) (u n j : Nat) : Nat × Nat :=
  let k := (groupCores w).length
  let g := cdiv n u
  (min n (u * (j * g / k)), min n (u * ((j + 1) * g / k)))

/-- The part of a slice of a block of `COUNT` bytes that travels on increasing ranks (direction 0) or on decreasing ones (R315). -/
def halfSlice (w : List Nat) (e : Entry) (dir j : Nat) : Nat × Nat :=
  let p := blockSlice w 64 (cCount e) j
  let h := cdiv (cCount e) 128 * 64
  if dir = 0 then (p.1, max p.1 (min p.2 h)) else (max p.1 (min p.2 h), p.2)

/-- Its length. -/
def halfLen (w : List Nat) (e : Entry) (dir j : Nat) : Nat := (halfSlice w e dir j).2 - (halfSlice w e dir j).1

/-- Tokens from rank `a` to rank `b`, as this member knows them (R316). -/
def tokenCount (s : State) (k : Coll) (w : List Nat) (a b : Nat) : Nat :=
  if k.relay = false ∧ a = myRank s w then k.sends.getD b 0 else lookD 0 k.counts a

/-! ## What a member sends (R313, R315 to R317) -/

/-- Where the bytes of a block come from. -/
inductive Source where
  | mem (a : Nat)                     -- memory from `a`
  | own (a : Nat)                     -- this member's elements from `a`, in FP32
  | part (a off : Nat)                -- landed partial sums from byte `off` of direction 0, each with this member's element
  | final (a off : Nat)               -- the same in the output format
  | landed (dir off : Nat)            -- landed bytes, passed on
  | token (dir upto : Nat)            -- a barrier's token, once `upto` bytes of a direction have landed
deriving DecidableEq, Repr

/-- A block that a member sends in one direction: the destination rank, the pair step, the length and the source. -/
structure Block where
  dest : Nat
  step : Nat
  len  : Nat
  src  : Source
deriving DecidableEq, Repr

/-- The blocks of a reduction on increasing ranks: at ring step `t` rank `r` passes on chunk r − 1 − t, to which it has added its own
elements in the order of R313. -/
def partBlocks (w : List Nat) (e : Entry) (j r : Nat) : List Block :=
  let n := groupSize w
  let len := fun t => 4 * sliceCount w e j ((r + 2 * n - 1 - t) % n)
  (List.range (n - 1)).map (fun t =>
    let a := cSrc e + fmtBytes (cIn e) * (chunkSlice w e j ((r + 2 * n - 1 - t) % n)).1
    { dest := ringNext w r, step := 0, len := len t
      src := if t = 0 then .own a else .part a ((List.range (t - 1)).map (fun u => len (u + 1))).sum })

/-- The byte of direction 0 at which the last partial sums land, those of the own chunk. -/
def ownPartOff (w : List Nat) (e : Entry) (j r : Nat) : Nat :=
  let n := groupSize w
  ((List.range (n - 2)).map (fun u => 4 * sliceCount w e j ((r + 2 * n - 2 - u) % n))).sum

/-- The address of a core's elements of a chunk in the source. -/
def sliceAddr (w : List Nat) (e : Entry) (j c : Nat) : Nat := cSrc e + fmtBytes (cIn e) * (chunkSlice w e j c).1

/-- The finished chunks of an ALL_REDUCE on decreasing ranks. -/
def doneBlocks (w : List Nat) (e : Entry) (j r : Nat) : List Block :=
  let n := groupSize w
  let len := fun t => fmtBytes (cOut e) * sliceCount w e j ((r + t) % n)
  (List.range (n - 1)).map (fun t =>
    { dest := ringPrev w r, step := 0, len := len t
      src := if t = 0 then .final (sliceAddr w e j r) (ownPartOff w e j r)
             else .landed 1 ((List.range (t - 1)).map (fun u => len (u + 1))).sum })

/-- The blocks of ALL_GATHER in a direction. -/
def gatherBlocks (w : List Nat) (e : Entry) (j r dir : Nat) : List Block :=
  let len := halfLen w e dir j
  (List.range (groupSize w - 1)).map (fun t =>
    { dest := if dir = 0 then ringNext w r else ringPrev w r, step := 0, len := len
      src := if t = 0 then .mem (cSrc e + (halfSlice w e dir j).1) else .landed dir ((t - 1) * len) })

/-- The block of BROADCAST in a direction. -/
def castBlocks (w : List Nat) (e : Entry) (j r dir : Nat) : List Block :=
  let q := if dir = 0 then ringNext w r else ringPrev w r
  if groupSize w ≤ 1 ∨ q = cRoot e then []
  else [{ dest := q, step := 0, len := halfLen w e dir j
          src := if r = cRoot e then .mem (cSrc e + (halfSlice w e dir j).1) else .landed dir 0 }]

/-- The blocks of ALL_TO_ALL_V in a direction: pair steps 1 to ⌊n / 2⌋, the one rank of step n / 2 in the direction in which it is the
higher or the lower of the pair (log 98). -/
def tokenBlocks (s : State) (k : Coll) (w : List Nat) (e : Entry) (j r dir : Nat) : List Block :=
  let n := groupSize w
  ((List.range (n / 2)).map (fun i =>
    let d := if dir = 0 then (r + i + 1) % n else (r + n - i - 1) % n
    let q := blockSlice w (cToken e) (cToken e * tokenCount s k w r d) j
    { dest := d, step := i + 1, len := if 2 * (i + 1) = n ∧ decide (r < d) = decide (dir = 1) then 0 else q.2 - q.1
      src := .mem (cSrc e + cToken e * (k.sends.take d).sum + q.1) }))

/-- The tokens of BARRIER: the entry token on increasing ranks from rank 0, then the release token back (R315). A token is a segment
of 64 open bytes (log 97). -/
def barrierBlocks (w : List Nat) (r dir : Nat) : List Block :=
  let n := groupSize w
  if dir = 0 then (if r + 1 < n then [{ dest := r + 1, step := 0, len := 64, src := .token 0 (if r = 0 then 0 else 64) }] else [])
  else if r = 0 then []
  else [{ dest := r - 1, step := 0, len := 64, src := .token (if r + 1 = n then 0 else 1) 64 }]

/-- What rank `r` sends in a direction from core number `j`, in order. -/
def sendPlan (s : State) (k : Coll) (w : List Nat) (e : Entry) (j r dir : Nat) : List Block :=
  if isRed e.opcode then
      (if dir = 0 then partBlocks w e j r else if e.opcode = opAllReduce then doneBlocks w e j r else [])
    else if e.opcode = opAllGather then gatherBlocks w e j r dir
    else if e.opcode = opBroadcast then castBlocks w e j r dir
    else if e.opcode = opAllToAllV then tokenBlocks s k w e j r dir
    else if e.opcode = opBarrier then barrierBlocks w r dir
    else []

/-- A block that arrives: its rank of origin, pair step and length. -/
structure Incoming where
  from_ : Nat
  step  : Nat
  len   : Nat
deriving DecidableEq, Repr

/-- The ranks that send to this one in a direction, in order. -/
def sendersOf (w : List Nat) (e : Entry) (r dir : Nat) : List Nat :=
  let n := groupSize w
  if e.opcode = opAllToAllV then
    (List.range (n / 2)).map (fun i => if dir = 0 then (r + n - i - 1) % n else (r + i + 1) % n)
  else [if dir = 0 then ringPrev w r else ringNext w r]

/-- What arrives at this module in a direction at core number `j`, in order: a member takes what the senders' plans give it, a relay
what the member on that side sends across the bypassed link (R327). -/
def takePlan (s : State) (k : Coll) (w : List Nat) (e : Entry) (j dir : Nat) : List Incoming :=
  let n := groupSize w
  let pick := fun (a b : Nat) => ((sendPlan s k w e j a dir).filter (fun x => x.dest = b)).map (fun x =>
    ({ from_ := a, step := x.step, len := x.len } : Incoming))
  if k.relay then
    match k.hop with
    | some h => if dir = 0 then pick h ((h + 1) % n) else pick ((h + 1) % n) h
    | none => []
  else (sendersOf w e (myRank s w) dir).flatMap (fun q => pick q (myRank s w))

/-! ## Segments (R317) -/

/-- The segments of `n` bytes: offset and length, at most 32 KiB each. -/
def segments (n : Nat) : List (Nat × Nat) := (List.range (cdiv n 32768)).map (fun i => (32768 * i, min 32768 (n - 32768 * i)))

/-- A segment to be sent: destination rank, the source of its block, the offset in it and the length. -/
abbrev OutSeg := Nat × Source × Nat × Nat

/-- The segments that a member sends in a direction; a relay passes on those that land. -/
def outSegs (s : State) (k : Coll) (w : List Nat) (e : Entry) (j dir : Nat) : List OutSeg :=
  if k.relay then
    let offs := fun (i : Nat) => (((takePlan s k w e j dir).take i).map Incoming.len).sum
    (takePlan s k w e j dir).zipIdx.flatMap (fun b => (segments b.1.len).map (fun g => (0, Source.landed dir (offs b.2), g.1, g.2)))
  else (sendPlan s k w e j (myRank s w) dir).flatMap (fun b => (segments b.len).map (fun g => (b.dest, b.src, g.1, g.2)))

/-- The segments that land in a direction: rank of origin, pair step, length. -/
def inSegs (s : State) (k : Coll) (w : List Nat) (e : Entry) (j dir : Nat) : List (Nat × Nat × Nat) :=
  (takePlan s k w e j dir).flatMap (fun b => (segments b.len).map (fun g => (b.from_, b.step, g.2)))

/-- What landed in a direction of a core. -/
def gotBytes (k : Coll) (l dir : Nat) : List Byte := (k.got.find? (fun x => x.1 = 2 * l + dir)).elim [] Prod.snd

/-- The direction and the bytes that must have landed before a segment of a source can be formed. -/
def needOf (e : Entry) (src : Source) (o n : Nat) : Nat × Nat :=
  match src with
  | .mem _ => (0, 0)
  | .own _ => (0, 0)
  | .part _ off => (0, off + o + n)
  | .final _ off => (0, off + (o + n) / fmtBytes (cOut e) * 4)
  | .landed d off => (d, off + o + n)
  | .token d u => (d, u)

/-- The memory that a segment of a source reads. -/
def readsOf (e : Entry) (src : Source) (o n : Nat) : List (Nat × Nat) :=
  let b := fmtBytes (cIn e)
  match src with
  | .mem a => [(a + o, n)]
  | .own a => [(a + o / 4 * b, n / 4 * b)]
  | .part a _ => [(a + o / 4 * b, n / 4 * b)]
  | .final a _ => [(a + o / fmtBytes (cOut e) * b, n / fmtBytes (cOut e) * b)]
  | _ => []

/-- This member's element `i` of those at `a`, as an exact number. -/
def ownElem (s : State) (e : Entry) (a i : Nat) : Num :=
  let b := fmtBytes (cIn e)
  decodeNum (cIn e) (leNat (bytesAt s (a + b * i) b))

/-- The partial sum at byte `off` of what landed, with this member's element added in FP32 (R313). -/
def addPart (s : State) (e : Entry) (got : List Byte) (a off i : Nat) : Num :=
  rne32 (Num.add (decodeNum 8 (wordAt got (off + 4 * i) 4)) (ownElem s e a i))

/-- A number in FP32 or the output format. -/
def numBytes (fmt : Nat) (v : Num) : List Byte := toLE (fmtBytes fmt) (convNum fmt .rne false false v).1

/-- The bytes of a segment. -/
def segBytes (s : State) (k : Coll) (e : Entry) (l : Nat) (src : Source) (o n : Nat) : List Byte :=
  let elems := fun (b : Nat) (f : Nat → List Byte) => (List.range (n / b)).flatMap (fun i => f (o / b + i))
  match src with
  | .mem a => bytesAt s (a + o) n
  | .own a => elems 4 (fun i => numBytes 8 (ownElem s e a i))
  | .part a off => elems 4 (fun i => numBytes 8 (addPart s e (gotBytes k l 0) a off i))
  | .final a off => elems (fmtBytes (cOut e)) (fun i => numBytes (cOut e) (addPart s e (gotBytes k l 0) a off i))
  | .landed d off => slice (gotBytes k l d) (off + o) n
  | .token _ _ => (List.range n).map (fun i => Config.freeByte (s.free + i))

/-! ## One turn of the library on a core (R310, R317) -/

/-- A turn in progress: the machine, the collective as the library knows it, and the trap met: status, address. -/
structure Turn where
  s   : State
  k   : Coll
  bad : Option (Nat × Nat) := none

/-- A read of the library that may trap (R324). -/
def Turn.read (t : Turn) (f : Finds) (l : Nat) (rs : List (Nat × Nat)) (go : Turn → Turn) : Turn :=
  let x := readAt f 0 (coreSubject t.s l 0) { s := t.s } rs
  match x.bad with
  | [] => go { t with s := x.s }
  | b :: _ => { t with s := x.s, bad := some (badStatus x.bad, b) }

/-- The library consumes segments that landed, in order: of a direction, number `i` lies in slot 2 × direction + i mod 2. -/
def consume (f : Finds) (l dir : Nat) (w : List Nat) : List (Nat × Nat × Nat) → Turn → Turn
  | [], t => t
  | seg :: rest, t =>
    let i := lookD 0 t.k.landed (2 * l + dir)
    let slot := 2 * dir + i % 2
    let r := getRiser t.s l (groupRiser w + slot)
    if t.bad.isSome ∨ r.cur = 0 then t
    else
      let a := winAddr l (groupArea w + 0x8000 * slot)
      consume f l dir w rest (t.read f l [(a, seg.2.2)] (fun t =>
        { t with s := setRiser t.s l (groupRiser w + slot) r.granted
                 k := { t.k with landed := tput t.k.landed (2 * l + dir) (i + 1)
                                 got := tput t.k.got (2 * l + dir) (gotBytes t.k l dir ++ bytesAt t.s a seg.2.2) } }))

/-- The earliest pair step of which a direction still has to receive a segment. -/
def openStep (k : Coll) (l dir : Nat) (segs : List (Nat × Nat × Nat)) : Nat :=
  ((segs.drop (lookD 0 k.landed (2 * l + dir))).head?.map (fun x => x.2.1)).getD 0xFFFF

/-- Grants of a direction: at most two outstanding, one source at a time, and of one pair step (R317). -/
def giveGrants (l dir : Nat) (step : Nat) (segs : List (Nat × Nat × Nat)) : Nat → Turn → Turn
  | 0, t => t
  | fuel + 1, t =>
    let key := 2 * l + dir
    let g := lookD 0 t.k.granted key
    let got := lookD 0 t.k.landed key
    match segs[g]? with
    | none => t
    | some x =>
      let same := match segs[g - 1]? with
        | some y => decide (y.1 = x.1)
        | none => true
      if t.k.ctx ≠ replayCtx ∧ (got + 2 ≤ g ∨ step < x.2.1 ∨ (got < g ∧ same = false)) then t
      else
        let w := (getGroup t.s t.k.group).params
        let line := lineOfColl t.s t.k (2 * dir + g % 2 + g * 2 ^ 32) 0 0
        let s := if t.k.relay then mailTo t.s t.k l (relayCoord t.s t.k w (1 - dir)) dir (1 - dir) 2 line
                 else sendLine t.s t.k l x.1 (1 - dir) 2 line
        giveGrants l dir step segs fuel { t with s := s, k := { t.k with granted := tput t.k.granted key (g + 1) } }

/-- Segments of a direction that can be formed are sent, in order, each against a grant. A replay takes what was captured as granted
(R402). -/
def sendSegs (f : Finds) (l dir : Nat) (w : List Nat) (e : Entry) : List OutSeg → Turn → Turn
  | [], t => t
  | (d, src, o, n) :: rest, t =>
    let need := needOf e src o n
    let grant := if t.k.ctx = replayCtx then some (l, 2 * dir, 0) else t.k.grants.find? (fun g => g.1 = l && g.2.1 / 2 = dir)
    match grant with
    | none => t
    | some g =>
      if t.bad.isSome ∨ (gotBytes t.k l need.1).length < need.2 then t
      else
        sendSegs f l dir w e rest (t.read f l (readsOf e src o n) (fun t =>
          let coord := if t.k.relay then relayCoord t.s t.k w dir else hopCoord t.s t.k w dir d
          let s := librarySend t.s t.k l coord (groupFlow w + dir) (groupArea w + 0x8000 * g.2.1) (groupRiser w + g.2.1)
            (segBytes t.s t.k e l src o n)
          let key := 2 * l + dir
          { t with s := s, k := { t.k with sent := tput t.k.sent key (lookD 0 t.k.sent key + 1), grants := t.k.grants.erase g } }))

/-- One turn on core `l`, number `j` of the group. -/
def coreTurn (f : Finds) (w : List Nat) (e : Entry) (t : Turn) (p : Nat × Nat) : Turn :=
  let l := p.1
  let ins := fun (t : Turn) (d : Nat) => inSegs t.s t.k w e p.2 d
  let t := [0, 1].foldl (fun t d => consume f l d w ((ins t d).drop (lookD 0 t.k.landed (2 * l + d))) t) t
  let step := min (openStep t.k l 0 (ins t 0)) (openStep t.k l 1 (ins t 1))
  let t := [0, 1].foldl (fun t d => if t.bad.isSome || (t.k.relay && !t.k.readyIn.contains (l, d)) then t else
    giveGrants l d step (ins t d) (if t.k.ctx = replayCtx then (ins t d).length else 2) t) t
  [0, 1].foldl (fun t d =>
    sendSegs f l d w e ((outSegs t.s t.k w e p.2 d).drop (lookD 0 t.k.sent (2 * l + d))) t) t

/-- Every segment has landed and left, on every core. -/
def moved (s : State) (k : Coll) (w : List Nat) (e : Entry) : Bool :=
  (groupCores w).zipIdx.all (fun p => [0, 1].all (fun d =>
    lookD 0 k.landed (2 * p.1 + d) = (inSegs s k w e p.2 d).length && lookD 0 k.sent (2 * p.1 + d) = (outSegs s k w e p.2 d).length))

/-- Block number `i` of what landed in a direction of a core. -/
def gotBlock (s : State) (k : Coll) (w : List Nat) (e : Entry) (p : Nat × Nat) (dir i : Nat) : List Byte :=
  let ins := takePlan s k w e p.2 dir
  match ins[i]? with
  | some b => slice (gotBytes k p.1 dir) ((ins.take i).map Incoming.len).sum b.len
  | none => []

end Sys2Proof.Machine
end

