-- ==== Sys2Proof/Machine/Collectives.lean ====
section
/-! DEFINITION. Collectives (R302 to R327): GROUP_DEFINE, the six collective charges, the messages of the library, early ends and
stalls, and the negative acknowledgement at its mover (R229, R259). A charge's row is taken again while its exchange is in progress:
each time the library takes one turn on every core. -/

namespace Sys2Proof.Machine

/-! ## GROUP_DEFINE (R304, R305) -/

/-- The parameter words of a group definition. -/
def groupWords (e : Entry) : List Nat := (List.range 6).map (fun i => pw e (8 * i))

/-- Reserved bits of GROUP_DEFINE are 0, and so is the span of an unselected axis. -/
def groupFieldsOk (e : Entry) : Bool :=
  let w := groupWords e
  fld (gw w 1) 63 24 = 0 && fld (gw w 2) 63 14 = 0 && fld (gw w 4) 63 16 = 0 && fld (gw w 5) 31 23 = 0
    && fld (gw w 5) 47 44 = 0 && fld (gw w 5) 63 58 = 0 && tailZero e 0x30
    && (List.range 5).all (fun a => !bitOf (spanBits w a) 15 && ((groupAxes w).contains a || spanBits w a = 0))

/-- This module relays for the group. -/
def groupRelay (w : List Nat) : Bool := bitOf (gw w 2) 13

/-- The spans, the working area, the risers and the flows are valid. -/
def groupValid (s : State) (w : List Nat) : Bool :=
  s.map.isSome && (groupAxes w).all (fun a =>
      let q := groupSpan w a
      q.1 + (q.2.1 - 1) * q.2.2 < ringLen s a)
    && groupArea w % 65536 = 0 && groupArea w + 262144 ≤ spSize && groupRiser w % 32 = 0 && groupFlow w % 4 = 0

/-- A collective on the group is queued or running on this module. -/
def groupBusy (s : State) (g : Nat) : Bool :=
  s.colls.any (fun k => k.group = g)
    || s.ctxs.any (fun c => c.2.entries.any (fun e => e.moved && e.st ≠ .finished && e.report.isNone
        && 0x310 ≤ e.opcode && e.opcode ≤ 0x315 && fld (pw e 0) 7 0 = g))

/-- The masters that the collective library uses may read and write the working area on every named core. -/
def areaAllowed (s : State) (w : List Nat) : Bool :=
  (groupCores w).all (fun l => [0, 1, 4, 5, 6, 7, 8].all (fun m => [Kind.rd, Kind.wr].all (fun k =>
    (firstRefused (getCore s l).region m k [(groupArea w, 262144)]).isNone)))

/-- The status of GROUP_DEFINE at dispatch. -/
def groupStatus (s : State) (e : Entry) : Nat :=
  let w := groupWords e
  firstFail [(groupFieldsOk e, Status.fieldReserved), (namedCores e != [], Status.coreMaskEmpty),
    ((namedCores e).all (isBound s), Status.coreWithdrawn), (groupValid s w, Status.collGroupInvalid),
    (groupRelay w || (rankOf w (ownCoord s)).isSome, Status.collNotMember),
    (!groupBusy s (fld (gw w 2) 7 0), Status.collGroupBusy), (areaAllowed s w, Status.scratchRegion)]

/-- GROUP_DEFINE (R304, R305): an item on every bound core. -/
def execGroupDefine (ctx cseq : Nat) (s : State) : Res :=
  .next (itemCharge s ctx cseq 0x300 (groupStatus s) (fun e =>
    placeItems s ctx cseq (boundCores s) (fun _ =>
      { kind := .groupDefine, ctx := ctx, cseq := cseq, entry := fld (gw (groupWords e) 2) 7 0 })))

/-- The table entry that a definition writes. -/
def newGroup (w : List Nat) : Group :=
  { params := w, hash := groupHash (w.set 2 (gw w 2 - b2n (groupRelay w) * 2 ^ 13)), nextSeq := 0 }

/-- A definition's item on a core writes the core's entry, the first one also what the hub knows of the group; a core that the mask
does not name clears its entry, a named one also resets risers and working area (R304, R305). -/
def runGroupItem (s : State) (l : Nat) (i : Item) : State :=
  match running s i.ctx i.cseq 0x300 with
  | none => endItem s l
  | some e =>
    let w := groupWords e
    let g := newGroup w
    let s := if e.phase = 1 then
        modRunning { s with groups := tput s.groups i.entry g, ends := s.ends.filter (fun x => x.1 ≠ g.hash)
                            rings := s.rings.filter (fun x => x.1 ≠ g.hash), mail := s.mail.filter (fun m => m.2.2.group ≠ i.entry) }
          i.ctx i.cseq (fun e => { e with phase := 2 })
      else s
    let s := modCore s l (fun x => { x with groups := x.groups.filter (fun y => y.1 ≠ i.entry) })
    let s := if (namedCores e).contains l then modCore s l (fun x =>
        let a := groupArea w
        let b := groupRiser w
        { x with groups := tput x.groups i.entry g
                 risers := (List.range 32).foldl (fun t k => tput t (b + k) {}) x.risers
                 scratch := x.scratch.filter (fun c => c.1 < a || a + 262144 ≤ c.1)
                 spBad := x.spBad.filter (fun c => c < a || a + 262144 ≤ c) })
      else s
    endItem s l

/-! ## Collective charges: parameters and checks (R308, R309) -/

/-- Reserved bits are 0, addresses aligned, and fields that the operation does not use are 0. -/
def collFieldsOk (e : Entry) : Bool :=
  let op := e.opcode
  cSrc e % 64 = 0 && fld (cSrc e) 63 44 = 0 && cDst e % 64 = 0 && fld (cDst e) 63 44 = 0 && fld (cCount e) 63 40 = 0
    && fld (pw e 0x20) 63 34 = 0 && cSendCounts e % 64 = 0 && cRecvCounts e % 64 = 0 && tailZero e 0x40
    && (isRed op || (cIn e = 0 && cOut e = 0)) && (op = opBroadcast || cRoot e = 0)
    && (op ≠ opBarrier || (cSrc e = 0 && cDst e = 0)) && ((op ≠ opAllToAllV && op ≠ opBarrier) || cCount e = 0)
    && (op = opAllToAllV || (cSendCounts e = 0 && cRecvCounts e = 0 && pw e 0x38 = 0))
    && (cDetour e || (cHop e = 0 && cAxis e = 0 && cDir e = 0))

/-- The detour fields are valid for a group (R327). -/
def detourOk (s : State) (w : List Nat) (e : Entry) : Bool :=
  match groupAxes w with
  | [a] =>
    let n := groupSize w
    let u := (groupSpan w a).1 + cHop e
    let v := (groupSpan w a).1 + (cHop e + 1) % n
    (groupSpan w a).2.2 = 1 && cHop e < n && 2 ≤ n && (u + 1) % ringLen s a = v % ringLen s a
      && cAxis e ≤ 4 && cAxis e ≠ a && 2 ≤ ringLen s (cAxis e)
  | _ => false

/-- The formats, the count, the root and the detour fields are valid. -/
def collDescOk (s : State) (w : List Nat) (e : Entry) : Bool :=
  let op := e.opcode
  let fmt := fun (f : Nat) => f = 6 || f = 7 || f = 8
  (cRelay e = groupRelay w) && (!isRed op || (fmt (cIn e) && fmt (cOut e)))
    && (op = opBarrier || op = opAllToAllV || 1 ≤ cCount e)
    && (!(op = opAllGather || op = opBroadcast) || cCount e % 64 = 0) && (op ≠ opBroadcast || cRoot e < groupSize w)
    && (op ≠ opAllToAllV || (64 ≤ cToken e && cToken e ≤ 65536 && cToken e % 64 = 0))
    && (!cDetour e || detourOk s w e)

/-- The count tables of `ALL_TO_ALL_V`. -/
def countTables (w : List Nat) (e : Entry) : List (Nat × Nat) :=
  if e.opcode = opAllToAllV ∧ cRelay e = false then [(cSendCounts e, 4 * groupSize w), (cRecvCounts e, 4 * groupSize w)] else []

/-- The tokens that ALL_TO_ALL_V sends from this member, by its send counts as they lie; a range that leaves populated memory is left to
the count phase (R309, R316; log 98). -/
def tokenSrc (s : State) (w : List Nat) (e : Entry) : Option (Nat × Nat) :=
  let n := groupSize w
  let size := cToken e * ((List.range n).map (fun i => leNat (memB s (cSendCounts e + 4 * i) 4))).sum
  if e.opcode = opAllToAllV ∧ cRelay e = false ∧ inMem s (cSendCounts e) (4 * n) = true ∧ inMem s (cSrc e) size = true ∧ size ≠ 0
    then some (cSrc e, size) else none

/-- The status of a collective charge of context `c` at dispatch (R309); a replayed one repeats its sequence number (R402). -/
def collStatus (s : State) (c : Nat) (e : Entry) : Nat :=
  let g := getGroup s (cGroup e)
  let w := g.params
  let src := (collSrc s w e).or (tokenSrc s w e)
  let dst := collDst s w e
  let all := (src.toList ++ dst.toList ++ countTables w e).filter (fun r => r.2 ≠ 0)
  firstFail [(collFieldsOk e, Status.fieldReserved), (g.defined, Status.collGroupUndefined),
    ((groupCores w).all (isBound s), Status.coreWithdrawn), (cRelay e || cSeq e = g.nextSeq || c = replayCtx, Status.collSequence),
    (collDescOk s w e, Status.collDescInvalid), (all.all (fun r => inMem s r.1 r.2), Status.addressUnpopulated),
    (!all.any (fun r => inHopper s r.1 r.2), Status.hopperRegionProtected),
    (match src, dst with
      | some a, some b => a = b || !overlaps a.1 a.2 b.1 b.2
      | _, _ => true, Status.moveOverlap)]

/-! ## Placing a collective (R303, R309, R323) -/

/-- The next sequence number of a group advances. -/
def advanceSeq (s : State) (n : Nat) : State :=
  let g := getGroup s n
  { s with groups := tput s.groups n { g with nextSeq := (g.nextSeq + 1) % 2 ^ 32 } }

/-- The collective that a charge starts. -/
def newColl (c cseq : Nat) (e : Entry) : Coll :=
  { ctx := c, cseq := cseq, opcode := e.opcode, group := cGroup e, collSeq := cSeq e, relay := cRelay e
    hop := if cDetour e then some (cHop e) else none, axis := cAxis e, dir := cDir e }

/-- An end message that was kept gives the outcome and withdraws the group (R323); else one item goes to each core of the
group. A replayed collective takes no sequence number and no end message. -/
def placeColl (s : State) (c cseq : Nat) (e : Entry) : State :=
  let g := getGroup s (cGroup e)
  let s := if c = replayCtx then s else advanceSeq s (cGroup e)
  match s.ends.find? (fun x => x.1 = g.hash && x.2.1 = cSeq e && c ≠ replayCtx) with
  | some x => report (withdrawGroup s (cGroup e)) c cseq x.2.2.1 0
  | none =>
    placeItems { s with colls := s.colls ++ [newColl c cseq e] } c cseq (groupCores g.params)
      (fun _ => { kind := .collective, ctx := c, cseq := cseq, entry := cGroup e })

/-! ## Messages of the library (R310, R318) -/

/-- The dispatched entry of a running collective. -/
def collEntry (s : State) (k : Coll) : Option Entry := running s k.ctx k.cseq k.opcode

/-- The fields of this member's READY line but for the sender rank. -/
def readyLine (s : State) (k : Coll) (e : Entry) : CollLine :=
  lineOfColl s k (cCount e)
    (cIn e + cOut e * 2 ^ 4 + cRoot e * 2 ^ 8 + b2n (cDetour e) * 2 ^ 22 + cHop e * 2 ^ 23 + cAxis e * 2 ^ 37 + cDir e * 2 ^ 40) (cToken e)

/-- A line as the comparison of R310 sees it: without the group number and the sender rank. -/
def lineShape (x : CollLine) : CollLine := { x with group := 0, w20 := x.w20 % 2 ^ 32 }

/-- The first act of an item: a ready message to both ring neighbours (R310). -/
def sendReady (s : State) (k : Coll) (l : Nat) : State :=
  match collEntry s k with
  | none => s
  | some e =>
    let w := (getGroup s k.group).params
    let r := myRank s w
    let line := { readyLine s k e with w20 := cToken e + r * 2 ^ 32 }
    if k.relay || groupSize w ≤ 1 then s
    else sendLine (sendLine s k l (ringPrev w r) 1 1 line) k l (ringNext w r) 0 1 line

/-- This member finds a line that differs: it is the origin of COLL_SHAPE_MISMATCH (R310, R318, R324). -/
def shapeMismatch (s : State) (k : Coll) : State := originEnd s k Status.collShapeMismatch Status.collShapeMismatch

/-- A line for a later collective waits in the library's working data; box 1 counts 8. -/
def keepLine (s : State) (l box typ : Nat) (line : CollLine) : State := { s with mail := s.mail ++ [(l, 8 * box + typ, line)] }

/-- The message is of the running collective. -/
def ofColl (s : State) (k : Coll) (line : CollLine) : Bool :=
  line.ghash = (getGroup s k.group).hash && line.collSeq = k.collSeq

/-- A relay passes a line on in its direction of travel (R327). -/
def passOn (s : State) (k : Coll) (l box typ : Nat) (line : CollLine) : State :=
  if k.relay && k.hop.isSome then mailTo s k l (relayCoord s k (getGroup s k.group).params box) box box typ line else s

/-- READY from a side (box 0 the predecessor): compared with this module's own; a line of the next collective waits for its item. -/
def onReady (l box : Nat) (s : State) (k : Coll) (line : CollLine) : State :=
  match collEntry s k with
  | none => s
  | some e =>
    if line.collSeq ≠ k.collSeq ∧ k.readyIn.contains (l, box) = true then keepLine s l box 1 line
    else if lineShape line ≠ lineShape (readyLine s k e) then shapeMismatch s k
    else passOn (modColl s k (fun x => { x with readyIn := x.readyIn ++ [(l, box)] })) k l box 1 line

/-- A line of another type: one of a later collective waits for its item. -/
def onLine (l box typ : Nat) (s : State) (k : Coll) (line : CollLine) (f : State → State) : State :=
  if ofColl s k line then f s else keepLine s l box typ line

/-- GRANT: the next segment may be placed in a slot. -/
def onGrant (l box : Nat) (s : State) (k : Coll) (line : CollLine) : State :=
  onLine l box 2 s k line (fun s => modColl s k (fun x => { x with grants := x.grants ++ [(l, fld line.w10 1 0, fld line.w10 63 32)] }))

/-- COUNT: a send count for this member, or one that a relay passes on. -/
def onCount (l box : Nat) (s : State) (k : Coll) (line : CollLine) : State :=
  onLine l box 3 s k line (fun s =>
    if k.relay || fld line.w10 29 16 = myRank s (getGroup s k.group).params then
      passOn (modColl s k (fun x => { x with counts := tput x.counts (fld line.w10 13 0) (fld line.w10 63 32) })) k l box 3 line
    else s)

/-- DIGEST: a chunk owner's report. -/
def onDigest (l box : Nat) (s : State) (k : Coll) (line : CollLine) : State :=
  onLine l box 4 s k line (fun s =>
    if k.relay then passOn s k l box 4 line
    else modColl s k (fun x =>
      { x with owners := x.owners ++ [(fld line.w18 13 0, fld line.w18 20 14, BitVec.ofNat 64 line.w10, fld line.w18 59 21)] }))

/-- FINISH: a detour member has finished. -/
def onFinish (l box : Nat) (s : State) (k : Coll) (line : CollLine) : State :=
  onLine l box 5 s k line (fun s => modColl s k (fun x => { x with finishes := insNat x.finishes (fld line.w10 13 0) }))

/-! ## Ends by a trap (R324) -/

/-- An item of the collective traps on core `l`: the library's program counter is not given (log 7). The member is the origin
of the early end (R324). -/
def collTrap (s : State) (k : Coll) (l status a : Nat) : State :=
  let pc := 30720 + (Config.freeWord s.free).toNat % 2048
  let s := raiseEv (bumpFree s) status 1 (coreSubject s l 0) pc a (k.cseq + k.ctx % 1024 * 2 ^ 32)
  originEnd s k status Status.peerAborted

/-- The library reads for the collective on core `l`: the machine after the read, or the trap on a lasting unit or word (R231, R324). -/
def collRead (f : Finds) (s : State) (k : Coll) (l a n : Nat) (go : State → State) : State :=
  let x := readAt f 0 (coreSubject s l 0) { s := s } [(a, n)]
  match x.bad with
  | b :: _ => collTrap x.s k l (badStatus x.bad) b
  | [] => go x.s

/-- Write a range of memory for the collective, or trap on a lasting unit that is written in part. -/
def collWrite (f : Finds) (s : State) (k : Coll) (a : Nat) (d : List Byte) (go : State → State) : State :=
  let l := (groupCores (getGroup s k.group).params).headD 0
  let y := writeDev f (coreSubject s l 0) { s := s } a d
  match y.bad with
  | u :: _ => collTrap y.s k l Status.memLasting u
  | [] => go y.s

/-! ## The mailboxes (R317, R318) -/

/-- The collective whose item runs on core `l`. -/
def collOn (s : State) (l : Nat) : Option Coll := s.colls.find? (fun k => k.started.contains l && k.ctx ≠ replayCtx)

/-- The library takes the next line of a mailbox of its group, when one of type `typ` has landed: the landing's signal is consumed. A
line with a reserved type or bit ends the collective, whichever row takes it. -/
def takeLine (s : State) (l box : Nat) (f : Finds) (typ : Nat) (go : State → Coll → CollLine → State) : State :=
  match collOn s l with
  | none => s
  | some k =>
    let w := (getGroup s k.group).params
    let g := coreGroup s l k.group
    let m := lookD 0 g.took box
    let a := winAddr l (boxBase w box + 64 * (m % 128))
    let b := bytesAt s a 64
    let r := getRiser s l (boxRiser w box)
    if r.cur = 0 ∨ coreRuns s l = false ∨ (lineDefined b ∧ lineType b ≠ typ) then s
    else collRead f s k l a 64 (fun s =>
      let s := modCore (setRiser s l (boxRiser w box) r.granted) l (fun x =>
        { x with groups := tput x.groups k.group { g with took := tput g.took box (m + 1) } })
      if lineDefined b then go s k (readLine b) else shapeMismatch s k)

/-- READY (R310). -/
def execReady (core box : Nat) (f : Finds) (s : State) : Res := .next (takeLine s core box f 1 (onReady core box))

/-- GRANT (R317, R318). -/
def execGrant (core box : Nat) (f : Finds) (s : State) : Res := .next (takeLine s core box f 2 (onGrant core box))

/-- COUNT (R316, R318). -/
def execCount (core box : Nat) (f : Finds) (s : State) : Res := .next (takeLine s core box f 3 (onCount core box))

/-- DIGEST (R318, R321). -/
def execDigest (core box : Nat) (f : Finds) (s : State) : Res := .next (takeLine s core box f 4 (onDigest core box))

/-- FINISH (R318, R327). -/
def execFinish (core box : Nat) (f : Finds) (s : State) : Res := .next (takeLine s core box f 5 (onFinish core box))

/-- The item that starts takes the lines that wait for its group on its core, in order. -/
def drainMail (s : State) (l : Nat) (k : Coll) : State :=
  let mine := fun (m : Nat × Nat × CollLine) => m.1 = l && m.2.2.group = k.group
  (s.mail.filter mine).foldl (fun t m =>
    let box := m.2.1 / 8
    if m.2.1 % 8 = 1 then onReady l box t k m.2.2
    else if m.2.1 % 8 = 2 then onGrant l box t k m.2.2
    else if m.2.1 % 8 = 3 then onCount l box t k m.2.2
    else if m.2.1 % 8 = 4 then onDigest l box t k m.2.2
    else onFinish l box t k m.2.2) { s with mail := s.mail.filter (fun m => !mine m) }

/-- A collective item starts on core `l` (R302, R303, R310). -/
def runCollItem (s : State) (l : Nat) (i : Item) : State :=
  let s := if (getCore s l).dirtyColl then reloadLib s l true else s
  match collOf s i.ctx i.cseq with
  | some k => drainMail (sendReady (modColl s k (fun x => { x with started := insNat x.started l })) k l) l k
  | none => modRun s l (fun r => { r with stopping := true })

/-! ## Digests and records (R312, R319 to R321, R359) -/

/-- Slice `j` of `k` of a block, in granules of `u` bytes. -/
def sliceOf (d : List Byte) (u k j : Nat) : List Byte :=
  let g := cdiv d.length u
  (d.drop (u * (j * g / k))).take (u * ((j + 1) * g / k) - u * (j * g / k))

/-- A digest and what it covers: A, B, slice, role, digest, bytes. -/
abbrev DigestRec := Nat × Nat × Nat × Nat × Word64 × Nat

/-- The records of one block over the `k` slices. -/
def blockRecs (hash : Word64) (seq k u a b role : Nat) (d : List Byte) : List DigestRec :=
  (List.range k).map (fun j =>
    let p := sliceOf d u k j
    (a, b, j, role, collDigest hash seq j a b (wordsLE p), p.length))

/-- The 32 bytes of a digest record (R320). -/
def digestBytes (s : State) (k : Coll) (r : DigestRec) : List Byte :=
  toLE 32 (s.astep.toNat + r.2.2.2.2.2 % 2 ^ 39 * 2 ^ 64 + r.2.2.2.1 * 2 ^ 103 + r.2.2.1 * 2 ^ 105 + r.2.1 * 2 ^ 112 + r.1 * 2 ^ 126
    + k.opcode * 2 ^ 140 + k.group * 2 ^ 152 + k.collSeq * 2 ^ 160 + r.2.2.2.2.1.toNat * 2 ^ 192)

/-- Append a record to core `l`'s share of the digest log; one that does not fit sets the overflow flag (R359). -/
def logRecord (s : State) (l : Nat) (b : List Byte) : State :=
  let share := s.step.logBytes / 88
  let n := tget 0 s.step.logUsed l
  if share < 32 * n + 32 then { s with step := { s.step with logOvf := true } }
  else
    let t := putMem s (s.step.logBase + l * share + 32 * n) b
    { t with step := { t.step with logUsed := tput t.step.logUsed l (n + 1), log := t.step.log ++ [(l, b)] } }

/-- Every core writes its records when a step of the charge's context is in progress. -/
def writeRecs (s : State) (k : Coll) (rs : List DigestRec) : State :=
  if s.step.st = .idle ∨ s.step.ctx ≠ k.ctx then s
  else
    let cores := groupCores (getGroup s k.group).params
    rs.foldl (fun s r => logRecord s (cores.getD r.2.2.1 0) (digestBytes s k r)) s

/-! ## Ends -/

/-- The collective has ended well on this member: records, RESULT, finish messages of a detour, and its items end. -/
def endColl (s : State) (k : Coll) (rs : List DigestRec) : State :=
  let w := (getGroup s k.group).params
  let cores := groupCores w
  let n := groupSize w
  let r := myRank s w
  let s := journalColl (writeRecs s k rs) k
  let s := match k.hop with
    | some h =>
      if k.relay = false ∧ (r = h ∨ r = (h + 1) % n) then
        let box := if r = h then 0 else 1
        cores.foldl (fun s l => [(h, n), ((h + 1) % n, n + 1)].foldl (fun s q =>
          mailTo s k l (relayOf s k w q.1) q.2 box 5 (lineOfColl s k r 0 0)) s) s
      else s
    | none => s
  let s := report s k.ctx k.cseq 0 (if k.opcode = opBarrier ∨ k.relay then 0 else (foldDigests (rs.map (fun r => r.2.2.2.2.1))).toNat)
  let s := { s with colls := s.colls.filter (fun x => !(x.ctx = k.ctx && x.cseq = k.cseq)) }
  let s := cores.foldl (fun s l => modCore s l (fun x =>
    { x with run := if x.run.any (fun r => ofCharge k.ctx k.cseq r.item) then none else x.run })) s
  removeItems s k.ctx k.cseq cores

/-! ## The exchange -/

/-- Every item has started, and on a ring of several members every core has heard both neighbours (R303, R310). -/
def collReady (k : Coll) (w : List Nat) : Bool :=
  (groupCores w).all (fun l => k.started.contains l
    && (k.relay || groupSize w ≤ 1 || (k.readyIn.contains (l, 0) && k.readyIn.contains (l, 1))))

/-- One turn of the library on every core of the group; `go` follows once every segment has landed and left. -/
def collTurn (f : Finds) (s : State) (k : Coll) (w : List Nat) (e : Entry) (go : State → Coll → State) : State :=
  let t := (groupCores w).zipIdx.foldl (fun t p =>
    if t.1.bad.isSome then t else (coreTurn f w e t.1 p, p.1)) (({ s := s, k := k } : Turn), 0)
  let s := modColl t.1.s k (fun _ => t.1.k)
  match t.1.bad with
  | some b => collTrap s t.1.k t.2 b.1 b.2
  | none => if moved s t.1.k w e then go s t.1.k else s

/-- What the journalled step took in for a collective, for its replay (R402). -/
def recorded (s : State) (cseq : Nat) : Option JColl :=
  match s.journal.entries.find? (fun j => j.step = s.step.step) with
  | some j => j.colls.find? (fun x => x.cseq = cseq && s.step.ctx = replayCtx)
  | none => none

/-- A replayed collective goes on with what its messages and segments brought in the journalled step. -/
def withRecord (k : Coll) (x : JColl) : Coll :=
  { k with counts := x.coll.counts, owners := x.coll.owners, landed := x.coll.landed, got := x.coll.got }

/-- The exchange of a running collective: `go` on a module whose items have all started and heard their neighbours. A replay takes what
the journal recorded, and without it waits (R402). A relay passes on what lands and ends when both members that it serves have
finished (R327). -/
def collRow (s : State) (c cseq op : Nat) (f : Finds) (go : State → Coll → List Nat → Entry → State) : State :=
  fabricCharge s c cseq op (fun e =>
    if e.phase = 0 then
      if inTurn s c cseq = false then s
      else if e.st = .abortPending then report s c cseq Status.chargeAborted 0
      else if collStatus s c e ≠ 0 then report s c cseq (collStatus s c e) 0
      else placeColl s c cseq e
    else match collOf s c cseq with
      | none => s
      | some k =>
        let w := (getGroup s k.group).params
        if !(groupCores w).all (fun l => k.started.contains l && coreRuns s l) then s
        else if k.relay then
          match k.hop with
          | some h =>
            if k.ctx = replayCtx || (k.finishes.contains h && k.finishes.contains ((h + 1) % groupSize w)) then endColl s k []
            else collTurn f s k w e (fun s _ => s)
          | none => endColl s k []
        else if c = replayCtx ∧ 1 < groupSize w then
          (if k.landed ≠ [] then go s k w e
           else match recorded s cseq with
            | some x => go (modColl s k (fun k => withRecord k x)) (withRecord k x) w e
            | none => s)
        else if collReady k w then go s k w e else s)

/-! ## Reductions (R311 to R313, R315) -/

/-- Core number `j`'s slice of this member's own chunk: its elements in canonical order with this member's last (R313). -/
def ownSlice (s : State) (k : Coll) (w : List Nat) (e : Entry) (p : Nat × Nat) : List Byte :=
  let r := myRank s w
  let n := sliceCount w e p.2 r
  let a := sliceAddr w e p.2 r
  if groupSize w ≤ 1 then (List.range n).flatMap (fun i => numBytes (cOut e) (ownElem s e a i))
  else segBytes s k e p.1 (.final a (ownPartOff w e p.2 r)) 0 (n * fmtBytes (cOut e))

/-- Chunk `c` of the result: this member's own, or another's as its slices landed. -/
def resultChunk (s : State) (k : Coll) (w : List Nat) (e : Entry) (c : Nat) : List Byte :=
  let r := myRank s w
  (groupCores w).zipIdx.flatMap (fun p =>
    if c = r then ownSlice s k w e p else gotBlock s k w e p 1 ((c + 2 * groupSize w - 1 - r) % groupSize w))

/-- The records of a reduction's chunk. -/
def chunkRecs (s : State) (k : Coll) (e : Entry) (c role : Nat) (d : List Byte) : List DigestRec :=
  let g := getGroup s k.group
  blockRecs g.hash k.collSeq (groupCores g.params).length (granule (cIn e) * fmtBytes (cOut e)) c 0 role d

/-- The report lines of a chunk's owner to every other member (R318, R321). -/
def sendDigests (s : State) (k : Coll) (rs : List DigestRec) : State :=
  let w := (getGroup s k.group).params
  let others := (List.range (groupSize w)).filter (· ≠ myRank s w)
  rs.foldl (fun s r => others.foldl (fun s q =>
    sendLine s k ((groupCores w).getD r.2.2.1 0) q (boxFor s w q) 4
      (lineOfColl s k r.2.2.2.2.1.toNat (r.1 + r.2.2.1 * 2 ^ 14 + r.2.2.2.2.2 % 2 ^ 39 * 2 ^ 21) 0)) s) s

/-- The bytes of this member's chunk in the source. -/
def ownRange (s : State) (w : List Nat) (e : Entry) : Nat × Nat :=
  let r := myRank s w
  let lo := chunkBound (cCount e) (cIn e) (groupSize w) r
  (cSrc e + fmtBytes (cIn e) * lo, fmtBytes (cIn e) * (chunkBound (cCount e) (cIn e) (groupSize w) (r + 1) - lo))

/-- ALL_REDUCE (R313, R315). -/
def execAllReduce (ctx cseq : Nat) (f : Finds) (s : State) : Res :=
  .next (collRow s ctx cseq 0x310 f (fun s k w e =>
    collTurn f s k w e (fun s k =>
      collRead f s k ((groupCores w).headD 0) (ownRange s w e).1 (ownRange s w e).2 (fun s =>
        let cs := (List.range (groupSize w)).map (resultChunk s k w e)
        collWrite f s k (cDst e) cs.flatten (fun s =>
          endColl s k (cs.zipIdx.flatMap (fun d => chunkRecs s k e d.2 0 d.1)))))))

/-- The owner's report of a chunk and slice. -/
def ownerRec (k : Coll) (c j role : Nat) : Option DigestRec :=
  (k.owners.find? (fun o => o.1 = c && o.2.1 = j)).map (fun o => (c, 0, j, role, o.2.2.1, o.2.2.2))

/-- Every chunk's reports are here: the records of a REDUCE_SCATTER, in order. -/
def scatterRecs (s : State) (k : Coll) (w : List Nat) : Option (List DigestRec) :=
  ((List.range (groupSize w)).flatMap (fun c => (List.range (groupCores w).length).map (fun j =>
    ownerRec k c j (if c = myRank s w then 0 else 3)))).foldr (fun o t => match o, t with
      | some r, some l => some (r :: l)
      | _, _ => none) (some [])

/-- REDUCE_SCATTER (R313, R315, R321): the owner's chunk is formed and reported; the charge ends once every owner has
reported. -/
def execReduceScatter (ctx cseq : Nat) (f : Finds) (s : State) : Res :=
  .next (collRow s ctx cseq 0x311 f (fun s k w e =>
    if e.phase = 1 then
      collTurn f s k w e (fun s k =>
        collRead f s k ((groupCores w).headD 0) (ownRange s w e).1 (ownRange s w e).2 (fun s =>
          let r := myRank s w
          let d := resultChunk s k w e r
          collWrite f s k (cDst e) d (fun s =>
            let rs := chunkRecs s k e r 0 d
            let s := sendDigests s k rs
            let s := modColl s k (fun x => { x with owners := rs.map (fun q => (q.1, q.2.2.1, q.2.2.2.2.1, q.2.2.2.2.2)) ++ x.owners })
            modRunning s ctx cseq (fun e => { e with phase := 2 }))))
    else match scatterRecs s k w with
      | some rs => endColl s k rs
      | none => s))

/-! ## ALL_GATHER, BROADCAST and BARRIER (R315) -/

/-- The records of blocks of whole 64-byte granules, by rank. -/
def gatherRecs (s : State) (k : Coll) (bs : List (Nat × List Byte)) : List DigestRec :=
  let g := getGroup s k.group
  bs.flatMap (fun b => blockRecs g.hash k.collSeq (groupCores g.params).length 64 b.1 0 0 b.2)

/-- A block that landed in two halves: number `i` of direction 0 and number `j` of direction 1 on every core. -/
def landedBlock (s : State) (k : Coll) (w : List Nat) (e : Entry) (i j : Nat) : List Byte :=
  (groupCores w).zipIdx.flatMap (fun p => gotBlock s k w e p 0 i ++ gotBlock s k w e p 1 j)

/-- ALL_GATHER (R315). -/
def execAllGather (ctx cseq : Nat) (f : Finds) (s : State) : Res :=
  .next (collRow s ctx cseq 0x312 f (fun s k w e =>
    collTurn f s k w e (fun s k =>
      collRead f s k ((groupCores w).headD 0) (cSrc e) (cCount e) (fun s =>
        let n := groupSize w
        let r := myRank s w
        let bs := (List.range n).map (fun b =>
          (b, if b = r then memB s (cSrc e) (cCount e) else landedBlock s k w e ((r + 2 * n - 1 - b) % n) ((b + 2 * n - 1 - r) % n)))
        collWrite f s k (cDst e) (bs.flatMap Prod.snd) (fun s => endColl s k (gatherRecs s k bs))))))

/-- BROADCAST (R315). -/
def execBroadcast (ctx cseq : Nat) (f : Finds) (s : State) : Res :=
  .next (collRow s ctx cseq 0x314 f (fun s k w e =>
    collTurn f s k w e (fun s k =>
      let own := decide (myRank s w = cRoot e)
      collRead f s k ((groupCores w).headD 0) (cSrc e) (if own then cCount e else 0) (fun s =>
        let b := if own then memB s (cSrc e) (cCount e) else landedBlock s k w e 0 0
        collWrite f s k (cDst e) b (fun s => endColl s k (gatherRecs s k [(cRoot e, b)]))))))

/-- BARRIER (R315): the entry token has gone round and the release token has come back. -/
def execBarrier (ctx cseq : Nat) (s : State) : Res :=
  .next (collRow s ctx cseq 0x315 {} (fun s k w e => collTurn {} s k w e (fun s k => endColl s k [])))

/-! ## ALL_TO_ALL_V (R316) -/

/-- A table of `n` counts. -/
def countList (d : List Byte) (n : Nat) : List Nat := (List.range n).map (fun i => wordAt d (4 * i) 4)

/-- The count phase begins: the send range is checked, and each count goes to its rank. -/
def sendCounts (f : Finds) (s : State) (k : Coll) (w : List Nat) (e : Entry) : State :=
  let n := groupSize w
  let r := myRank s w
  let cores := groupCores w
  collRead f s k (cores.headD 0) (cSendCounts e) (4 * n) (fun s =>
    let sends := countList (memB s (cSendCounts e) (4 * n)) n
    if sends.sum ≠ 0 ∧ inMem s (cSrc e) (cToken e * sends.sum) = false then
      originEnd s k Status.collDescInvalid Status.peerAborted
    else
      let others := (List.range n).filter (· ≠ r)
      let s := cores.foldl (fun s l => others.foldl (fun s d =>
        sendLine s k l d (boxFor s w d) 3 (lineOfColl s k (r + d * 2 ^ 16 + sends.getD d 0 * 2 ^ 32) 0 0)) s) s
      let s := modColl s k (fun x => { x with sends := sends, counts := tput x.counts r (sends.getD r 0) })
      modRunning s k.ctx k.cseq (fun e => { e with phase := 2 }))

/-- Tokens that this member receives, by rank. -/
def recvCounts (k : Coll) (w : List Nat) : List Nat := (List.range (groupSize w)).map (fun q => lookD 0 k.counts q)

/-- Every count is here: they are written, and the token phase begins. -/
def endCounts (f : Finds) (s : State) (k : Coll) (w : List Nat) (e : Entry) : State :=
  let recv := recvCounts k w
  collWrite f s k (cRecvCounts e) (recv.flatMap (toLE 4)) (fun s =>
    if cCap e < recv.sum then originEnd s k Status.collA2aOverflow Status.peerAborted
    else modRunning s k.ctx k.cseq (fun e => { e with phase := 3 }))

/-- This member's tokens for rank `d`. -/
def tokensFor (s : State) (k : Coll) (e : Entry) (d : Nat) : List Byte :=
  memB s (cSrc e + cToken e * (k.sends.take d).sum) (cToken e * k.sends.getD d 0)

/-- The tokens that landed from rank `q`. -/
def tokensFrom (s : State) (k : Coll) (w : List Nat) (e : Entry) (q : Nat) : List Byte :=
  (groupCores w).zipIdx.flatMap (fun p => [0, 1].flatMap (fun d =>
    (takePlan s k w e p.2 d).zipIdx.flatMap (fun b => if b.1.from_ = q then gotBlock s k w e p d b.2 else [])))

/-- Every token is here: they are written by source, with the records of what was sent and received (R316, R321). -/
def endTokens (f : Finds) (s : State) (k : Coll) (w : List Nat) (e : Entry) : State :=
  let n := groupSize w
  let r := myRank s w
  collRead f s k ((groupCores w).headD 0) (cSrc e) (cToken e * k.sends.sum) (fun s =>
    let sent := tokensFor s k e
    let got := fun q => if q = r then sent r else tokensFrom s k w e q
    collWrite f s k (cDst e) ((List.range n).flatMap got) (fun s =>
      let g := getGroup s k.group
      let rec_ := fun a b role d => blockRecs g.hash k.collSeq (groupCores w).length (cToken e) a b role d
      let both := (rec_ r r 1 (sent r)).zip (rec_ r r 2 (got r)) |>.flatMap (fun p => [p.1, p.2])
      endColl s k ((List.range n).flatMap (fun a =>
        if a = r then (List.range n).flatMap (fun b => if b = r then both else rec_ r b 1 (sent b))
        else rec_ a r 2 (got a)))))

/-- ALL_TO_ALL_V (R315, R316): the count phase, then the token phase. -/
def execAllToAllV (ctx cseq : Nat) (f : Finds) (s : State) : Res :=
  .next (collRow s ctx cseq 0x313 f (fun s k w e =>
    if e.phase = 1 then sendCounts f s k w e
    else if e.phase = 2 then
      if (List.range (groupSize w)).all (fun q => k.counts.any (fun c => c.1 = q)) then endCounts f s k w e else s
    else collTurn f s k w e (fun s k => endTokens f s k w e)))

/-! ## Early ends (R323 to R326) -/

/-- The parameters of a group by its hash: of a group that is defined, or of one that an early end has withdrawn. -/
def ringOf (s : State) (group : Nat) (ghash : Word64) : List Nat :=
  let g := getGroup s group
  if g.defined ∧ g.hash = ghash then g.params else ((s.rings.find? (fun x => x.1 = ghash)).map Prod.snd).getD []

/-- COLL_END_MESSAGE (R323): the first message of a collective stops it, is kept for a charge not yet dispatched, and goes on
in its direction of travel; further copies are dropped. -/
def execCollEndMessage (payload : List Byte) (s : State) : Res :=
  let status := fld (w64 payload 0) 63 48
  let group := fld (w64 payload 0) 47 40
  let collSeq := fld (w64 payload 0) 39 8
  let origin := fld (w64 payload 8) 13 0
  let dir := fld (w64 payload 8) 14 14
  let ghash : Word64 := BitVec.ofNat 64 (w64 payload 0x10)
  let w := ringOf s group ghash
  let r := myRank s w
  .next (
    if s.ends.any (fun x => x.1 = ghash && x.2.1 = collSeq) || !hubUp s then s
    else
      let s := { s with ends := s.ends ++ [(ghash, collSeq, status, origin)] }
      let nx := if dir = 0 then ringNext w r else ringPrev w r
      let s := if w ≠ [] && !groupRelay w && nx ≠ origin && nx ≠ r then sendAfiup s (coordOfRank s w nx) false (slice payload 0 64) [] else s
      match s.colls.find? (fun k => k.group = group && k.collSeq = collSeq && (getGroup s k.group).hash = ghash && k.ctx ≠ replayCtx) with
      | some k => stopColl s k status
      | none => s)

/-- COLL_STALLED (R326): no segment has landed or left for `STALL_MS`; held during an Afiup restart (R398). -/
def execCollStalled (ctx cseq : Nat) (s : State) : Res :=
  .next (match collOf s ctx cseq with
    | some k =>
      if k.started = [] || s.fence.restarting || k.ctx = replayCtx then s
      else
        let st := if k.portDown then Status.linkLost else Status.collStalled
        originEnd s k st st
    | none => s)

/-! ## Negative acknowledgements at the mover (R229, R259) -/

/-- What a negative acknowledgement says: status, flow, SEQ, mover, refusing core and coordinate. -/
def nackWord (sh : Shot) : Nat := w64 sh.payload 0

/-- SUBJECT of the record of a negative acknowledgement. -/
def nackSubject (s : State) (l : Nat) (sh : Shot) : Nat :=
  subjectWord l (siteOf s l) 0 (4 + fld (nackWord sh) 25 24) 63 15 (fld (nackWord sh) 16 3) (fld (nackWord sh) 23 17)

/-- The collective whose library sent on a flow of core `l`. -/
def collOfFlow (s : State) (l flow : Nat) : Option Coll :=
  s.colls.find? (fun k => k.started.contains l && flowGroup s l flow k.group)

/-- NACK (R229, R259, R325): the descriptor fails and its launch traps; a collective ends; once the launch has ended, one
event record remains. -/
def execNack (core : Nat) (shot : Shot) (s : State) : Res :=
  let w := nackWord shot
  let st := fld w 63 48
  let m := fld w 25 24
  let flow := fld w 47 38
  .next (
    if shot.typ ≠ 8 ∨ writerRuns s core = false then s
    else
      let s := bumpCore s core 28 1
      let only := raiseEv s st 1 (nackSubject s core shot) (flowWhere flow (fld w 37 26)) (shotHeader shot) 0
      match collOfFlow s core flow with
      | some k =>
        if st = Status.routeUnreachable then originEnd s k Status.linkLost Status.linkLost
        else collTrap s k core st (fld w 16 3)
      | none =>
        match (getEngine (getCore s core) (m + 3)).job, (getCore s core).run, (tget (0, 0, 0) (getCore s core).sends (1024 * m + flow)) with
        | some j, some r, (pc, c, q) =>
          if (mKind j.desc = 2 || mKind j.desc = 3 || mKind j.desc = 4) && mFlow j.desc = flow && 3 ≤ j.stage
            then engineTrap s core (m + 3) st (fld w 16 3) false
          else if ofCharge c q r.item && r.item.kind = .launch then settleCore (trap s core st pc 0 (fld w 16 3) false) core
          else only
        | none, some r, (pc, c, q) =>
          if ofCharge c q r.item && r.item.kind = .launch then settleCore (trap s core st pc 0 (fld w 16 3) false) core else only
        | _, none, _ => only)

end Sys2Proof.Machine
end

