-- ==== Sys2Proof/Machine/Library.lean ====
section
/-! DEFINITION. The error bounds of the function library (R178): the exact functions as rationals of 200 significant bits, and the open
result of a function held to its bound (R174; log 8). -/

namespace Sys2Proof.Machine

/-! ## Rationals -/

/-- A finite number as a rational. -/
def Num.toRat : Num → Option Rat
  | .zero _ => some 0
  | .fin s n d => some ((if s then -1 else 1) * (n : Rat) / (d : Rat))
  | _ => none

/-- A rational as a number. -/
def ratNum (q : Rat) : Num := mkNum (decide (q < 0)) q.num.natAbs q.den

/-- The magnitude of a rational. -/
def ratAbs (q : Rat) : Rat := if q < 0 then -q else q

/-- A power of two. -/
def pow2 (e : Int) : Rat := if 0 ≤ e then (2 ^ e.toNat : Nat) else 1 / (2 ^ (-e).toNat : Nat)

/-- A rational cut to 200 significant bits. -/
def cut (q : Rat) : Rat :=
  if q = 0 then 0
  else
    let n := q.num.natAbs
    let e := log2q n q.den - 200
    let m : Nat := if 0 ≤ e then n / (q.den * 2 ^ e.toNat) else n * 2 ^ (-e).toNat / q.den
    (if q < 0 then -1 else 1) * (m : Rat) * pow2 e

/-- A square root. -/
def ratSqrt (q : Rat) : Rat :=
  let k := 200 + q.den.log2
  ((q.num.natAbs * q.den * 4 ^ k).sqrt : Rat) / ((q.den * 2 ^ k : Nat) : Rat)

/-! ## The exact functions -/

/-- e^x: the series at x / 1024, squared ten times; beyond ±300 FP32 tells nothing apart. -/
def ratExp (x : Rat) : Rat :=
  let x := if 300 < x then 300 else if x < -300 then -300 else x
  let y := x / 1024
  let t := (List.range 40).reverse.foldl (fun a i => cut (1 + a * y / ((i + 1 : Nat) : Rat))) 1
  (List.range 10).foldl (fun a _ => cut (a * a)) t

/-- 1 / (1 + e^(−x)). -/
def ratSigmoid (x : Rat) : Rat := 1 / (1 + ratExp (-x))

/-- tanh x; its series near 0. -/
def ratTanh (x : Rat) : Rat :=
  if ratAbs x < pow2 (-20) then x - x * x * x / 3 + 2 * x * x * x * x * x / 15
  else let e := ratExp (2 * x); (e - 1) / (e + 1)

/-- 1 / √(2π). -/
def invSqrtTwoPi : Rat := 704869997143266487884552325069224937446962560753387647160131400038351459 / (2 ^ 240 : Nat)

/-- The normal distribution function by its series; beyond ±12 it is 1 or 0 to 2^−100. -/
def ratPhi (x : Rat) : Rat :=
  if 12 < x then 1 else if x < -12 then 0
  else
    let h := cut (-(x * x) / 2)
    1 / 2 + invSqrtTwoPi * x *
      (List.range 320).reverse.foldl (fun a i => cut (1 / ((2 * i + 1 : Nat) : Rat) + a * h / ((i + 1 : Nat) : Rat))) 0

/-- A / √w, where w is positive. -/
def overSqrt (a w : Rat) : Option Rat := if w ≤ 0 then none else some (a / ratSqrt w)

/-- The exact value of a library function at finite operands, where it has one; 0x118 and 0x11B are the terms of a softmax row's sum and
the mean of a row. -/
def exactOf (func : Nat) (x : List Rat) : Option Rat :=
  match func, x with
  | 0x11, [a] => some (ratSigmoid a)
  | 0x12, [a] => some (ratTanh a)
  | 0x13, [a] => some (ratExp a)
  | 0x14, [a] => some (a * ratPhi a)
  | 0x15, [a] => some (a * ratSigmoid a)
  | 0x16, [a, b] => some (a * ratSigmoid a * b)
  | 0x18, [a, m, t] => if t = 0 then none else some (ratExp (a - m) / t)
  | 0x118, [a, m] => some (ratExp (a - m))
  | 0x1A, [a, b, t, n, p] => overSqrt (a * b) (t / n + p)
  | 0x1B, [a, m, v, b, c, p] => (overSqrt ((a - m) * b) (v + p)).map (· + c)
  | 0x11B, [t, n] => some (t / n)
  | 0x1D, [a, b, d, p] => overSqrt (a * b) (d + p)
  | _, _ => none

/-- The error bound in units of the last place (R178); the terms of a softmax sum and a mean as `EXP` (log 8). -/
def ulpsOf (func : Nat) : Nat :=
  match func with
  | 0x11 => 2
  | 0x12 => 2
  | 0x14 => 4
  | 0x15 => 3
  | 0x16 => 4
  | 0x18 => 3
  | 0x1A => 2
  | 0x1B => 3
  | 0x1D => 2
  | _ => 1

/-- A unit of the last place of FP32 at a value. -/
def ulpAt (q : Rat) : Rat := if q = 0 then pow2 (-149) else pow2 (max (log2q q.num.natAbs q.den) (-126) - 23)

/-- The distance from the exact value that a function may have: `GELU` has 2^−24 when that is more. The 2^−60 of the value covers what
the series leave out. -/
def tolerance (func : Nat) (q : Rat) : Rat :=
  let t := (ulpsOf func : Rat) * ulpAt q
  (if func = 0x14 ∧ t < pow2 (-24) then pow2 (-24) else t) + ratAbs q * pow2 (-60)

/-- A result lies within a function's bound of an exact value; an infinity when the bound reaches beyond FP32. -/
def withinBound (func : Nat) (q : Rat) (v : Num) : Bool :=
  match v with
  | .nan => false
  | .inf neg => decide (pow2 128 - pow2 103 ≤ ratAbs q + tolerance func q) && decide (neg = decide (q < 0))
  | .zero _ => decide (ratAbs q ≤ tolerance func q)
  | .fin s n d => decide (ratAbs ((if s then -1 else 1) * (n : Rat) / (d : Rat) - q) ≤ tolerance func q)

/-- The open result `v` of a function held to its bound: where it lies outside, the nearest FP32 value stands. -/
def boundedLib (func : Nat) (args : List Num) (v : Num) : Num :=
  match (args.mapM Num.toRat).bind (exactOf func) with
  | some q => if withinBound func q v then v else rne32 (ratNum q)
  | none => v

end Sys2Proof.Machine
end

