-- ==== Sys2Proof/Machine/Vector.lean ====
section
/-! DEFINITION. The vector unit: operand rows (R170, R176), the functions of R178 with the fixed orders of R179 and R180,
piecewise tables (R181), the update recurrence (R360), output conversion with its dross (R158 to R162), and one row of the
command table per function. -/

namespace Sys2Proof.Machine

/-! ## Inputs (R170, R176, R178) -/

/-- Where the scale array of input `i` begins: those of the scratchpad inputs before it come first. -/
def scaleStart (d : List Byte) (i : Nat) : Nat :=
  vScaleIn d + (((vInputs d).take i).map (fun o => if oAcc o.1 then 0 else o.2 * (vCols d / 32))).sum

/-- Row `r` of input `i` in FP32: an accumulator row, or converted scratchpad elements times their block factors. -/
def inputRow (s : State) (l : Nat) (d : List Byte) (i r : Nat) : List Num :=
  match (vInputs d)[i]? with
  | none => []
  | some o =>
    let r := if o.2 = 1 then 0 else r
    if oAcc o.1 then (List.range (vCols d)).map (fun c => f32 (accAt (getCore s l) (oArr o.1) (oRow o.1 + r) c))
    else (List.range (vCols d)).map (fun c =>
      let v := lineElem s l (vFmtIn d) (o.1 + r * vInLs d) c
      rne32 (if vScaledIn d then v.mul (scaleNum (leNat (spB s l (scaleStart d i + r * (vCols d / 32) + c / 32) 1))) else v))

/-- Scratchpad ranges that row `r` reads. -/
def rowReads (s : State) (l : Nat) (d : List Byte) (r : Nat) : List (Nat × Nat) :=
  let f := vFunc d
  let k := vCols d / 32
  let ins := (vInputs d).zipIdx.filter (fun o => !oAcc o.1.1)
  let row := fun (o : Nat × Nat) => if o.2 = 1 then 0 else r
  ins.map (fun o => (o.1.1 + row o.1 * vInLs d, rowBytes (vFmtIn d) (vCols d)))
    ++ (if vScaledIn d then ins.map (fun o => (scaleStart d o.2 + row o.1 * k, k)) else [])
    ++ (if vScaledOut d then [(vScaleOut d + r * k, k)] else [])
    ++ (if f = 0x1D then [(vC d + 8 * r, 4)] else [])
    ++ (if f = 0x30 then [(vC d, 128), (vB d, rowElems (vPrepared s l d) * elemBytes (vPrepared s l d))] else [])

/-- Accumulator pairs that row `r` reads, by array. -/
def rowPairs (d : List Byte) (r a : Nat) : List Nat :=
  ((vInputs d).filter (fun o => oAcc o.1 && oArr o.1 = a)).flatMap (fun o =>
    pairsRead a (oRow o.1 + (if o.2 = 1 then 0 else r)) (vCols d) true)

/-! ## Functions (R178 to R181) -/

/-- What one row gives: its main output and its `DST2` bytes. -/
abbrev RowOut := Option (List Num) × Option (List Byte)

/-- A function of the library: its bits are open within its error bound; a NaN gives the canonical NaN (R142, R174, R178;
log 8). -/
def lib (s : State) (l func : Nat) (args : List Num) : Num :=
  if args.any Num.isNan then .nan
  else boundedLib func args (f32 (Config.vecLib (getCore s l).ucode func (args.map f32Bits)))

/-- A mask or flag row: bit c of the row's bit string. -/
def maskBytes (ks : List Bool) : List Byte :=
  toLE (cdiv ks.length 64 * 8) ((ks.zipIdx.map (fun k => b2n k.1 * 2 ^ k.2)).sum)

/-- Four bytes of an FP32 value. -/
def f32Bytes (v : Num) : List Byte := toLE 4 (f32Bits v).toNat

/-- Element functions at ±∞ (R178): SIGMOID, TANH, EXP, and GELU and SILU. -/
def limitOf (func : Nat) (neg : Bool) : Num :=
  if func = 0x11 then (if neg then .zero false else mkNum false 1 1)
  else if func = 0x12 then mkNum neg 1 1
  else if func = 0x13 then (if neg then .zero false else .inf false)
  else (if neg then .zero true else .inf false)

/-- An element function of the library with its limits. -/
def elemFn (s : State) (l func : Nat) : Num → Num
  | .inf n => limitOf func n
  | v => lib s l func [v]

/-- SWIGLU: SILU(A) × B; where one of them is not finite, R148 gives the product. -/
def swiglu (s : State) (l : Nat) (a b : Num) : Num :=
  if a.isFin && b.isFin then lib s l 0x16 [a, b] else mul32 (elemFn s l 0x15 a) b

/-- The row maximum and the sum of the row's exponentials (R178, R179). -/
def softParts (s : State) (l : Nat) (a : List Num) : Num × Num :=
  let m := rowMax a
  (m, rowSum (a.map (fun v => lib s l 0x118 [v, m])))

/-- The quotient of a row sum by the row length, as the library forms it. -/
def meanOf (s : State) (l : Nat) (sum : Num) (n : Nat) : Num := lib s l 0x11B [sum, mkNum false n 1]

/-- One element of a piecewise cubic (R181). -/
def pwEval (s : State) (l slot : Nat) (a : Num) : Num :=
  let w := pwWord s l slot
  let lo := w 0x10
  if a.isNan then .nan
  else if Num.lt a lo then w 0x18
  else if Num.le (w 0x14) a then w 0x1C
  else
    let n := pwCount s l slot
    let wd := pwWidth s l slot
    let q := (sub32 a lo).div wd
    let i := min (match q with
      | .fin _ x y => x / y
      | _ => 0) (n - 1)
    let t := sub32 a (rne32 (lo.add ((mkNum false i 1).mul wd)))
    let c := fun k => w (0x20 + 16 * i + 4 * k)
    fma32 (fma32 (fma32 (c 3) t (c 2)) t (c 1)) t (c 0)

/-- `PARAM0` and `PARAM1` as FP32. -/
def vP0 (d : List Byte) : Num := f32 (BitVec.ofNat 32 (vParam0 d))
def vP1 (d : List Byte) : Num := f32 (BitVec.ofNat 32 (vParam1 d))

/-- The grain of element `c` of row `r` (R180). -/
def vGrain (j : Job) (r c u : Nat) : Nat :=
  let t := vTensor j.desc
  grain j.seed j.step (t % 2 ^ 31 + 2 ^ 31) (vRowBase j.desc + r) (2 * c + u)

/-- Paired mode (R168): ADD, MUL or FMA with BF16 in and out and every input in the scratchpad. -/
def paired (d : List Byte) : Bool :=
  (vFunc d = 1 || vFunc d = 2 || vFunc d = 3) && vFmtIn d = 6 && vFmtOut d = 6 && (vInputs d).all (fun o => !oAcc o.1)

/-- The lane rounding of ADD, MUL and FMA: one rounding to FP32, none before the BF16 rounding in paired mode. -/
def laneRound (d : List Byte) (v : Num) : Num := if paired d then v else rne32 v

/-- A nonzero value whose BF16 rounding is zero or subnormal. -/
def bf16Under (v : Num) : Bool :=
  match v with
  | .fin _ _ _ => (convNum 6 .rne false false v).1 / 2 ^ 7 % 2 ^ 8 = 0
  | _ => false

/-! ## The update recurrence (R360, R361) -/

/-- FP32 word `i` of a prepared row: ETA, LAMBDA, BETA1, ALPHA1, BETA2, ALPHA2, CM, CG, CV, EPS, CLIP, GS. -/
def rowWord (row : List Byte) (i : Nat) : Num := f32 (BitVec.ofNat 32 (wordAt row (4 * i) 4))
def rowDen (row : List Byte) : Nat := fld (w64 row 0x38) 61 60
def rowDecay (row : List Byte) : Bool := bitOf (w64 row 0x38) 59

/-- min(max(g, −c), c), a NaN staying NaN. -/
def clip (g c : Num) : Num :=
  if g.isNan then .nan else if Num.lt g c.neg then c.neg else if Num.lt c g then c else g

/-- The sign of a number as ±1, +0 for a zero. -/
def signNum : Num → Num
  | .nan => .nan
  | .zero _ => .zero false
  | .inf s => mkNum s 1 1
  | .fin s _ _ => mkNum s 1 1

/-- The recurrence of one element: new w, m, v. -/
def updateElement (row : List Byte) (gIn w m v : Num) : Num × Num × Num :=
  let c := rowWord row
  let one := mkNum false 1 1
  let g := mul32 gIn (c 11)
  let g := if rowDecay row then add32 g (mul32 (c 1) w) else g
  let g := clip g (c 10)
  let m := if rowMfmt row = 2 then .zero false else add32 (mul32 (c 2) m) (mul32 (c 3) g)
  let v := if rowVfmt row = 2 then v else add32 (mul32 (c 4) v) (mul32 (c 5) (mul32 g g))
  let n := add32 (mul32 (c 6) m) (mul32 (c 7) g)
  let d := if rowDen row = 2 then signNum n
    else if rowDen row = 0 then div32 n (add32 one (c 9))
    else div32 n (add32 (sqrt32 (mul32 (c 8) v)) (c 9))
  let w := sub32 w (mul32 (c 0) d)
  let w := if rowDecay row then w else sub32 w (mul32 (mul32 (c 1) (c 0)) w)
  (w, m, v)

/-- Element `j` of a moment block at an offset: FP32 or BF16, +0 when absent. -/
def momentAt (buf : List Byte) (off j bytes : Nat) : Num :=
  if bytes = 0 then .zero false else decodeNum (if bytes = 4 then 8 else 6) (wordAt buf (off + bytes * j) bytes)

/-- Write `n` bytes at an offset of a byte string. -/
def patch (buf : List Byte) (off : Nat) (b : List Byte) : List Byte := buf.take off ++ b ++ buf.drop (off + b.length)

/-- A moment's bytes. -/
def momentPut (buf : List Byte) (off j bytes : Nat) (v : Num) : List Byte :=
  if bytes = 0 then buf else patch buf (off + bytes * j) (toLE bytes (convNum (if bytes = 4 then 8 else 6) .rne false false v).1)

/-- A chunk buffer after UPDATE of its first elements with their gradients (R360, R364), with the weights written
non-finite. -/
def updateChunk (row buf : List Byte) (grads : List Num) : List Byte × Nat :=
  let e := rowElems row
  let bm := momentBytes (rowMfmt row)
  let bv := momentBytes (rowVfmt row)
  let bo := copyBytes (rowOut row)
  grads.zipIdx.foldl (fun q g =>
    let j := g.2
    let b := q.1
    let u := updateElement row g.1 (momentAt b 0 j 4) (momentAt b (4 * e) j bm) (momentAt b ((4 + bm) * e) j bv)
    let b := momentPut b 0 j 4 u.1
    let b := momentPut b (4 * e) j bm u.2.1
    let b := momentPut b ((4 + bm) * e) j bv u.2.2
    let b := if bo = 0 then b
      else patch b ((4 + bm + bv) * e + bo * j) (toLE bo (convNum (rowOut row) .rne true false u.1).1)
    (b, q.2 + b2n (!u.1.isFin))) (buf, 0)

/-! ## Outputs (R158 to R162) -/

/-- The rounding of an output conversion. -/
def outMode (j : Job) (r c : Nat) : Rmode := if vSr j.desc && !paired j.desc then .sr (vGrain j r c 0) else .rne

/-- One output element: its code, and its dross class with the value the record names. -/
def outElem (j : Job) (r c scale : Nat) (v : Num) : Nat × Option Nat :=
  let d := j.desc
  if vScaledOut d then
    if scale = 255 then (0, some 4) else convNum (vFmtOut d) (outMode j r c) (vSat d) true (v.div (scaleNum scale))
  else convNum (vFmtOut d) (outMode j r c) (vSat d) false v

/-- The dross records of one block and class: all offenders counted, the first named. -/
def blockDross (s : State) (l : Nat) (j : Job) (r b scale cls : Nat) (vs : List (Nat × Num × Option Nat)) : State :=
  let off := vs.filter (fun v => v.2.2 = some cls)
  match off with
  | [] => s
  | (c, v, _) :: _ =>
    raiseDross s j.step (vTensor j.desc) (vBlockBase j.desc + r * (vCols j.desc / 32) + b)
      (if cls = 4 then 255 else f32Bits v) off.length (if cls = 4 then 0 else c % 32) cls 0 l scale

/-- Write the main output of row `r`; false when an accumulator pair could not be written (R122). -/
def putMain (f : Finds) (s : State) (l : Nat) (j : Job) (r : Nat) (vs : List Num) : State × Bool :=
  let d := j.desc
  let k := vCols d / 32
  let scale := fun c => if vScaledOut d then leNat (spB s l (vScaleOut d + r * k + c / 32) 1) else 127
  let os := vs.zipIdx.map (fun v => (outElem j r v.2 (scale v.2) v.1))
  if oAcc (vDst d) then
    let a := oArr (vDst d)
    let row := oRow (vDst d) + r
    let q := readPairs f s l a (pairsRead a row vs.length false)
    if q.2 then (modCore q.1 l (fun x => accPut x a row (os.map (fun o => BitVec.ofNat 32 o.1))), true) else q
  else
    let w := (fmtOf (vFmtOut d)).width
    let bytes := toLE (rowBytes (vFmtOut d) vs.length) ((os.zipIdx.map (fun o => o.1.1 * 2 ^ (o.2 * w))).sum)
    let s := if vScaledOut d then
        let all := (vs.zip os).zipIdx.map (fun e => (e.2, e.1.1, e.1.2.2))
        (List.range k).foldl (fun s b => [0, 1, 4].foldl (fun s cls =>
          blockDross s l j r b (scale (32 * b)) cls (all.filter (fun e => e.1 / 32 = b))) s) s
      else s
    ((writeSp f l 1 { s := s } (vDst d + r * vOutLs d) bytes).s, true)

/-- Read what row `r` reads: the words and pairs that could not be read. -/
def readRow (f : Finds) (s : State) (l : Nat) (j : Job) (r : Nat) : Acc × Bool :=
  let y := readWords f l 1 { s := s, tw := jobTrapWord j } ((rowReads s l j.desc r).flatMap (fun e => wordsOf e.1 e.2))
  let a := readPairs f y.s l 0 (rowPairs j.desc r 0)
  let b := readPairs f a.1 l 1 (rowPairs j.desc r 1)
  ({ y with s := b.1 }, a.2 && b.2)

/-- The descriptor ends in a trap. -/
def vecTrap (s : State) (l : Nat) (j : Job) (status : Nat) (own : Bool) : State := engineTrap s l 2 status j.addr own

/-- The rows of a descriptor in order: each is read, computed by `fn` and written. -/
def vecRows (f : Finds) (l : Nat) (fn : State → Job → Nat → RowOut) : Nat → Nat → State → State
  | 0, _, s => finishJob s l 2
  | n + 1, r, s =>
    match (getEngine (getCore s l) 2).job with
    | none => s
    | some j =>
      let y := readRow f s l j r
      if y.1.bad ≠ [] then vecTrap y.1.s l j Status.scratchUncorrectable true
      else if y.2 = false then vecTrap y.1.s l j Status.accUncorrectable false
      else
        let o := fn y.1.s j r
        let q := match o.1 with
          | some vs => putMain f y.1.s l j r vs
          | none => (y.1.s, true)
        if q.2 = false then vecTrap q.1 l j Status.accUncorrectable false
        else
          let s := match o.2 with
            | some b => (writeSp f l 1 { s := q.1 } (vDst2 j.desc + r * b.length) b).s
            | none => q.1
          vecRows f l fn n (r + 1) s

/-- The row of the command table for function `func`: the vector unit runs its granted head descriptor. -/
def vecRow (core func : Nat) (f : Finds) (fn : State → Job → Nat → RowOut) (s : State) : Res :=
  .next (match jobAt s core 2 2 with
    | none => s
    | some j => if vFunc j.desc = func then vecRows f core fn (vRows j.desc) 0 s else s)

/-- Inputs of row `r`. -/
def inA (s : State) (l : Nat) (j : Job) (r : Nat) : List Num := inputRow s l j.desc 0 r
def inB (s : State) (l : Nat) (j : Job) (r : Nat) : List Num := inputRow s l j.desc 1 r
def inC (s : State) (l : Nat) (j : Job) (r : Nat) : List Num := inputRow s l j.desc 2 r

/-- Element functions of one and two inputs. -/
def vec1 (core func : Nat) (f : Finds) (g : State → Num → Num) (s : State) : Res :=
  vecRow core func f (fun s j r => (some ((inA s core j r).map (g s)), none)) s
def vec2 (core func : Nat) (f : Finds) (g : State → Job → Num → Num → Num) (s : State) : Res :=
  vecRow core func f (fun s j r => (some ((inA s core j r).zipWith (g s j) (inB s core j r)), none)) s

/-! ## The rows of the function library (R178) -/

/-- CONVERT. -/
def execConvert (core : Nat) (f : Finds) (s : State) : Res := vec1 core 0x00 f (fun _ a => a) s

/-- ADD. -/
def execVecAdd (core : Nat) (f : Finds) (s : State) : Res := vec2 core 0x01 f (fun _ j a b => laneRound j.desc (a.add b)) s

/-- MUL. -/
def execVecMul (core : Nat) (f : Finds) (s : State) : Res := vec2 core 0x02 f (fun _ j a b => laneRound j.desc (a.mul b)) s

/-- FMA. -/
def execFma (core : Nat) (f : Finds) (s : State) : Res :=
  vecRow core 0x03 f (fun s j r =>
    (some (((inA s core j r).zipWith Num.mul (inB s core j r)).zipWith (fun p c => laneRound j.desc (p.add c)) (inC s core j r)), none)) s

/-- AXPBY. -/
def execAxpby (core : Nat) (f : Finds) (s : State) : Res :=
  vec2 core 0x04 f (fun _ j a b => fma32 (vP1 j.desc) b (mul32 (vP0 j.desc) a)) s

/-- RESID_ADD (R165). -/
def execResidAdd (core : Nat) (f : Finds) (s : State) : Res := vec2 core 0x08 f (fun _ _ a b => add32 a b) s

/-- A > 0. -/
def positive (a : Num) : Bool := Num.lt (.zero false) a

/-- RELU. -/
def execRelu (core : Nat) (f : Finds) (s : State) : Res :=
  vecRow core 0x10 f (fun s j r =>
    let a := inA s core j r
    (some (a.map (fun v => if v.isNan then .nan else if positive v then v else .zero false)), some (maskBytes (a.map positive)))) s

/-- SIGMOID. -/
def execSigmoid (core : Nat) (f : Finds) (s : State) : Res := vec1 core 0x11 f (fun s a => elemFn s core 0x11 a) s

/-- TANH. -/
def execTanh (core : Nat) (f : Finds) (s : State) : Res := vec1 core 0x12 f (fun s a => elemFn s core 0x12 a) s

/-- EXP. -/
def execExp (core : Nat) (f : Finds) (s : State) : Res := vec1 core 0x13 f (fun s a => elemFn s core 0x13 a) s

/-- GELU. -/
def execGelu (core : Nat) (f : Finds) (s : State) : Res := vec1 core 0x14 f (fun s a => elemFn s core 0x14 a) s

/-- SILU. -/
def execSilu (core : Nat) (f : Finds) (s : State) : Res := vec1 core 0x15 f (fun s a => elemFn s core 0x15 a) s

/-- SWIGLU. -/
def execSwiglu (core : Nat) (f : Finds) (s : State) : Res := vec2 core 0x16 f (fun s _ a b => swiglu s core a b) s

/-- SOFTMAX_ROW. -/
def execSoftmaxRow (core : Nat) (f : Finds) (s : State) : Res :=
  vecRow core 0x18 f (fun s j r =>
    let a := inA s core j r
    let q := softParts s core a
    (some (a.map (fun v => lib s core 0x18 [v, q.1, q.2])), none)) s

/-- SOFTMAX_PARTS: the maximum and the sum, FP32. -/
def execSoftmaxParts (core : Nat) (f : Finds) (s : State) : Res :=
  vecRow core 0x19 f (fun s j r =>
    let q := softParts s core (inA s core j r)
    (none, some (f32Bytes q.1 ++ f32Bytes q.2))) s

/-- RMSNORM. -/
def execRmsnorm (core : Nat) (f : Finds) (s : State) : Res :=
  vecRow core 0x1A f (fun s j r =>
    let a := inA s core j r
    let ss := rowSum (a.map (fun v => mul32 v v))
    (some (a.zipWith (fun v b => lib s core 0x1A [v, b, ss, mkNum false a.length 1, vP0 j.desc]) (inB s core j r)), none)) s

/-- LAYERNORM. -/
def execLayernorm (core : Nat) (f : Finds) (s : State) : Res :=
  vecRow core 0x1B f (fun s j r =>
    let a := inA s core j r
    let mu := meanOf s core (rowSum a) a.length
    let va := meanOf s core (rowSum (a.map (fun v => mul32 (sub32 v mu) (sub32 v mu)))) a.length
    (some ((a.zip (inB s core j r)).zipWith (fun v c => lib s core 0x1B [v.1, mu, va, v.2, c, vP0 j.desc]) (inC s core j r)), none)) s

/-- ROW_SUMSQ: FP32, padded. -/
def execRowSumsq (core : Nat) (f : Finds) (s : State) : Res :=
  vecRow core 0x1C f (fun s j r =>
    (none, some (f32Bytes (rowSum ((inA s core j r).map (fun v => mul32 v v))) ++ toLE 4 0))) s

/-- SCALE_ROWS: D is the FP32 word of row r at SRC_C + 8r. -/
def execScaleRows (core : Nat) (f : Finds) (s : State) : Res :=
  vecRow core 0x1D f (fun s j r =>
    let dd := f32 (BitVec.ofNat 32 (leNat (spB s core (vC j.desc + 8 * r) 4)))
    (some ((inA s core j r).zipWith (fun v b => lib s core 0x1D [v, b, dd, vP0 j.desc]) (inB s core j r)), none)) s

/-- DROPOUT (R178, R180). -/
def execDropout (core : Nat) (f : Finds) (s : State) : Res :=
  vecRow core 0x20 f (fun s j r =>
    let a := inA s core j r
    let keep := (List.range a.length).map (fun c => decide (vParam0 j.desc ≤ vGrain j r c 1))
    (some (a.zipWith (fun v k => if k then mul32 v (vP1 j.desc) else .zero false) keep), some (maskBytes keep))) s

/-- A is not a zero. -/
def nonzero (a : Num) : Bool :=
  match a with
  | .zero _ => false
  | _ => true

/-- ROW_STATS (R178, R339). -/
def execRowStats (core : Nat) (f : Finds) (s : State) : Res :=
  vecRow core 0x28 f (fun s j r =>
    let a := inA s core j r
    (none, some (f32Bytes (rowMax (a.map Num.abs)) ++ toLE 4 (a.countP nonzero) ++ toLE 4 (a.countP bf16Under) ++ toLE 4 0))) s

/-- UPDATE (R360): the chunk buffer at SRC_B with the gradient row, written at DST. -/
def execUpdate (core : Nat) (f : Finds) (s : State) : Res :=
  .next (match jobAt s core 2 2 with
    | none => s
    | some j =>
      if vFunc j.desc ≠ 0x30 then s
      else
        let y := readRow f s core j 0
        if y.1.bad ≠ [] then vecTrap y.1.s core j Status.scratchUncorrectable true
        else if y.2 = false then vecTrap y.1.s core j Status.accUncorrectable false
        else
          let s := y.1.s
          let row := vPrepared s core j.desc
          let buf := spB s core (vB j.desc) (rowElems row * elemBytes row)
          let u := updateChunk row buf (inA s core j 0)
          finishJob (writeSp f core 1 { s := s } (vDst j.desc) u.1).s core 2)

/-- PWPOLY (R181). -/
def execPwpoly (core : Nat) (f : Finds) (s : State) : Res :=
  vecRow core 0x3F f (fun s j r => (some ((inA s core j r).map (pwEval s core (vSlot j.desc))), none)) s

end Sys2Proof.Machine
end

