-- ==== Sys2Proof/Machine/Steps.lean ====
section
/-! DEFINITION. Steps: the FORWARD, BACKWARD and EXCHANGE marks (R347 to R351, R355 to R359), the UPDATE mark with its plan,
ledger, undo slots and update items (R361 to R370), and its interruption. -/

namespace Sys2Proof.Machine

/-! ## Memory that the Afiup reads and clears -/

/-- Zero an aligned range of memory. -/
def zeroMem (s : State) (a n : Nat) : State :=
  { s with mem := s.mem.filter (fun e => e.1 < a || a + n ≤ e.1), poison := s.poison.filter (fun u => u < a || a + n ≤ u) }

/-- No lasting unit lies in the ranges. -/
def sound (s : State) (rs : List (Nat × Nat)) : Bool := rs.all (fun r => !s.poison.any (fun u => overlaps r.1 r.2 u 64))

/-- The 8-byte memory word at an address. -/
def memW (s : State) (a : Nat) : Nat := leNat (memB s a 8)

/-- No two ranges meet. -/
def disjoint : List (Nat × Nat) → Bool
  | [] => true
  | r :: l => l.all (fun q => !overlaps r.1 r.2 q.1 q.2) && disjoint l

/-! ## The backward plan (R347, R348) -/

/-- The words of a backward plan. -/
def planWords (s : State) (a : Nat) : List Nat := (List.range 8).map (fun i => memW s (a + 8 * i))

/-- Fast stash, overflow stash, layer table, statistics area and stash reports. -/
def planRanges (w : List Nat) : List (Nat × Nat) :=
  [(gw w 0, gw w 1), (gw w 2, gw w 3), (gw w 4, 128 * gw w 6), (gw w 5, 88 * 32768), (gw w 7, 88 * 32)]

/-- The backward plan at an address is valid (R348). -/
def planOk (s : State) (a : Nat) : Bool :=
  let w := planWords s a
  let rs := planRanges w
  a % 64 = 0 && inFast s a 64 && 1 ≤ gw w 6 && gw w 6 ≤ 1024
    && gw w 0 % 4096 = 0 && gw w 1 % 360448 = 0 && gw w 2 % 4096 = 0 && gw w 3 % 360448 = 0 && gw w 4 % 128 = 0
    && gw w 5 % 32768 = 0 && gw w 7 % 64 = 0
    && [0, 2, 3, 4].all (fun i => inFast s (rs.getD i (0, 0)).1 (rs.getD i (0, 0)).2)
    && (gw w 3 = 0 || inDeep s (gw w 2) (gw w 3)) && disjoint rs && !rs.any (fun r => inHopper s r.1 r.2)

/-! ## The marks' checks (R357, R358) -/

def mkPhase (e : Entry) : Nat := fld (pw e 0) 2 0
def mkArith (e : Entry) : Bool := bitOf (pw e 0) 3
def mkStep (e : Entry) : Nat := pw e 8
def mkPlan (e : Entry) : Nat := pw e 0x20
def mkLogBase (e : Entry) : Nat := pw e 0x28
def mkLogBytes (e : Entry) : Nat := pw e 0x30
def mkGs (e : Entry) : Word32 := BitVec.ofNat 32 (pw4 e 0x38)

/-- Reserved bits are 0 and the phase is defined. -/
def markFieldsOk (e : Entry) : Bool :=
  mkPhase e ≤ 3 && fld (pw e 0) 63 4 = 0 && fld (pw e 0x18) 63 13 = 0 && mkLogBase e % 64 = 0 && fld (pw e 0x38) 63 48 = 0
    && tailZero e 0x40

/-- The charge comes in the step context, or no step is in progress (R355); during a RUN, in its private context (R402). A step whose
context has been closed has none. -/
def stepContextOk (s : State) (c : Nat) : Bool :=
  if replaying s then c = replayCtx else s.step.st = .idle || s.step.ctx = c

/-- The transition of a mark is allowed (R356). -/
def markOrderOk (s : State) (ph : Nat) : Bool :=
  match s.step.st with
  | .idle => ph = 0
  | .forward => ph = 1
  | .backward => ph = 2
  | .exchange => ph = 3
  | .updating => ph = 3
  | .updated => false
  | .diverged => false

/-- FP32 bits are finite and positive. -/
def finitePositive (w : Word32) : Bool :=
  match f32 w with
  | .fin neg _ _ => !neg
  | _ => false

/-- The step number, the arithmetic switch, unused fields, the log and the step gradient factor (STEP_MARK_INVALID). -/
def markValid (s : State) (e : Entry) : Bool :=
  let ph := mkPhase e
  let lg := (mkLogBase e, mkLogBytes e)
  (if ph = 0 then (match s.step.lastSealed with
      | some t => t < mkStep e
      | none => true) else mkStep e = s.step.step)
    && (!mkArith e || ph = 0) && (mkArith e || (mkStep e = s.astep.toNat && pw e 0x10 = 0 && pw e 0x18 = 0))
    && (ph = 0 || ph = 3 || mkPlan e = 0) && (ph = 0 || (mkLogBase e = 0 && mkLogBytes e = 0))
    && (if ph = 3 then finitePositive (mkGs e) else pw e 0x38 = 0)
    && (ph ≠ 0 || (lg.2 % 2816 = 0 && inFast s lg.1 lg.2 && !inHopper s lg.1 lg.2
          && (planRanges (planWords s (mkPlan e))).all (fun r => !overlaps r.1 r.2 lg.1 lg.2)))

/-- The threshold is within R153's range. -/
def markThrOk (e : Entry) : Bool := !mkArith e || (1 ≤ fld (pw e 0x18) 12 0 && fld (pw e 0x18) 12 0 ≤ 4096)

/-- The checks that every mark makes, up to the plans; `mem` are ranges that it reads. -/
def markChecks (s : State) (c : Nat) (e : Entry) (mem : List (Nat × Nat)) : List (Bool × Nat) :=
  [(markFieldsOk e, Status.fieldReserved), (stepContextOk s c, Status.stepContext), (markOrderOk s (mkPhase e), Status.stepPhaseOrder),
   (sound s mem, Status.memLasting), (markValid s e, Status.stepMarkInvalid), (markThrOk e, Status.arithSettingInvalid)]

/-- A mark's row: `f` on a PHASE_MARK of its phase that is dispatched. -/
def markRow (s : State) (c cseq : Nat) (ph : Nat → Bool) (f : Entry → State) : State :=
  onCharge s c cseq 0x400 (fun e => if ph (mkPhase e) then f e else s)

/-! ## FORWARD (R340, R350, R358, R400) -/

/-- The journal entry that a FORWARD mark opens: the arithmetic registers, the versions, and the charges of the context from
the mark on. -/
def openJournal (s : State) (c cseq step : Nat) : State :=
  let es := ((getCtx s c).entries.dropWhile (fun e => e.cseq ≠ cseq)).filter (fun e => e.moved && e.size ≠ 0)
  let j : JEntry := { step := step, seed := s.seed, astep := s.astep, thr := s.thr, versions := s.sec.version
                      admin := (getCtx s c).admin, charges := es.map (fun e => { entry := e }) }
  { s with journal := { s.journal with entries := (j :: s.journal.entries).take 4
                                       capGroups := s.journal.nextGroups, capSends := s.journal.nextSends } }

/-- The arithmetic registers that the mark loads. -/
def loadArith (s : State) (e : Entry) : State :=
  if mkArith e then { s with seed := BitVec.ofNat 64 (pw e 0x10), astep := BitVec.ofNat 64 (mkStep e), thr := fld (pw e 0x18) 12 0 } else s

/-- An accepted FORWARD mark; a replayed one opens neither a journal entry nor a phase record (R400, R444). -/
def beginStep (s : State) (c : Nat) (e : Entry) : State :=
  let w := planWords s (mkPlan e)
  let s := loadArith (zeroMem (zeroMem s (gw w 5) (88 * 32768)) (gw w 7) (88 * 32)) e
  let keep := s.step.stages.filter (fun r => mkStep e ≤ r.1)
  let folds := s.step.folds.filter (fun r => mkStep e ≤ r.1)
  let s := { s with step := { st := .forward, ctx := c, step := mkStep e, lastSealed := s.step.lastSealed, plan := w
                              logBase := mkLogBase e, logBytes := mkLogBytes e, stages := keep, folds := folds } }
  if c = replayCtx then s else openPhase (openJournal s c e.cseq (mkStep e)) (mkStep e)

/-- A vector library is on its way to the cores (R173, R399). -/
def libraryMoves (s : State) : Bool :=
  s.sec.applying.any (fun a => a.2.2 = 5 && (boundCores s).any (fun l => (getCore s l).ucode ≠ s.sec.version.getD 5 0)
    && (running s a.1 a.2.1 0x701).any (fun e => e.phase = 2))

/-- PHASE_MARK_FORWARD (R358): it also answers a mark with a reserved phase. It waits while a vector library is on its way to the cores,
so that no step runs under two versions (R399; log 99). -/
def execPhaseMarkForward (ctx cseq : Nat) (s : State) : Res :=
  .next (markRow s ctx cseq (fun ph => ph = 0 || 3 < ph) (fun e =>
    if libraryMoves s then s else
    let st := firstFail (markChecks s ctx e [(mkPlan e, 64)] ++ [(planOk s (mkPlan e), Status.stashPlanInvalid)])
    if st ≠ 0 then report s ctx cseq st 0 else report (beginStep s ctx e) ctx cseq 0 0))

/-! ## BACKWARD and EXCHANGE (R350, R351) -/

/-- The sum of word `i` of the stash reports. -/
def reportSum (s : State) (i : Nat) : Nat :=
  ((List.range 88).map (fun l => memW s (gw s.step.plan 7 + 32 * l + 8 * i))).sum % 2 ^ 64

/-- Word `i` of some stash report is not 0. -/
def reportAny (s : State) (i : Nat) : Bool := (List.range 88).any (fun l => memW s (gw s.step.plan 7 + 32 * l + 8 * i) ≠ 0)

/-- A BACKWARD or EXCHANGE mark. -/
def stashMark (s : State) (c cseq : Nat) (e : Entry) (nx : StepSt) (i : Nat) : State :=
  let st := firstFail (markChecks s c e [(gw s.step.plan 7, 88 * 32)])
  if st ≠ 0 then report s c cseq st 0
  else if reportAny s 2 then
    report { s with step := { s.step with shortSeen := true } } c cseq Status.stashExhausted 0
  else
    let spill := reportAny s 1 && !s.step.spillSeen
    let t := phaseTime { s with step := { s.step with st := nx, spillSeen := s.step.spillSeen || reportAny s 1 } } i
    if spill then report (raiseEv t Status.stashSpilled 0 noSubject s.step.step (reportSum s 0) (reportSum s 1)) c cseq Status.stashSpilled 0
    else report t c cseq 0 0

/-- PHASE_MARK_BACKWARD (R351, R356, R358). -/
def execPhaseMarkBackward (ctx cseq : Nat) (s : State) : Res :=
  .next (markRow s ctx cseq (· = 1) (fun e => stashMark s ctx cseq e .backward 1))

/-- PHASE_MARK_EXCHANGE (R351, R356, R358). -/
def execPhaseMarkExchange (ctx cseq : Nat) (s : State) : Res :=
  .next (markRow s ctx cseq (· = 2) (fun e => stashMark s ctx cseq e .exchange 2))

/-! ## The update plan (R363 to R365) -/

/-- A region of an update plan: its eight words. -/
abbrev Region := List Nat

def rgState (r : Region) : Nat := gw r 0
def rgGrad (r : Region) : Nat := gw r 1
def rgChunks (r : Region) : Nat := fld (gw r 2) 31 0
def rgElems (r : Region) : Nat := fld (gw r 2) 46 32
def rgLast (r : Region) : Nat := fld (gw r 3) 14 0
def rgGroup (r : Region) : Nat := fld (gw r 3) 24 15
def rgGfmt (r : Region) : Nat := fld (gw r 3) 26 25
def rgMust (r : Region) : Bool := bitOf (gw r 3) 27
def rgColl (r : Region) : Bool := bitOf (gw r 3) 28

/-- Code and bytes of a gradient element. -/
def gradCode (g : Nat) : Nat := g + 6
def gradBytes (g : Nat) : Nat := if g = 2 then 4 else 2

/-- Regions of the plan at an address. -/
def planCount (s : State) (a : Nat) : Nat := fld (memW s a) 19 0
def planRegions (s : State) (a : Nat) : List Region :=
  (List.range (planCount s a)).map (fun r => (List.range 8).map (fun i => memW s (a + 64 + 64 * r + 8 * i)))

def planLedger (s : State) (a : Nat) : Nat := memW s (a + 8)
def planUndo (s : State) (a : Nat) : Nat := memW s (a + 0x10)
def planCoef (s : State) (a : Nat) : Nat := memW s (a + 0x18)

/-- The groups that carry the gradient exchange. -/
def planXgroups (s : State) (a : Nat) : Nat := leNat (memB s (a + 0x20) 32)

/-- Chunks of a plan. -/
def planChunks (rs : List Region) : Nat := (rs.map rgChunks).sum

/-- The coefficient row of a parameter group. -/
def coefRow (s : State) (a g : Nat) : List Byte := memB s (planCoef s a + 128 * g) 128

/-- The state, ledger, undo and coefficient ranges. -/
def planState (s : State) (a : Nat) (rs : List Region) : List (Nat × Nat) :=
  rs.map (fun r => (rgState r, 65536 * rgChunks r))
    ++ [(planLedger s a, 8 * planChunks rs), (planUndo s a, 88 * 8 * 65536), (planCoef s a, 131072)]

/-- The gradient range of a region. -/
def gradRange (r : Region) : Nat × Nat := (rgGrad r, (rgElems r * (rgChunks r - 1) + rgLast r) * gradBytes (rgGfmt r))

/-- A region's entry and its coefficient row are valid. -/
def regionOk (s : State) (a : Nat) (r : Region) : Bool :=
  let row := coefRow s a (rgGroup r)
  let w := w64 row 0x38
  let of := fld w 51 48
  rgState r % 65536 = 0 && rgGrad r % 64 = 0 && 1 ≤ rgChunks r && 64 ≤ rgElems r && rgElems r ≤ 16384 && rgElems r % 64 = 0
    && fld (gw r 2) 63 47 = 0 && 1 ≤ rgLast r && rgLast r ≤ rgElems r && rgGfmt r ≠ 3 && fld (gw r 3) 63 29 = 0
    && [4, 5, 6, 7].all (fun i => gw r i = 0)
    && bitOf w 63 && rowCodesOk row && fld w 37 0 = 0 && (slice row 0x48 56).all (· = 0)
    && fld w 47 38 < gw s.step.plan 6
    && rgElems r * (4 + momentBytes (rowMfmt row) + momentBytes (rowVfmt row) + copyBytes of) ≤ 65536

/-- The update plan at an address is valid (R365). -/
def updPlanOk (s : State) (a : Nat) : Bool :=
  let rs := planRegions s a
  a % 64 = 0 && inFast s a 64 && 1 ≤ planCount s a && fld (memW s a) 63 20 = 0 && inFast s a (64 + 64 * planCount s a)
    && planLedger s a % 64 = 0 && planUndo s a % 65536 = 0 && planCoef s a % 128 = 0 && rs.all (regionOk s a)
    && (planState s a rs).all (fun r => inFast s r.1 r.2) && rs.all (fun r => inMem s (gradRange r).1 (gradRange r).2)
    && disjoint (planState s a rs) && !(planState s a rs ++ rs.map gradRange).any (fun r => inHopper s r.1 r.2)

/-- A parameter group is frozen. -/
def frozenGroup (s : State) (a g : Nat) : Bool := bitOf (w64 (coefRow s a g) 0x38) 62

/-- The hash of R305 over the header words, every entry word and STEP_GS. -/
def updHash (s : State) (a : Nat) (gs : Word32) : Word64 :=
  ((List.range (8 + 8 * planCount s a)).map (fun i => memW s (a + 8 * i)) ++ [gs.toNat]).foldl
    (fun h x => mix (h ^^^ BitVec.ofNat 64 x)) (mix grainK1)

/-- The status of an UPDATE mark. -/
def updStatus (s : State) (c : Nat) (e : Entry) : Nat :=
  let a := mkPlan e
  firstFail (markChecks s c e [(a, 64 + 64 * planCount s a), (planCoef s a, 131072)] ++
    [(!s.step.shortSeen, Status.stashExhausted), (updPlanOk s a, Status.updatePlanInvalid),
     (match s.step.planHash with
        | some h => h = updHash s a (mkGs e)
        | none => true, Status.updatePlanChanged),
     ((planRegions s a).all (fun r => !(rgMust r && frozenGroup s a (rgGroup r))), Status.frozenWriteRefused)])

/-! ## Chunks and the ledger (R364, R366, R367) -/

/-- The region of chunk `i` and the chunk's number in it. -/
def chunkAt : List Region → Nat → Option (Region × Nat)
  | [], _ => none
  | r :: l, i => if i < rgChunks r then some (r, i) else chunkAt l (i - rgChunks r)

/-- Address of a chunk. -/
def chunkAddr (q : Region × Nat) : Nat := rgState q.1 + 65536 * q.2

/-- Elements of a chunk. -/
def chunkElems (q : Region × Nat) : Nat := if q.2 + 1 = rgChunks q.1 then rgLast q.1 else rgElems q.1

/-- STATE and SLOT of a ledger entry; an entry of another step reads as CLEAN. -/
def ledger (s : State) (i : Nat) : Nat × Nat :=
  let w := memW s (planLedger s s.step.updPlan + 8 * i)
  if w / 2 ^ 16 = s.step.step % 2 ^ 48 then (fld w 1 0, fld w 13 4) else (0, 0)

/-- Write a ledger entry. -/
def setLedger (s : State) (i st slot : Nat) : State :=
  putMem s (planLedger s s.step.updPlan + 8 * i) (toLE 8 (s.step.step % 2 ^ 48 * 2 ^ 16 + slot * 2 ^ 4 + st))

/-- Regions and number of chunks of the plan in force. -/
def updRegions (s : State) : List Region := planRegions s s.step.updPlan
def updChunks (s : State) : Nat := planChunks (updRegions s)

/-- Address of an undo slot. -/
def undoAddr (s : State) (slot : Nat) : Nat := planUndo s s.step.updPlan + 65536 * slot

/-- Undo slots in use: a WRITING entry names them, or a chunk in flight has taken them. -/
def usedSlots (s : State) : List Nat :=
  (List.range (updChunks s)).filterMap (fun i => if (ledger s i).1 = 1 then some (ledger s i).2 else none)
    ++ (s.step.work.filter (fun x => 2 ≤ x.stage)).map ChunkWork.slot

/-- The chunks in flight on the core at position `j` of `k`. -/
def inFlight (s : State) (j k : Nat) : List ChunkWork := s.step.work.filter (fun x => x.chunk % k = j)

/-- The next chunk of the core at position `j` of `k` that is not done and not in flight (R366). -/
def nextChunk (s : State) (j k : Nat) : Option Nat :=
  (List.range (updChunks s)).find? (fun i => i % k = j && (ledger s i).1 < 2 && !s.step.work.any (fun x => x.chunk = i))

/-- Change a chunk in flight, or end it. -/
def setWork (s : State) (i : Nat) (f : ChunkWork → Option ChunkWork) : State :=
  { s with step := { s.step with work := s.step.work.filterMap (fun x => if x.chunk = i then f x else some x) } }

/-! ## The prepared row (R362) -/

/-- Replace FP32 word `i` of a row. -/
def putF32 (row : List Byte) (i : Nat) (v : Num) : List Byte := patch row (4 * i) (toLE 4 (f32Bits v).toNat)

/-- The prepared row of a region. -/
def preparedRow (s : State) (r : Region) : List Byte :=
  let row := coefRow s s.step.updPlan (rgGroup r)
  let w := w64 row 0x38
  let lw := memW s (gw s.step.plan 4 + 128 * fld w 47 38)
  let one := mkNum false 1 1
  let gs := rowWord row 11
  let gs := if bitOf w 56 && bitOf lw 20 then mul32 gs (mkPow false 1 (-(sext 8 (fld lw 47 40)))) else gs
  let gs := if bitOf w 57 then mul32 gs (f32 s.step.stepGs) else gs
  let bc := bitOf w 58
  let cm := if bc then div32 (rowWord row 6) (sub32 one (rowWord row 12)) else rowWord row 6
  let cv := if bc then div32 (rowWord row 8) (sub32 one (rowWord row 13)) else rowWord row 8
  patch (putF32 (putF32 (putF32 row 11 gs) 6 cm) 8 cv) 0x48 (toLE 2 (rgElems r))

/-! ## Interruption (R369) -/

/-- The UPDATE mark is interrupted: `cause` is the status of what stopped it. -/
def interruptUpdate (s : State) (cause : Nat) : State :=
  let c := s.step.updCtx.1
  let q := s.step.updCtx.2
  match running s c q 0x400 with
  | some e =>
    if e.phase ≠ 1 ∨ e.status ≠ 0 then s
    else
      let s := raiseEv s Status.updateInterrupted 0 noSubject cause 0 0
      let s := { s with step := { s.step with work := [], st := if s.step.wrote then .updating else s.step.st } }
      let s := modRunning s c q (fun e => { e with status := Status.updateInterrupted })
      finishItems (stopCharge s c q) c q
  | none => s

/-- An update item traps on core `l`: the library's program counter is not given (log 7). -/
def updTrap (s : State) (l status a : Nat) : State :=
  let pc := 28672 + (Config.freeWord s.free).toNat % 2048
  interruptUpdate (raiseEv (bumpFree s) status 1 (coreSubject s l 0) pc a (s.step.updCtx.2 + s.step.updCtx.1 % 1024 * 2 ^ 32)) status

/-! ## The chunk procedure (R368) -/

/-- Read ranges for an update item, or trap on a lasting unit. -/
def updRead (s : State) (l : Nat) (rs : List (Nat × Nat)) (f : State) : State :=
  match (rs.flatMap (fun r => unitsOf r.1 r.2)).find? (fun u => s.poison.contains u) with
  | some u => updTrap (bump s 3 (memUnit s u + 3) 1) l Status.memLasting u
  | none => f

/-- A chunk of the plan has been written (R369, R457). -/
def chunkWritten (s : State) : State := { s with step := { s.step with wrote := true, touched := true } }

/-- Step 1: the chunk and its gradient come into the buffer; a chunk whose entry is WRITING is read from its slot and written back. -/
def readChunk (s : State) (l i : Nat) (q : Region × Nat) : State :=
  let g := ledger s i
  let n := chunkElems q
  let b := gradBytes (rgGfmt q.1)
  let ga := rgGrad q.1 + rgElems q.1 * q.2 * b
  let src := if g.1 = 1 then undoAddr s g.2 else chunkAddr q
  updRead s l [(src, 65536), (ga, n * b)] (
    let w : ChunkWork := { chunk := i, buf := memB s src 65536, grads := memB s ga (n * b) }
    let s := if g.1 = 1 then chunkWritten (putMem s (chunkAddr q) w.buf) else s
    { s with step := { s.step with work := s.step.work ++ [w] } })

/-- A free undo slot of core `l`; which one is open (log 7). -/
def freeSlot (s : State) (l : Nat) : Nat :=
  let free := ((List.range 8).map (fun k => 8 * l + k)).filter (fun k => !(usedSlots s).contains k)
  free.getD ((Config.freeWord s.free).toNat % free.length) (8 * l)

/-- UPDATE on the buffer of a chunk: the new contents, and the weights written non-finite (R360). -/
def runUpdate (s : State) (q : Region × Nat) (x : ChunkWork) : List Byte × Nat :=
  let b := gradBytes (rgGfmt q.1)
  updateChunk (preparedRow s q.1) x.buf
    ((List.range (chunkElems q)).map (fun j => decodeNum (gradCode (rgGfmt q.1)) (wordAt x.grads (b * j) b)))

/-- The next of steps 2 to 6 for a chunk in flight. -/
def advanceChunk (s : State) (l : Nat) (q : Region × Nat) (x : ChunkWork) : State :=
  match x.stage with
  | 1 =>
    let slot := freeSlot s l
    setWork (putMem (bumpFree s) (undoAddr s slot) x.buf) x.chunk (fun y => some { y with stage := 2, slot := slot })
  | 2 => setWork (setLedger s x.chunk 1 x.slot) x.chunk (fun y => some { y with stage := 3 })
  | 3 =>
    let u := runUpdate s q x
    let s := { s with step := { s.step with nonfinite := s.step.nonfinite + u.2 } }
    setWork s x.chunk (fun y => some { y with stage := 4, buf := u.1 })
  | 4 => setWork (chunkWritten (putMem s (chunkAddr q) x.buf)) x.chunk (fun y => some { y with stage := 5 })
  | _ => setWork (setLedger s x.chunk 2 x.slot) x.chunk (fun _ => none)

/-- Core `l` takes a chunk: one whose group is frozen goes straight to DONE_FROZEN. -/
def takeChunk (s : State) (l i : Nat) (q : Region × Nat) : State :=
  if frozenGroup s s.step.updPlan (rgGroup q.1) then setLedger s i 3 0 else readChunk s l i q

/-- One advance of the update item on core `l`, at position `j` of `k`: it takes its next chunk while fewer than eight are in flight, or
goes on with one of those; which is open (R366; log 7). -/
def advanceItem (s : State) (l j k : Nat) : State :=
  let ws := inFlight s j k
  let pick := (Config.freeWord s.free).toNat % (ws.length + 1)
  match if ws.length < 8 then nextChunk s j k else none, ws[min pick (ws.length - 1)]? with
  | none, none => endItem s l
  | some i, w =>
    match chunkAt (updRegions s) i, w with
    | none, _ => s
    | some q, some x =>
      if pick = ws.length then takeChunk (bumpFree s) l i q
      else (chunkAt (updRegions s) x.chunk).elim s (fun q => advanceChunk (bumpFree s) l q x)
    | some q, none => takeChunk (bumpFree s) l i q
  | none, some x => (chunkAt (updRegions s) x.chunk).elim s (fun q => advanceChunk (bumpFree s) l q x)

/-- The core runs an item of the charge and is not stopped. -/
def runsItem (s : State) (l c cseq : Nat) : Bool :=
  coreRuns s l && (getCore s l).run.any (fun r => ofCharge c cseq r.item && !r.stopping && !r.stopped)

/-- Every running update item of the mark advances once. -/
def advanceUpdate (s : State) (c cseq : Nat) : State :=
  let cs := s.step.updCores
  cs.zipIdx.foldl (fun s e => if runsItem s e.1 c cseq then advanceItem s e.1 e.2 cs.length else s) s

/-- The mark ends when every entry is done (R369). -/
def settleUpdate (s : State) (c cseq : Nat) : State :=
  match running s c cseq 0x400 with
  | some e =>
    if e.items = [] ∧ e.status = 0 then
      let frozen := ((List.range (updChunks s)).filter (fun i => (ledger s i).1 = 3)).length
      let s := { s with step := { s.step with st := .updated } }
      report s c cseq (if frozen = 0 then 0 else Status.frozenSkipped)
        (min frozen (2 ^ 32 - 1) * 2 ^ 32 + min s.step.nonfinite (2 ^ 32 - 1))
    else s
  | none => s

/-- The update items go to every bound core (R366); in IDLE_LIT they wake the module (log 60). -/
def placeUpdate (s : State) (c cseq : Nat) : State :=
  let cs := boundCores s
  let t := { s with step := { s.step with updCores := cs, work := [] }
                    power := { s.power with wake := s.power.wake || s.power.st = .idleLit } }
  placeItems t c cseq cs (fun _ => { kind := .update, ctx := c, cseq := cseq })

/-- An UPDATE mark that passes its checks. -/
def acceptUpdate (s : State) (c cseq : Nat) (e : Entry) : State :=
  let a := mkPlan e
  let t := phaseTime { s with step := { s.step with
    updPlan := a, planHash := some (updHash s a (mkGs e)), stepGs := mkGs e, updCtx := (c, cseq), inUpdate := true
    wrote := s.step.wrote && decide (s.step.st = .updating) } } 3
  if twinReady t then placeUpdate t c cseq else modRunning t c cseq (fun e => { e with phase := 3 })

/-- PHASE_MARK_UPDATE (R358, R366, R368 to R370): accepted, it waits for the twin and places its items; each further step
advances every running item by one part of the chunk procedure. -/
def execPhaseMarkUpdate (ctx cseq : Nat) (s : State) : Res :=
  .next (markRow s ctx cseq (· = 3) (fun e =>
    if e.phase = 0 then
      let st := updStatus s ctx e
      if st ≠ 0 then report s ctx cseq st 0 else acceptUpdate s ctx cseq e
    else if e.phase = 3 then (if twinReady s then placeUpdate s ctx cseq else s)
    else settleUpdate (advanceUpdate s ctx cseq) ctx cseq))

/-- TWIN_MIRROR_LAGGING (R370): no acknowledgement within TWIN_MS; nothing is written and the state stays. -/
def execTwinMirrorLagging (s : State) : Res :=
  let c := s.step.updCtx.1
  let q := s.step.updCtx.2
  .next (match running s c q 0x400 with
    | some e => if e.phase = 3 then report s c q Status.twinMirrorLagging 0 else s
    | none => s)

end Sys2Proof.Machine
end

