-- ==== Sys2Proof/Machine/Seal.lean ====
section
/-! DEFINITION. The seal (R371 to R375): folds, balances and the seal record, its combination over the seal group, the layer
table at the seal (R341 to R343), and the rollback of a step (R376). -/

namespace Sys2Proof.Machine

/-! ## Digest records (R320) -/

/-- A digest record as a number. -/
def recNat (b : List Byte) : Nat := leNat (b.take 32)

def drGroup (r : Nat) : Nat := fld r 159 152
def drSeq (r : Nat) : Nat := fld r 191 160
def drOp (r : Nat) : Nat := fld r 151 140
def drA (r : Nat) : Nat := fld r 139 126
def drB (r : Nat) : Nat := fld r 125 112
def drSlice (r : Nat) : Nat := fld r 111 105
def drRole (r : Nat) : Nat := fld r 104 103
def drDigest (r : Nat) : Word64 := BitVec.ofNat 64 (fld r 255 192)

/-- The order of R321: A, then B, then SLICE, then ROLE. -/
def drKey (r : Nat) : Nat := drA r * 2 ^ 23 + drB r * 2 ^ 9 + drSlice r * 4 + drRole r

/-- Insert a record in the order of R321, after its equals. -/
def insRec (r : Nat) : List Nat → List Nat
  | [] => [r]
  | x :: l => if drKey r < drKey x then r :: x :: l else x :: insRec r l

/-- The records of the digest log. -/
def logRecs (s : State) : List Nat := s.step.log.map (fun e => recNat e.2)

/-- The collectives of the log that are folded: group, sequence number, opcode. -/
def foldedColls (s : State) : List (Nat × Nat × Nat) :=
  ((logRecs s).filter (fun r => drOp r ≠ opAllToAllV)).map (fun r => (drGroup r, drSeq r, drOp r)) |>.dedup

/-- The fold of R321 over a collective's records. -/
def ownFold (s : State) (g q : Nat) : Word64 :=
  foldDigests ((((logRecs s).filter (fun r => drGroup r = g && drSeq r = q && drOp r ≠ opAllToAllV)).foldl
    (fun l r => insRec r l) []).map drDigest)

/-- The value that an `ALL_TO_ALL_V` record adds to its group's balance (R372). -/
def balanceTerm (r : Nat) : Word64 :=
  mix (mix (drDigest r ^^^ BitVec.ofNat 64 (drSeq r)) ^^^ BitVec.ofNat 64 (drA r * 2 ^ 21 ||| drB r * 2 ^ 7 ||| drSlice r))

/-- A group's all-to-all balance. -/
def ownBalance (s : State) (g : Nat) : Word64 :=
  ((logRecs s).filter (fun r => drGroup r = g && drOp r = opAllToAllV)).foldl
    (fun b r => if drRole r = 1 then b + balanceTerm r else if drRole r = 2 then b - balanceTerm r else b) 0

/-! ## The seal record (R372) -/

/-- The statistics of layer `i` over the 88 blocks (R341). -/
def layerStats (s : State) (i : Nat) : Nat × Nat × Nat :=
  (List.range 88).foldl (fun q l =>
    let a := gw s.step.plan 5 + 32768 * l + 32 * i
    (max q.1 (fld (memW s a) 31 0), (q.2.1 + memW s (a + 8)) % 2 ^ 64, (q.2.2 + memW s (a + 16)) % 2 ^ 64)) (0, 0, 0)

/-- Bit `g` of the own divergence mask: a collective of the group whose predecessor's fold differs or has not come. -/
def foldFails (s : State) (c : Nat × Nat × Nat) : Bool :=
  let g := getGroup s c.1
  if g.defined && groupSize g.params ≤ 1 then false
  else match s.step.folds.find? (fun f => f.1 = s.step.step && f.2.1 = c.1 && f.2.2.1 = c.2.1) with
    | some f => f.2.2.2 ≠ ownFold s c.1 c.2.1
    | none => true

/-- A mask with these bits set. -/
def maskOf (bits : List Nat) : Nat := (bits.dedup.map (fun g => 2 ^ g)).sum

/-- This member's seal record. -/
def ownRecord (s : State) : SealRec :=
  let a2a := (((logRecs s).filter (fun r => drOp r = opAllToAllV)).map drGroup).dedup
  { members := 1, mask := maskOf (((foldedColls s).filter (foldFails s)).map Prod.fst)
    balance := a2a.foldl (fun t g => tset 0 t g (ownBalance s g)) []
    ovf := s.step.logOvf, layers := (List.range (gw s.step.plan 6)).map (layerStats s) }

/-- The combination of two records. -/
def combine (x y : SealRec) : SealRec :=
  { members := x.members + y.members, mask := x.mask ||| y.mask
    balance := y.balance.foldl (fun t e => tset 0 t e.1 (tget 0 t e.1 + e.2)) x.balance
    ovf := x.ovf || y.ovf
    layers := (x.layers.zip y.layers).map (fun p =>
      (max p.1.1 p.2.1, (p.1.2.1 + p.2.2.1) % 2 ^ 64, (p.1.2.2 + p.2.2.2) % 2 ^ 64)) }

/-- Groups at fault: diverged, or with a nonzero balance. -/
def faultMask (r : SealRec) : Nat := r.mask ||| maskOf ((r.balance.filter (fun e => e.2 ≠ 0)).map Prod.fst)

/-! ## The layer table (R342, R343) -/

/-- The largest valid history value of a layer entry. -/
def histMax (e : List Byte) (n : Nat) : Nat := ((List.range n).map (fun i => wordAt e (0x40 + 4 * i) 4)).foldl max 0

/-- One layer entry after the seal of step `t`: new bytes, whether its mode changed, whether it saturated. -/
def layerSeal (e : List Byte) (mx nz uf t : Nat) : List Byte × Bool × Bool :=
  let w := w64 e 0
  let v := f32 (BitVec.ofNat 32 mx)
  let pin := fld w 22 21
  let old := fld w 20 20
  let ovr := nz > 0 && fld w 63 48 * nz < uf * 65536
  let sat := old = 1 && (!v.isFin || Num.le (mkNum false 65520 1) (Num.mul v (mkPow false 1 (sext 8 (fld w 47 40)))))
  let e := if v.isFin then patch e (0x40 + 4 * fld w 31 28) (toLE 4 mx) else e
  let hpos := if v.isFin then (fld w 31 28 + 1) % 16 else fld w 31 28
  let hcount := if v.isFin then min (fld w 27 23 + 1) 16 else fld w 27 23
  let clean := fld w 39 32
  let q : Nat × Nat :=                                    -- mode, CLEAN
    if pin = 1 then (0, clean) else if pin = 2 then (1, clean)
    else if old = 0 then (if ovr then (1, 0) else (0, clean))
    else if ovr || sat then (1, 0)
    else if clean + 1 = 64 then (0, 0) else (1, clean + 1)
  let scale : Int := match f32 (BitVec.ofNat 32 (histMax e (min hcount 16))) with
    | .fin _ n d => max (-126) (min 126 (14 - log2q n d))
    | _ => sext 8 (fld w 47 40)
  let w' := fld w 63 48 * 2 ^ 48 + (scale % 256).toNat * 2 ^ 40 + q.2 % 256 * 2 ^ 32 + hpos * 2 ^ 28 + hcount * 2 ^ 23 + pin * 2 ^ 21
    + q.1 * 2 ^ 20 + fld w 19 0
  (patch (patch e 0 (toLE 8 w')) 8 (toLE 8 (t % 2 ^ 64)), decide (q.1 ≠ old), sat)

/-- Seal one layer: its entry is rewritten, with its event records (R343). -/
def sealLayer (s : State) (i : Nat) (q : Nat × Nat × Nat) : State :=
  let a := gw s.step.plan 4 + 128 * i
  let r := layerSeal (memB s a 128) q.1 q.2.1 q.2.2 s.step.step
  let s := putMem s a r.1
  let valA := i % 1024 + fld (w64 r.1 0) 20 20 * 2 ^ 10 + fld (w64 r.1 0) 47 40 * 2 ^ 11
  let s := if r.2.1 then raiseEv s Status.gradFormatChanged 0 noSubject s.step.step valA q.1 else s
  if r.2.2 then raiseEv s Status.gradFp16Saturated 0 noSubject s.step.step valA q.1 else s

/-! ## A sealed step (R374) -/

/-- A parameter group that was updated advances: the powers of its betas and its count. -/
def advanceGroup (s : State) (g : Nat) : State :=
  let row := coefRow s s.step.updPlan g
  let row := putF32 (putF32 row 12 (mul32 (rowWord row 12) (rowWord row 2))) 13 (mul32 (rowWord row 13) (rowWord row 4))
  putMem s (planCoef s s.step.updPlan + 128 * g) (patch row 0x40 (toLE 8 ((w64 row 0x40 + 1) % 2 ^ 64)))

/-- Chunks of the plan that are DONE in the step, with their regions. -/
def doneChunks (s : State) : List (Region × Nat) :=
  (List.range (updChunks s)).filterMap (fun i => if (ledger s i).1 = 2 then chunkAt (updRegions s) i else none)

/-- The pieces of the coefficient and the layer table. -/
def tablePieces (s : State) : List Nat :=
  piecesOf (planCoef s s.step.updPlan) 131072 ++ piecesOf (gw s.step.plan 4) (128 * gw s.step.plan 6)

/-- The pieces of every region. -/
def regionPieces (s : State) : List Nat :=
  (updRegions s).flatMap (fun r => (List.range (rgChunks r)).map (fun c => rgState r + 65536 * c))

/-- The journal entry of the step closes with the digest log (R400). -/
def closeJournal (s : State) : State := modJournal s (fun j => { j with log := s.step.log.map Prod.snd, opened := false })

/-- The step is over: it is IDLE. -/
def closeStep (s : State) : State :=
  let t := closeJournal s
  { t with step := { t.step with st := .idle, work := [], inUpdate := false } }

/-- What the Afiup does when a step seals (R374): layers, groups, the last sealed step, the mirror delta. -/
def sealStep (s : State) (r : SealRec) : State :=
  let s := r.layers.zipIdx.foldl (fun s q => sealLayer s q.2 q.1) s
  let s := (((doneChunks s).map (fun q => rgGroup q.1)).dedup).foldl advanceGroup s
  let delta := ((doneChunks s).map chunkAddr ++ tablePieces s).dedup
  let s := { s with step := { s.step with lastSealed := some s.step.step }
                    twin := { s.twin with own := (regionPieces s ++ tablePieces s).dedup } }
  startDelta s s.step.step false delta

/-- The lowest set bit of a mask of 256 bits. -/
def lowestBit (m : Nat) : Nat := ((List.range 256).find? (bitOf m)).getD 0

/-- The decision from the combined record (R374). -/
def decideSeal (s : State) (x : SealRun) (r : SealRec) : State :=
  let drop := fun (s : State) => { s with step := { s.step with sealing := none } }
  if r.ovf then report (drop s) x.ctx x.cseq Status.digestLogFull 0
  else if faultMask r ≠ 0 then
    let t := drop s
    report { t with step := { t.step with st := .diverged, divMask := faultMask r } } x.ctx x.cseq Status.digestDiverged (lowestBit (faultMask r))
  else
    let a := s.step.attempts
    let t := sealStep s r
    let t := closeStep { t with step := { t.step with sealing := some { x with own := r, done := true } } }
    report t x.ctx x.cseq (if a = 1 then 0 else Status.stepRolledBack) a

/-! ## Combination over the seal group (R372, R373) -/

/-- This member's rank on an axis of a group. -/
def axisRank (s : State) (w : List Nat) (a : Nat) : Nat := (spanIndex w a (coordOn (ownCoord s) a)).getD 0

/-- Rank of the successor on an axis ring. -/
def axisNext (s : State) (w : List Nat) (a : Nat) : Nat :=
  let q := groupSpan w a
  (rankOf w (setCoord (ownCoord s) a (q.1 + (axisRank s w a + 1) % q.2.1 * q.2.2))).getD 0

/-- Send a stage-input record to the successor. -/
def sendStage (s : State) (g a hops step origin : Nat) (r : SealRec) : State :=
  let w := (getGroup s g).params
  sendAfiup s (coordOfRank s w (axisNext s w a)) false
    (sealHead { kind := 7, axis := a, ovf := r.ovf, group := g, hops := hops, step := step, value := r.members, ghash := (getGroup s g).hash
                origin := origin, layers := r.layers.length }) (recordData r)

/-- The records of the other members of the stage's ring that have been heard. -/
def heardRecs (s : State) (w : List Nat) (a step : Nat) : List (Option SealRec) :=
  ((List.range (groupSpan w a).2.1).filter (· ≠ axisRank s w a)).map (fun o =>
    (s.step.stages.find? (fun r => r.1 = step && r.2.1 = a && r.2.2.1 = o)).map (fun r => r.2.2.2))

/-- A stage begins: the stage-input record goes out, when the ring has another member. -/
def beginStage (s : State) (x : SealRun) : State :=
  let w := (getGroup s x.group).params
  match (groupAxes w)[x.stage]? with
  | some a =>
    let s := { s with step := { s.step with sealing := some { x with sent := x.sent ++ [(a, x.own)] } } }
    if (groupSpan w a).2.1 ≤ 1 then s else sendStage s x.group a 1 s.step.step (axisRank s w a) x.own
  | none => { s with step := { s.step with sealing := some x } }

/-- Stages end while their records are all here; after the last the member decides. -/
def advanceSeal (s : State) : Nat → State
  | 0 => s
  | fuel + 1 =>
    match s.step.sealing with
    | none => s
    | some x =>
      let w := (getGroup s x.group).params
      if x.done then s
      else match (groupAxes w)[x.stage]? with
        | none => decideSeal s x x.own
        | some a =>
          let hs := heardRecs s w a s.step.step
          if hs.all Option.isSome then
            advanceSeal (beginStage s { x with stage := x.stage + 1, own := (hs.filterMap id).foldl combine x.own }) fuel
          else s

/-- An entry of the layer table holds a defined `PIN`, and its reserved bits are 0 (R17, R342). -/
def layerOk (e : List Byte) : Bool := fld (w64 e 0) 22 21 ≠ 3 && fld (w64 e 0) 19 0 = 0 && (slice e 0x10 48).all (· = 0)

/-- The status of SEAL at dispatch (R355, R356, R371); a step that ran out of stash is told so whatever its state, and the layer table
is read before anything is sent (log 99). -/
def sealStatus (s : State) (c : Nat) (e : Entry) : Nat :=
  firstFail [(fld (pw e 8) 63 24 = 0 && tailZero e 0x10, Status.fieldReserved), (stepContextOk s c, Status.stepContext),
    (s.step.st = .idle || !s.step.shortSeen, Status.stashExhausted), (s.step.st = .updated && !(s.step.sealing.any (fun x => !x.done)), Status.stepPhaseOrder), (pw e 0 = s.step.step, Status.stepMarkInvalid),
    ((getGroup s (fld (pw e 8) 7 0)).defined, Status.collGroupUndefined),
    (sound s [(gw s.step.plan 5, 88 * 32768), (gw s.step.plan 4, 128 * gw s.step.plan 6), (planCoef s s.step.updPlan, 131072)], Status.memLasting),
    ((List.range (gw s.step.plan 6)).all (fun i => layerOk (memB s (gw s.step.plan 4 + 128 * i) 128)), Status.fieldReserved)]

/-- Folds go to the successors in their collectives' rings. -/
def sendFolds (s : State) : State :=
  (foldedColls s).foldl (fun s c =>
    let g := getGroup s c.1
    if g.defined && 1 < groupSize g.params then
      let r := myRank s g.params
      sendAfiup s (coordOfRank s g.params (ringNext g.params r)) false
        (sealHead { kind := 6, group := c.1, opcode := c.2.2, step := s.step.step, value := (ownFold s c.1 c.2.1).toNat, ghash := g.hash
                    collSeq := c.2.1, origin := r }) []
    else s) s

/-- SEAL (R371 to R374): the folds go out; the next step forms the seal record from the folds that have come and begins the
combination. -/
def execSeal (ctx cseq : Nat) (s : State) : Res :=
  .next (onCharge s ctx cseq 0x401 (fun e =>
    if e.phase = 0 then
      let st := sealStatus s ctx e
      if st ≠ 0 then report s ctx cseq st 0
      else modRunning (sendFolds s) ctx cseq (fun e => { e with phase := 1 })
    else if e.phase = 1 then
      let s := modRunning s ctx cseq (fun e => { e with phase := 2 })
      advanceSeal (beginStage s { ctx := ctx, cseq := cseq, group := fld (pw e 8) 7 0, own := ownRecord s }) 6
    else s))

/-- A FOLD is kept for the seal of its step when it comes from the predecessor in the collective's ring (R372, R373). -/
def takeFold (s : State) (m : SealMsg) : State :=
  let g := getGroup s m.group
  if !g.defined || g.hash ≠ m.ghash || m.opcode = opAllToAllV || m.origin ≠ ringPrev g.params (myRank s g.params) || m.step < s.step.step then s
  else
    let fs := s.step.folds.filter (fun f => !(f.1 = m.step && f.2.1 = m.group && f.2.2.1 = m.collSeq))
      ++ [(m.step, m.group, m.collSeq, BitVec.ofNat 64 m.value)]
    { s with step := { s.step with folds := fs } }

/-- A completed seal answers a neighbour's record of the same step with its own stage-input record (R375). -/
def answerSeal (s : State) (group axis hops step : Nat) : State :=
  match s.step.sealing with
  | some x =>
    if x.done && x.group = group && s.step.step = step && hops = 1 then
      match x.sent.find? (fun e => e.1 = axis) with
      | some (_, r) => sendStage s group axis 1 step (axisRank s (getGroup s group).params axis) r
      | none => s
    else s
  | none => s

/-- A stage record is forwarded round the axis ring, kept, and combined by the seal in progress (R372 to R375). -/
def takeStage (s : State) (m : SealMsg) (d : List Byte) : State :=
  let g := getGroup s m.group
  if !g.defined || g.hash ≠ m.ghash || !(groupAxes g.params).contains m.axis || m.step < s.step.step then s
  else
    let r := readRecord m d
    let s := if m.hops + 1 < (groupSpan g.params m.axis).2.1 then sendStage s m.group m.axis (m.hops + 1) m.step m.origin r else s
    let rs := s.step.stages.filter (fun x => !(x.1 = m.step && x.2.1 = m.axis && x.2.2.1 = m.origin)) ++ [(m.step, m.axis, m.origin, r)]
    let s := { s with step := { s.step with stages := rs } }
    advanceSeal (answerSeal s m.group m.axis m.hops m.step) 6

/-- SEAL_STALLED (R374): the members counted so far. -/
def execSealStalled (s : State) : Res :=
  .next (match s.step.sealing with
    | some x =>
      if x.done then s
      else
        let w := (getGroup s x.group).params
        let r := match (groupAxes w)[x.stage]? with
          | some a => ((heardRecs s w a s.step.step).filterMap id).foldl combine x.own
          | none => x.own
        report { s with step := { s.step with sealing := none } } x.ctx x.cseq Status.sealStalled r.members
    | none => s)

/-! ## ROLLBACK (R376) -/

/-- The bytes of a mirrored piece. -/
def mirrorOf (m : List Piece) (a : Nat) : Option (List Byte) := (m.find? (fun p => p.1 = a && p.2.length = pieceSize)).map Prod.snd

/-- The status of ROLLBACK at dispatch, up to the mirror. -/
def rollbackStatus (s : State) (c : Nat) (e : Entry) : Nat :=
  let abandon := bitOf (pw e 8) 0
  firstFail [(fld (pw e 8) 63 1 = 0 && tailZero e 0x10, Status.fieldReserved),
    (stepContextOk s c || (abandon && (getCtx s c).admin), Status.stepContext),
    (if abandon then s.step.st ≠ .idle else s.step.st = .diverged, Status.stepPhaseOrder),
    (pw e 0 = s.step.step, Status.stepMarkInvalid)]

/-- The chunks of the plan with their numbers. -/
def allChunks (s : State) : List (Nat × Region × Nat) :=
  (List.range (updChunks s)).filterMap (fun i => (chunkAt (updRegions s) i).map (fun q => (i, q.1, q.2)))

/-- Restore a chunk from a mirrored piece. -/
def restoreChunk (s : State) (c : Nat × Region × Nat) (d : List Byte) : State := setLedger (putMem s (chunkAddr c.2) d) c.1 0 0

/-- ROLLBACK_REDO (R376). -/
def execRollbackRedo (ctx cseq : Nat) (mirror : List Piece) (s : State) : Res :=
  .next (onCharge s ctx cseq 0x402 (fun e =>
    if bitOf (pw e 8) 0 then s
    else
      let st := rollbackStatus s ctx e
      let xg := planXgroups s s.step.updPlan
      let cs := (allChunks s).filter (fun c => rgColl c.2.1)
      if st ≠ 0 then report s ctx cseq st 0
      else if s.step.divMask &&& xg ≠ s.step.divMask then report s ctx cseq Status.rollbackNotCovered 0
      else if (twinOf s).isNone || cs.any (fun c => (mirrorOf mirror (chunkAddr c.2)).isNone) then report s ctx cseq Status.twinUnreachable 0
      else
        let s := cs.foldl (fun s c => restoreChunk s c ((mirrorOf mirror (chunkAddr c.2)).getD [])) s
        let s := { s with step := { s.step with
          st := .exchange, attempts := s.step.attempts + 1, divMask := 0, inUpdate := false, wrote := false, nonfinite := 0
          log := s.step.log.filter (fun r => !bitOf xg (drGroup (recNat r.2)))
          folds := s.step.folds.filter (fun f => !(f.1 = s.step.step && bitOf xg f.2.1))
          stages := s.step.stages.filter (fun r => r.1 ≠ s.step.step) } }
        report s ctx cseq 0 (cs.length * 2 ^ 32)))

/-- Restore the DONE chunks of an abandoned step while the mirror gives them: the state and the chunks restored, or none when
the mirror could not be read. -/
def restoreDone (mirror : List Piece) : List (Nat × Region × Nat) → State × Nat → State × Option Nat
  | [], q => (q.1, some q.2)
  | c :: l, q =>
    match mirrorOf mirror (chunkAddr c.2) with
    | some d => restoreDone mirror l (restoreChunk q.1 c d, q.2 + 1)
    | none => (q.1, none)

/-- A SEAL or an UPDATE mark that another context's ABANDON finds in progress ends; a seal with STEP_PHASE_ORDER. -/
def stopSeal (s : State) : State :=
  match s.step.sealing with
  | some x => if x.done then s else report { s with step := { s.step with sealing := none } } x.ctx x.cseq Status.stepPhaseOrder 0
  | none => s

/-- An UPDATE mark is in progress. -/
def updateRuns (s : State) : Bool := (running s s.step.updCtx.1 s.step.updCtx.2 0x400).any (fun e => e.phase ≠ 0)

/-- ROLLBACK_ABANDON (R376): an UPDATE mark in progress is stopped first. -/
def execRollbackAbandon (ctx cseq : Nat) (mirror : List Piece) (s : State) : Res :=
  .next (onCharge s ctx cseq 0x402 (fun e =>
    if !bitOf (pw e 8) 0 then s
    else
      let st := rollbackStatus s ctx e
      if st ≠ 0 then report s ctx cseq st 0
      else if updateRuns s then
        (match running s s.step.updCtx.1 s.step.updCtx.2 0x400 with
          | some u => if u.phase = 3 then report s s.step.updCtx.1 s.step.updCtx.2 Status.updateInterrupted 0
            else interruptUpdate s Status.stepPhaseOrder
          | none => s)
      else
        let s := stopSeal s
        let plan := s.step.planHash.isSome
        let wr := if plan then (allChunks s).filter (fun c => (ledger s c.1).1 = 1) else []
        let dn := if plan then (allChunks s).filter (fun c => (ledger s c.1).1 = 2) else []
        let fz := if plan then (allChunks s).filter (fun c => (ledger s c.1).1 = 3) else []
        let t := wr.foldl (fun t c => restoreChunk t c (memB s (undoAddr s (ledger s c.1).2) 65536)) s
        match (if (twinOf s).isNone then (t, if dn = [] then some 0 else none) else restoreDone mirror dn (t, 0)) with
        | (t, none) => report t ctx cseq Status.twinUnreachable 0
        | (t, some n) =>
          let t := fz.foldl (fun t c => setLedger t c.1 0 0) t
          let t := { t with step := { t.step with
            folds := t.step.folds.filter (fun f => f.1 ≠ t.step.step), stages := t.step.stages.filter (fun r => r.1 ≠ t.step.step) } }
          let t := closeStep { t with step := { t.step with sealing := none } }
          let t := { t with step := { t.step with log := [], logOvf := false } }
          report t ctx cseq 0 (n * 2 ^ 32 + wr.length)))

end Sys2Proof.Machine
end

