-- ==== Sys2Proof/Machine/Twins.lean ====
section
/-! DEFINITION. The mirror at its holder and the messages between twins (R391 to R397). -/

namespace Sys2Proof.Machine

/-! ## The holder (R391, R394, R395) -/

/-- Discard what the holder keeps of its partner. -/
def dropImages (s : State) : State := { s with twin := { s.twin with committed := none, pieces := [], newPieces := 0 } }

/-- An acknowledgement to the partner of that serial. -/
def sendAck (s : State) (coord serial step addr : Nat) (noImage resend : Bool) : State :=
  sendMirror s coord { kind := 3, noImage := noImage, resend := resend, addr := addr, step := step, serial := serial } []

/-- The record TWIN_HOLDER_BUSY, which names the other module (R395). -/
def busyRecord (s : State) (coord : Nat) : State := raiseEv s Status.twinHolderBusy 0 (subjectWord 0x7F 0 0 0 63 15 coord 0) 0 0 0

/-- Mirror traffic from a coordinate while another partner is bound: discarded with a record, and refused by an
acknowledgement that names the partner served (R395, log 44). -/
def holderBusy (s : State) (coord serial : Nat) : State := sendAck (busyRecord s coord) coord serial 0 0 false false

/-- A delta finds no image of its partner: NO_IMAGE goes out, and the pieces of the delta, whose COMMIT this message is or is not, are
discarded (R394). -/
def refuseDelta (s : State) (coord serial : Nat) (isCommit : Bool) : State :=
  sendAck { s with twin := { s.twin with asked := true, discarding := !isCommit } } coord serial 0 0 true false

/-- A message of a delta of the bound partner: `f`, unless the delta is one that the holder discards. A PIECE does not say whether its
delta is full, so the holder takes every delta that opens before it has asked for one as not full (log 44). -/
def ofDelta (s : State) (coord serial : Nat) (isCommit : Bool) (f : State → State) : State :=
  if s.twin.discarding then { s with twin := { s.twin with discarding := !isCommit } }
  else if s.twin.committed.isNone && !s.twin.asked then refuseDelta s coord serial isCommit
  else f s

/-- A delta message reaches the holder: the first partner binds; a new serial at the bound coordinate discards the images and
is answered with NO_IMAGE; else `f` (R394, R395). -/
def fromPartner (s : State) (coord serial : Nat) (isCommit : Bool) (f : State → State) : State :=
  if s.map.isNone then s
  else match s.twin.bound with
    | none => ofDelta { s with twin := { s.twin with bound := some (coord, serial) } } coord serial isCommit f
    | some (c, n) =>
      if c ≠ coord then holderBusy s coord n
      else if n ≠ serial then
        let t := dropImages s
        refuseDelta { t with twin := { t.twin with bound := some (coord, serial) } } coord serial isCommit
      else ofDelta s coord serial isCommit f

/-- Address of a mirrored byte in the holder's window. -/
def mirrorAddr (a : Nat) : Nat := deepBase + a

/-- The piece is whole, lies in the partner's fast tier, and its digest is right. -/
def pieceOk (s : State) (serial step addr : Nat) (digest : Word64) (d : List Byte) : Bool :=
  addr % pieceSize = 0 && inFast s addr pieceSize && d.length = pieceSize && pieceDigest serial step addr d = digest

/-- The holder takes a piece (R394). -/
def holdPiece (s : State) (coord : Nat) (m : MirrorMsg) (d : List Byte) : State :=
  if pieceOk s m.serial m.step m.addr (BitVec.ofNat 64 m.value) d then
    let t := putMem s (mirrorAddr m.addr) d
    { t with twin := { t.twin with
      pieces := t.twin.pieces.filter (fun p => p.addr ≠ m.addr)
        ++ [{ addr := m.addr, step := m.step, digest := BitVec.ofNat 64 m.value, serial := m.serial }]
      newPieces := t.twin.newPieces + 1 } }
  else sendAck s coord m.serial m.step m.addr false true

/-- The restore in progress takes a piece from its holder (R397). -/
def restorePiece (s : State) (m : MirrorMsg) (d : List Byte) : State :=
  if pieceOk s m.serial m.step m.addr (BitVec.ofNat 64 m.value) d then
    let t := putMem s m.addr d
    { t with twin := { t.twin with restored := t.twin.restored ++ [m.addr] } }
  else { s with twin := { s.twin with corrupt := true } }

/-- The message comes from the twin that the map names. -/
def fromTwin (s : State) (coord : Nat) : Bool := (twinOf s).any (fun t => t.2 = coord)

/-- A PIECE: of the restore in progress, or of a delta for this holder (R394, R397). -/
def takeMirrorPiece (s : State) (coord : Nat) (m : MirrorMsg) (d : List Byte) : State :=
  if s.twin.restore.isSome && fromTwin s coord then restorePiece s m d
  else fromPartner s coord m.serial false (fun s => holdPiece s coord m d)

/-- A COMMIT (R394): a delta that is not full needs a committed image. -/
def takeMirrorCommit (s : State) (coord : Nat) (m : MirrorMsg) : State :=
  fromPartner s coord m.serial true (fun s =>
    if s.twin.committed.isNone && !m.full then sendAck (dropImages s) coord m.serial 0 0 true false
    else if s.twin.newPieces = m.value then
      sendAck { s with twin := { s.twin with committed := some m.step, newPieces := 0, asked := false } } coord m.serial m.step 0 false false
    else s)

/-- The restore ends with a status. -/
def endRestore (s : State) (status result : Nat) : State :=
  match s.twin.restore with
  | some (c, q) => report { s with twin := { s.twin with restore := none, restored := [], corrupt := false } } c q status result
  | none => s

/-- An ACK (R370, R392, R394, R395, R397): a piece to send again, a missing image, or the committed step; one that names another
partner is a refusal (log 44). -/
def takeMirrorAck (s : State) (coord : Nat) (m : MirrorMsg) : State :=
  if !fromTwin s coord then s
  else if m.serial ≠ s.ident.serial then busyRecord s coord
  else if m.noImage then
    if s.twin.restore.isSome then endRestore s Status.twinMirrorIncomplete 0
    else fullDelta { s with twin := { s.twin with acked := none, sending := none, queued := none } }
  else if m.resend then
    match s.twin.sending with
    | some (t, full, n) => sendCommit (sendPiece t coord s (m.addr / pieceSize * pieceSize)) coord t n full
    | none => s
  else
    let q := s.twin.queued
    let t := { s with twin := { s.twin with acked := some m.step, sending := none, queued := none } }
    match q with
    | some (k, full, as) => sendDelta t k full as
    | none => t

/-- The committed image answers a request for a target step (R397). -/
def imageFor (s : State) (target : Nat) : Option Nat :=
  match s.twin.committed with
  | some t => if s.twin.pieces.all (fun p => p.step ≤ t) && (target = 0 || target = t) then some t else none
  | none => none

/-- A piece goes back to the partner's replacement, under the serial of its digest. -/
def returnPiece (coord : Nat) (s : State) (p : HeldPiece) : State :=
  sendMirror s coord { kind := 1, addr := p.addr, step := p.step, value := p.digest.toNat, serial := p.serial }
    (memB s (mirrorAddr p.addr) pieceSize)

/-- A RESTORE_REQ (R394, R395, R397): every piece goes back with its digest, then the end; a new serial at the bound coordinate
is served and then bound. -/
def takeRestoreReq (s : State) (coord : Nat) (m : MirrorMsg) : State :=
  let none_ := fun (s : State) => sendAck s coord m.serial 0 0 true false
  if s.map.isNone then s
  else match s.twin.bound with
    | some (c, n) =>
      if c ≠ coord then holderBusy s coord n
      else
        let t := match imageFor s m.step with
          | some k => sendMirror (s.twin.pieces.foldl (returnPiece coord) s) coord
              { kind := 5, step := k, value := s.twin.pieces.length, serial := m.serial } []
          | none => none_ s
        { t with twin := { t.twin with bound := some (coord, m.serial) } }
    | none => none_ { s with twin := { s.twin with bound := some (coord, m.serial) } }

/-- A RESTORE_END (R397): the committed step becomes the last sealed step, and a full delta goes to the holder. -/
def takeRestoreEnd (s : State) (coord : Nat) (m : MirrorMsg) : State :=
  if !fromTwin s coord || s.twin.restore.isNone then s
  else if s.twin.corrupt || s.twin.restored.dedup.length ≠ m.value then endRestore s Status.twinMirrorCorrupt 0
  else
    let t := { s with step := { s.step with lastSealed := some m.step }, boot := { s.boot with stepLost := false }
                      twin := { s.twin with own := s.twin.restored.dedup, acked := none, sending := none, queued := none } }
    endRestore (fullDelta t) 0 m.step

/-! ## Messages reach the Afiup -/

/-- What the Afiup does with a message (R373, R393); other kinds are reserved. -/
def takeMessage (s : State) (coord : Nat) (head data : List Byte) : State :=
  let m := readMirror head
  match msgKind head with
  | 1 => takeMirrorPiece s coord m data
  | 2 => takeMirrorCommit s coord m
  | 3 => takeMirrorAck s coord m
  | 4 => takeRestoreReq s coord m
  | 5 => takeRestoreEnd s coord m
  | 6 => takeFold s (readSeal head)
  | 7 => takeStage s (readSeal head) data
  | _ => s

/-- A message of a kind arrives: the Afiup takes it, or holds it until its restart is over (R398; of mirror messages log 44). -/
def afiupMessage (s : State) (kind coord : Nat) (head data : List Byte) : State :=
  if !hubUp s || msgKind head ≠ kind then s
  else if s.fence.restarting then { s with fence := { s.fence with heldMsgs := s.fence.heldMsgs ++ [(coord, head, data)] } }
  else takeMessage s coord head data

/-- PIECE (R393, R394, R397). -/
def execPiece (coord : Nat) (head data : List Byte) (s : State) : Res := .next (afiupMessage s 1 coord head data)

/-- COMMIT (R394). -/
def execCommit (coord : Nat) (head : List Byte) (s : State) : Res := .next (afiupMessage s 2 coord head [])

/-- ACK (R370, R392, R394, R395, R397). -/
def execAck (coord : Nat) (head : List Byte) (s : State) : Res := .next (afiupMessage s 3 coord head [])

/-- RESTORE_REQ (R394, R395, R397). -/
def execRestoreReq (coord : Nat) (head : List Byte) (s : State) : Res := .next (afiupMessage s 4 coord head [])

/-- RESTORE_END (R397). -/
def execRestoreEnd (coord : Nat) (head : List Byte) (s : State) : Res := .next (afiupMessage s 5 coord head [])

/-- FOLD (R372, R373). -/
def execFold (head : List Byte) (s : State) : Res := .next (afiupMessage s 6 0 head [])

/-- SEAL_STAGE (R372 to R375). -/
def execSealStage (head data : List Byte) (s : State) : Res := .next (afiupMessage s 7 0 head data)

/-- TWIN_UNREACHABLE (R397): the holder has not answered within 1,000 ms. -/
def execTwinUnreachable (s : State) : Res := .next (endRestore s Status.twinUnreachable 0)

end Sys2Proof.Machine
end

