-- ==== Sys2Proof/Machine/SelfTest.lean ====
section
/-! DEFINITION. Test and repair charges: BIST_RUN (R462), HBM_REPAIR and MBIST_READ (R246, R247, R463), SITE_TEST (R465). -/

namespace Sys2Proof.Machine

/-! ## Units (R1, R221, R244) -/

/-- The fitted stacks (R221). -/
def fittedStacks (s : State) : List Nat := if isL8 s then [0, 1, 2, 3, 4, 5, 6, 7] else [0, 1, 2, 4, 5, 6]

/-- Deep-tier channels. -/
def channels (s : State) : List Nat := List.range (if isL8 s then 16 else 8)

/-- Channel of a deep-tier address. -/
def channelOf (s : State) (a : Nat) : Nat := (memUnit s a - 64) / 8

/-- Stack, pseudo-channel and bank group of a row, as bits of its key. -/
def rowStack (key : Nat) : Nat := key / 2 ^ 26
def rowPch (key : Nat) : Nat := key / 2 ^ 20
def rowGroup (key : Nat) : Nat := rowPch key * 16 + key / 2 ^ 16 % 16

/-- Device address of a row's first byte: the inverse of R222. -/
def rowAddr (s : State) (key : Nat) : Nat :=
  let n := if isL8 s then 4 else 3
  let half := rowStack key / 4
  let x := key % 2 ^ 14 * 4096 + key / 2 ^ 14 % 64 * 64 + rowPch key % 64
  half * (fastBytes s / 2) + (x * n + rowStack key % 4) * 1024

/-- The 16 units of a row. -/
def rowUnits (s : State) (key : Nat) : List Nat := unitsOf (rowAddr s key) 1024

/-! ## BIST_RUN (R462) -/

def bTest (e : Entry) : Nat := fld (pw e 0) 2 0
def bSelect (e : Entry) : Nat := pw e 8
def bDst (e : Entry) : Nat := pw e 0x10

/-- The units that SELECT names. -/
def bUnits (e : Entry) : List Nat := bitsOf 64 (bSelect e)

/-- Reserved fields of BIST_RUN are 0 and DST aligned. -/
def bistFieldsOk (e : Entry) : Bool :=
  bTest e ≤ 3 && fld (pw e 0) 63 3 = 0 && pw e 0x18 = 0 && tailZero e 0x20 && (if bTest e = 0 then bDst e = 0 else bDst e % 64 = 0)

/-- Every selected unit is fitted, and a link is in the state that its test needs. -/
def bistTargetOk (s : State) (e : Entry) : Bool :=
  if bTest e = 0 then (bUnits e).all (fittedStacks s).contains
  else if bTest e = 1 then (bUnits e).all (channels s).contains
  else (bUnits e).all (fun n => n < 48 &&
    (let l := getLink s n
     if bTest e = 2 then l.st = .active
     else (l.st = .dark || l.st = .dropped || l.st = .quarantined) && l.loopback.isNone))

/-- The context holds a spilled charge: one between the head and the tail of its hopper (R66). -/
def holdsSpilled (x : Ctx) : Bool := 2 < (x.entries.filter (fun e => e.moved && !e.dispatched && e.st = .waiting)).length

/-- A memory test may run. -/
def bistIdle (s : State) (c : Nat) : Bool :=
  s.step.st = .idle && !fabricBusy s && s.ctxs.all (fun x => x.1 = c || x.2.st = .closed) && !holdsSpilled (getCtx s c)

/-- Bytes of results at DST. -/
def bistBytes (e : Entry) : Nat := if bTest e = 0 then 0 else (bUnits e).length * (if bTest e = 1 then 8 else 16)

/-- The status of BIST_RUN. -/
def bistStatus (s : State) (c : Nat) (e : Entry) : Nat :=
  firstFail [(bistFieldsOk e, Status.fieldReserved), (bistTargetOk s e, Status.testTargetInvalid),
    (2 ≤ bTest e || bistIdle s c, Status.testBusy), (inFast s (bDst e) (bistBytes e), Status.addressUnpopulated)]

/-- Memory of the tested units ends zeroed with fresh check bits; failing units are poisoned. -/
def zeroTested (s : State) (tested : Nat → Bool) (bad : List Nat) : State :=
  { s with mem := s.mem.filter (fun c => !tested (c.1 / 64 * 64)), poison := bad.foldl insNat (s.poison.filter (fun u => !tested u)) }

/-- Test 0: failing rows are poisoned whole and entered as candidates; the records of every pseudo-channel count the test. -/
def testFast (s : State) (e : Entry) (rows : List Nat) : State :=
  let sel := bUnits e
  let rows := rows.filter (fun k => sel.contains (rowStack k))
  let s := zeroTested s (fun a => inFast s a 1 && sel.contains (fastPlace s a).1) (rows.dedup.flatMap (rowUnits s))
  let s := rows.foldl (fun s k => addCand s k 2) s
  let ps := sel.flatMap (fun k => (List.range 64).map (fun p => 64 * k + p))
  let fails := ps.foldl (fun t p => tput t p (min 65535 (rows.dedup.filter (fun k => rowPch k = p)).length)) s.repair.fails
  let passes := ps.foldl (fun t p => tput t p (min 65535 (lookD 0 t p + 1))) s.repair.passes
  { s with repair := { s.repair with fails := fails, passes := passes } }

/-- Test 1: the mapped range of the channels; mirror images in them are discarded; 8 bytes per channel at DST. -/
def testDeep (s : State) (c cseq : Nat) (e : Entry) (units : List Nat) : State :=
  let sel := bUnits e
  let hit := fun a => inDeep s a 1 && sel.contains (channelOf s a)
  let bad := (units.filter hit).dedup
  let t := zeroTested s hit bad
  let t := if sel = [] then t else dropImages t
  putReport t c cseq (bDst e) (sel.flatMap (fun k => toLE 8 (bad.filter (fun a => channelOf s a = k)).length)) 0 bad.length

/-- Test 2: 16 bytes per link at DST; what the test does not report of a link is open (log 7). -/
def testMargin (s : State) (c cseq : Nat) (e : Entry) (links : List (Nat × Nat × Nat × Nat)) : State :=
  let word := fun (n : Nat) => match links.find? (fun x => x.1 = n) with
    | some x => x.2.1 % 2 ^ 16 + x.2.2.1 % 2 ^ 16 * 2 ^ 16 + x.2.2.2 % 2 ^ 8 * 2 ^ 32
    | none => (Config.freeWord (s.free + n)).toNat % 2 ^ 40
  putReport { s with free := s.free + 48 } c cseq (bDst e) ((bUnits e).flatMap (fun n => toLE 16 (word n))) 0 (bUnits e).length

/-- Test 3 starts: each link loops back; its result goes to its place at DST. -/
def startLoops (s : State) (c cseq : Nat) (e : Entry) : State :=
  let s := (bUnits e).zipIdx.foldl (fun s x =>
    modLink s x.1 (fun l => { l with loopback := some l.st, loopDst := bDst e + 16 * x.2 })) s
  if bUnits e = [] then report s c cseq 0 0 else modRunning s c cseq (fun x => { x with phase := 1, items := bUnits e })

/-- BIST_RUN (R462): a memory or margin test ends with what it finds; a loopback test runs until its links end it. -/
def execBistRun (ctx cseq : Nat) (found : BistFound) (s : State) : Res :=
  .next (onCharge s ctx cseq 0x900 (fun e =>
    if e.phase ≠ 0 then s
    else
      let st := bistStatus s ctx e
      if st ≠ 0 then report s ctx cseq st 0
      else if bTest e = 0 then
        report (testFast s e found.rows) ctx cseq 0 (found.rows.filter (fun k => (bUnits e).contains (rowStack k))).length
      else if bTest e = 1 then testDeep s ctx cseq e found.units
      else if bTest e = 2 then testMargin s ctx cseq e found.links
      else startLoops s ctx cseq e))

/-- LOOPBACK_TEST_END (R462): 1 s has passed on a link under test; the link is back in its prior state. -/
def execLoopbackTestEnd (link errors : Nat) (s : State) : Res :=
  .next (if (getLink s link).loopback.isSome then endLoop s link (errors % 2 ^ 48) 1 else s)

/-! ## HBM_REPAIR and MBIST_READ (R245 to R247, R463) -/

/-- HBM_REPAIR (R246, R463): the row's 16 units are read with correction; no byte of the row changes, and what reads uncorrectable
is poisoned. -/
def execHbmRepair (ctx cseq : Nat) (f : Finds) (s : State) : Res :=
  .next (onCharge s ctx cseq 0x901 (fun e =>
    let key := pw e 0 / 2 ^ 35
    let hard := bitOf (pw e 8) 0
    let used := if hard then s.repair.hardUsed else s.repair.softUsed
    let st := firstFail [(fld (pw e 0) 34 0 = 0 && fld (pw e 8) 63 1 = 0 && tailZero e 0x10, Status.fieldReserved),
      (rowOk s key && s.repair.cands.any (fun c => c.1 = key), Status.repairTargetInvalid),
      (!used.contains (rowGroup key), Status.repairNoSpare)]
    if st ≠ 0 then report s ctx cseq st 0
    else
      let s := (readUnits f noSubject { s := s } (rowUnits s key)).s
      let r := s.repair
      let was := (r.cands.find? (fun c => c.1 = key)).any (fun c => c.2.2.2 = 1)
      let state := if hard then 2 else 1
      report { bump s 3 (8 * rowStack key + (if hard then 6 else 5)) 1 with repair := { r with
          cands := r.cands.map (fun c => if c.1 = key then (c.1, c.2.1, c.2.2.1, state) else c)
          hardUsed := if hard then insNat r.hardUsed (rowGroup key) else r.hardUsed
          softUsed := if !hard then insNat r.softUsed (rowGroup key)
            else if was then r.softUsed.filter (· ≠ rowGroup key) else r.softUsed } } ctx cseq 0 state))

/-- A mask of 16 bank groups of a pseudo-channel. -/
def groupMask (p : Nat) (f : Nat → Bool) : Nat := ((List.range 16).map (fun g => b2n (f (16 * p + g)) * 2 ^ g)).sum

/-- The record of a pseudo-channel (R247). -/
def mbistRecord (s : State) (p : Nat) : List Byte :=
  let r := s.repair
  toLE 8 ((r.cands.filter (fun c => rowPch c.1 = p)).length % 2 ^ 16 * 2 ^ 16 + lookD 0 r.passes p % 2 ^ 16 * 2 ^ 32
      + lookD 0 r.fails p % 2 ^ 16 * 2 ^ 48)
    ++ toLE 8 (groupMask p r.softUsed.contains + groupMask p (fun g => !r.softUsed.contains g) * 2 ^ 16
      + groupMask p (fun g => !r.hardUsed.contains g) * 2 ^ 32 + p % 64 * 2 ^ 55 + p / 64 * 2 ^ 61)

/-- The bytes that MBIST_READ writes. -/
def mbistBytes (s : State) (cands : Bool) : List Byte :=
  (fittedStacks s).flatMap (fun k => (List.range 64).flatMap (fun p => mbistRecord s (64 * k + p)))
    ++ (if cands then toLE 8 s.repair.cands.length ++ s.repair.cands.flatMap (fun c => toLE 8 (candWord s c.1)) else [])

/-- MBIST_READ (R247, R463). -/
def execMbistRead (ctx cseq : Nat) (s : State) : Res :=
  .next (onCharge s ctx cseq 0x902 (fun e =>
    let b := mbistBytes s (bitOf (pw e 8) 0)
    let st := firstFail [(fld (pw e 8) 63 1 = 0 && tailZero e 0x10, Status.fieldReserved),
      (inMem s (pw e 0) b.length, Status.addressUnpopulated)]
    if st ≠ 0 then report s ctx cseq st 0 else putReport s ctx cseq (pw e 0) b 0 (64 * (fittedStacks s).length)))

/-! ## SITE_TEST (R465) -/

/-- A site of R465's charges: its layout is that of `CORE_BIND[7:0]`. -/
def siteValid (x : Nat) : Bool := x / 16 % 8 < 6

/-- The status of SITE_TEST. -/
def siteStatus (s : State) (e : Entry) : Nat :=
  let x := fld (pw e 0) 7 0
  firstFail [(!bitOf (pw e 0) 3 && fld (pw e 0) 63 9 = 0 && tailZero e 8, Status.fieldReserved),
    (!(bitOf (pw e 0) 8 && (s.sec.lifecycle = 0 || s.sec.lifecycle = 2)), Status.securityState),
    (siteValid x && ((spareSites s (x / 128)).contains x || s.fence.fenced.contains x), Status.testTargetInvalid)]

/-- The test of a site is over. -/
def endSiteTest (s : State) (x : Nat) : State :=
  settleRail { s with fence := { s.fence with testing := s.fence.testing.filter (fun t => t.1 ≠ x) } }

/-- SITE_TEST (R465): it starts when the pool has room for its grant; run again, it ends with the unit that failed, 0 for a
pass. -/
def execSiteTest (ctx cseq failingUnit : Nat) (s : State) : Res :=
  .next (onCharge s ctx cseq 0x904 (fun e =>
    let x := fld (pw e 0) 7 0
    if e.phase = 0 then
      let st := siteStatus s e
      if st ≠ 0 then report s ctx cseq st 0
      else if raisePending s || s.power.waiting ≠ [] || poolW s < heldW s + watts 20 s.power.applied then s
      else
        let s := drawBack s (grantedW s + watts 20 s.power.applied - poolW s)
        modRunning { s with fence := { s.fence with testing := s.fence.testing ++ [(x, ctx, cseq)] } } ctx cseq (fun e => { e with phase := 1 })
    else if failingUnit ≠ 0 then report (endSiteTest s x) ctx cseq Status.siteTestFailed (failingUnit % 256)
    else
      let t := endSiteTest s x
      let t := if bitOf (pw e 0) 8 then { t with fence := { t.fence with fenced := t.fence.fenced.filter (· ≠ x) } } else t
      report t ctx cseq 0 0))

end Sys2Proof.Machine
end

