-- ==== Sys2Proof/Machine/Fences.lean ====
section
/-! DEFINITION. Fences of cores (R380 to R390): their stages, the transplant, the withdrawal of a core, CORE_FENCE (R464), the
reload of an uncorrectable store word, and fault windows. A core's state stands under its logical number, so a transplant
moves nothing in the model but what R385 takes from other sources. -/

namespace Sys2Proof.Machine

/-! ## Fences -/

/-- The fence in progress on a die. -/
def fenceOn (s : State) (die : Nat) : Option Fence := (s.fence.active.find? (fun a => a.1 = die)).map Prod.snd

/-- Change the fence in progress on a die. -/
def modFence (s : State) (die : Nat) (f : Fence → Fence) : State :=
  { s with fence := { s.fence with active := s.fence.active.map (fun a => if a.1 = die then (a.1, f a.2) else a) } }

/-- The CORE_FENCE charges of a fence end. -/
def endFenceCharges (s : State) (x : Fence) (status result : Nat) : State :=
  x.charges.foldl (fun s c => report s c.1 c.2 status result) s

/-- The item that a core runs, as event records name it (R388). -/
def itemCode (s : State) (l : Nat) : Nat :=
  match (getCore s l).run with
  | none => 0
  | some r =>
    if s.journal.running.isSome && r.item.ctx = 1024 then 5
    else match r.item.kind with
      | .launch => 1
      | .collective => 2
      | .update => 3
      | .progLoad => 4
      | .tableLoad => 4
      | .groupDefine => 4

/-- The core runs an update item. -/
def runsUpdate (s : State) (l : Nat) : Bool := (getCore s l).run.any (fun r => r.item.kind = .update)

/-- FENCE_START (R382, R383, R386): the first waiting request of the die begins; a shot for its core and its work queue are
held from now on, and an update stops. -/
def execFenceStart (die : Nat) (s : State) : Res :=
  .next (match s.fence.waiting.find? (fun x => dieOf x.core = die) with
    | none => s
    | some x =>
      if (fenceOn s die).isSome || s.fence.restarting || !hubUp s then s
      else
        let t := { s with fence := { s.fence with waiting := s.fence.waiting.erase x } }
        if !isBound t x.core then endFenceCharges t x Status.coreWithdrawn 0
        else
          let y := { x with stage := 1, item := itemCode t x.core }
          let t := bump { t with fence := { t.fence with active := t.fence.active ++ [(die, y)] } } 0 13 1
          if runsUpdate t x.core then interruptUpdate t Status.coreFenced else t)

/-- The sequencer stands at an instruction boundary: a waiting instruction is abandoned without effect (R384). -/
def stopSequencer (s : State) (l : Nat) : State :=
  match (getCore s l).run with
  | some r =>
    if r.waiting || r.holding then modRun (leaveRisers s l) l (fun r => { r with holding := false, waiting := false }) else s
  | none => s

/-- An update item that the fence stopped has ended on the core. -/
def dropUpdate (s : State) (l : Nat) : State := if runsUpdate s l then endItem s l else s

/-! ## Withdrawal (R389) -/

/-- The status of a charge that a fence ends: the first stands. -/
def forceStatus (s : State) (c cseq status : Nat) : State :=
  modRunning s c cseq (fun e => { e with status := if e.status = 0 then status else e.status })

/-- The charge of an item ends with a status: an update is interrupted, a collective ends early on every member (R323), any
other stops on every core. -/
def endCharge (s : State) (i : Item) (status : Nat) : State :=
  match i.kind with
  | .update => interruptUpdate s status
  | .collective => match collOf s i.ctx i.cseq with
    | some k => originEnd s k status Status.peerAborted
    | none => s
  | .launch => stopCharge (forceStatus s i.ctx i.cseq status) i.ctx i.cseq
  | .progLoad => stopCharge (forceStatus s i.ctx i.cseq status) i.ctx i.cseq
  | .tableLoad => stopCharge (forceStatus s i.ctx i.cseq status) i.ctx i.cseq
  | .groupDefine => stopCharge (forceStatus s i.ctx i.cseq status) i.ctx i.cseq

/-- An array descriptor that R135 holds ends: it merges and signals nothing more, its tile's overflow record goes out, and its grant
returns (R135). -/
def endHeldJob (s : State) (l a : Nat) : State :=
  match (getEngine (getCore s l) a).job with
  | some j =>
    if j.stage ≠ 6 then s
    else
      let s := leaveEngine (overflowDross s l a j) l a j
      if j.granted = 0 then s else returnGrant s l j.granted
  | none => s

/-- The held descriptors of both arrays end. -/
def endHeld (s : State) (l : Nat) : State := endHeldJob (endHeldJob s l 0) l 1

/-- The items of a withdrawn core: the one it ran ends its charge with CAPACITY_SHORT, those queued with CORE_WITHDRAWN. -/
def withdrawItems (s : State) (l : Nat) : State :=
  let x := getCore s l
  let run := x.run.toList.map (fun r => (r.item, Status.capacityShort))
  let s := endHeld s l
  let all := run ++ (x.queue ++ x.hubItems).map (fun i => (i, Status.coreWithdrawn))
  let s := all.foldl (fun s a => endCharge s a.1 a.2) s
  let s := setCore s l {}
  let s := { s with power := { s.power with waiting := s.power.waiting.filter (fun w => w.1 ≠ l) } }
  settleRail (all.foldl (fun s a => removeItems s a.1.ctx a.1.cseq [l]) s)

/-- The held shots of core `l` leave, each as `f` says, oldest first; the credit of a shot goes back with its last held copy (R26,
R264). -/
def releaseHeld (s : State) (l : Nat) (f : State → Held → State) : State :=
  let hs := s.route.heldShots.filter (fun h => h.shot.core = l)
  let t := { s with route := { s.route with heldShots := s.route.heldShots.filter (fun h => h.shot.core ≠ l) } }
  hs.foldl (fun s h => if h.key = 0 then f s h else freeBuffer (f s h) h.port h.lane h.key) t

/-- Held shots of a withdrawn core are dropped (R26, R389). -/
def dropHeld (s : State) (l : Nat) : State :=
  releaseHeld s l (fun s h => if h.port = 12 then meshDrop s l h.shot else fencedDrop s l h.shot)

/-- The core is withdrawn (R25, R389); every group that names it is withdrawn on every core. -/
def withdraw (s : State) (die : Nat) (x : Fence) : State :=
  let l := x.core
  let site := siteOf s l
  let subj := coreSubject s l 0
  let s := { s with fence := { s.fence with
    active := s.fence.active.filter (fun a => a.1 ≠ die), withdrawn := insNat s.fence.withdrawn l
    fenced := insNat s.fence.fenced site, bound := s.fence.bound.filter (fun b => b.1 ≠ l) } }
  let s := dropHeld (withdrawItems s l) l
  let s := (s.groups.filter (fun g => (groupCores g.2.params).contains l)).foldl (fun s g => withdrawGroup s g.1) s
  endFenceCharges (raiseEv s Status.capacityShort 0 subj 0 0 0) x 0 0xFF

/-! ## Stages 2 to 5 (R383 to R388) -/

/-- A reserve site for the die: one that is not under test when there is one; which one is open (log 7). The test of a site
that is needed ends. -/
def takeSpare (s : State) (die : Nat) : Option (Nat × State) :=
  let all := spareSites s die
  let free := all.filter (fun x => !s.fence.testing.any (fun t => t.1 = x))
  let pick := fun (l : List Nat) => l.getD ((Config.freeWord s.free).toNat % l.length) 0
  if free ≠ [] then some (pick free, bumpFree s)
  else match s.fence.testing.find? (fun t => all.contains t.1) with
    | some (x, c, q) => some (x, report (endSiteTest s x) c q Status.testPreempted 0)
    | none => none

/-- FENCE_STOP_COMPLETE (R383, R384, R389): the engines stand at their stop points; the transplant begins, or the core is
withdrawn for want of a reserve. -/
def execFenceStopComplete (die stopNs : Nat) (s : State) : Res :=
  .next (match fenceOn s die with
    | some x =>
      if x.stage ≠ 1 then s
      else
        let t := dropUpdate (stopSequencer s x.core) x.core
        match takeSpare t die with
        | some (site, t) => modFence t die (fun y => { y with stage := 2, newSite := some site, stopNs := stopNs })
        | none => withdraw t die x
    | none => s)

/-- The stores that the reserve takes from the Afiup's copies and the firmware in force (R102, R173, R385). -/
def loadReserve (s : State) (l : Nat) : State :=
  modCore s l (fun x => { x with instr := x.imgInstr, tables := x.imgTables, ucode := s.sec.version.getD 5 0 })

/-- The copy reads the scratchpad and both accumulator stores word by word: what it finds uncorrectable it marks, what it corrects
or reads well the second time it counts (R122, R199, R200, R385). -/
def copyStores (f : Finds) (s : State) (l : Nat) : State :=
  let sp := fun (w : Nat) => if winBase0 ≤ w then w - winAddr l 0 else w
  let bad := (f.sp.filter Prod.snd).map (fun e => sp e.1)
  let s := bumpCore (bumpCore s l 19 (f.sp.countP (fun e => !e.2))) l 18 f.spC.length
  let s := bumpCore (bumpCore s l 12 (f.accC.countP (· < 16384))) l 13 (f.accC.countP (16384 ≤ ·))
  modCore s l (fun x => { x with spBad := bad.foldl insNat x.spBad, accBad := f.acc.foldl insNat x.accBad })

/-- TRANSPLANT_COMPLETE (R385): the reserve meets every uncorrectable word as the failing site would have. -/
def execTransplantComplete (die transplantNs : Nat) (f : Finds) (s : State) : Res :=
  .next (match fenceOn s die with
    | some x =>
      if x.stage ≠ 2 then s
      else
        let t := copyStores f (loadReserve s x.core) x.core
        let c := getCore t x.core
        modFence t die (fun y => { y with stage := 3, moveNs := transplantNs, badWords := c.spBad.length + c.accBad.length })
    | none => s)

/-- TRANSPLANT_FAILED (R385): the reserve is bound zeroed, and the item stops with TRANSPLANT_FAILED. -/
def execTransplantFailed (die transplantNs : Nat) (s : State) : Res :=
  .next (match fenceOn s die with
    | some x =>
      if x.stage ≠ 2 then s
      else
        let t := modCore (endHeld (loadReserve s x.core) x.core) x.core (fun c =>
          { c with scratch := [], spBad := [], acc := [], accBad := [], risers := [], runners := [] })
        let t := match (getCore t x.core).run with
          | some r => endCharge t r.item Status.transplantFailed
          | none => t
        modFence t die (fun y => { y with stage := 5, moveNs := transplantNs })
    | none => s)

/-- The engines go on at the reserve site: a descriptor that R135 holds resumes at its failing group (R384), and the arrays' cells,
which the transplant does not copy, are loaded again. -/
def resumeHeld (x : Core) : Core :=
  { x with
    engines := x.engines.map (fun g =>
      (g.1, { g.2 with job := g.2.job.map (fun j => if j.stage = 6 then { j with stage := 3 } else j)
                       ahead := g.2.ahead.map (fun j => { j with preload := false }) }))
    cells := [] }

/-- The event record of a fence (R388, R450). -/
def fenceRecord (s : State) (x : Fence) (site : Nat) : State :=
  raiseEv s (if x.stage = 5 then Status.transplantFailed else Status.coreFenced) 0 (coreSubject s x.core 0)
    (subjectWord x.core site 0 0 0 0 0 0 % 2 ^ 14 + x.cause % 8 * 2 ^ 16 + x.item % 8 * 2 ^ 20) x.badWords
    (x.stopNs % 2 ^ 32 + x.moveNs % 2 ^ 32 * 2 ^ 32)

/-- FENCE_BIND_COMPLETE (R22, R26, R383, R388): the core is bound to the reserve, the fence record is written, and held shots
are delivered in order of arrival. -/
def execFenceBindComplete (die : Nat) (s : State) : Res :=
  .next (match fenceOn s die with
    | some x =>
      match x.newSite with
      | some site =>
        if x.stage ≠ 3 ∧ x.stage ≠ 5 then s
        else
          let l := x.core
          let t := fenceRecord s x site
          let t := { t with fence := { t.fence with
            active := t.fence.active.filter (fun a => a.1 ≠ die), fenced := insNat t.fence.fenced (siteOf s l)
            bound := t.fence.bound.filter (fun b => b.1 ≠ l) ++ [(l, site)] } }
          let t := modCore t l resumeHeld
          let t := releaseHeld t l (fun s h => toCore s h.port h.lane h.key h.shot)
          endFenceCharges (settleCore t l) x 0 site
      | none => s
    | none => s)

/-! ## CORE_FENCE (R464), store words and windows (R380) -/

/-- CORE_FENCE (R464): the fence ends the charge. -/
def execCoreFence (ctx cseq : Nat) (s : State) : Res :=
  .next (onCharge s ctx cseq 0x903 (fun e =>
    let l := fld (pw e 0) 6 0
    if e.phase ≠ 0 then s
    else
      let st := firstFail [(fld (pw e 0) 7 7 = 0 && fld (pw e 0) 63 9 = 0 && tailZero e 8, Status.fieldReserved),
        (isBound s l, Status.coreWithdrawn), (spareSites s (dieOf l) ≠ [] || bitOf (pw e 0) 8, Status.fenceNoReserve)]
      if st ≠ 0 then report s ctx cseq st 0
      else modRunning (requestFence s l 5 [(ctx, cseq)]) ctx cseq (fun e => { e with phase := 1 })))

/-- STORE_RELOADED (R102, R380): a read of a word of the instruction store (0) or the function table store (1) meets an error; a
single-bit error is corrected and counted, an uncorrectable word is rewritten from the image copy; during an Afiup restart the
rewrite waits. -/
def execStoreReloaded (core store index : Nat) (corrected : Bool) (s : State) : Res :=
  .next (
    if !isBound s core || 32768 ≤ index then s
    else if corrected then bumpCore s core 23 1
    else if s.fence.restarting || !hubUp s then s
    else
      let t := modCore s core (fun x =>
        if store = 0 then putInstr x index (tget (instrDefault x index) x.imgInstr index)
        else { x with tables := writeB x.tables (8 * index) (readB x.imgTables (8 * index) 8) })
      noteFault (raiseEv (bumpCore t core 24 1) Status.storeReloaded 1 (coreSubject s core 0) 0 0 0) core 4)

/-- FAULT_WINDOW_EXPIRY (R380, R381). -/
def execFaultWindowExpiry (site cls : Nat) (s : State) : Res :=
  .next { s with fence := { s.fence with faults := s.fence.faults.filter (fun f => !(f.1 = site && f.2.1 = cls)) } }

end Sys2Proof.Machine
end

