-- ==== Sys2Proof/Machine/Firmware.lean ====
section
/-! DEFINITION. FW_UPDATE (R427) and how an image of each subsystem is applied (R398, R399, R423). -/

namespace Sys2Proof.Machine

/-- The image in force after an update of subsystem `k`: its active copy. -/
def activeImage (s : State) (k : Nat) : Image := (s.sec.fw.getD k ({}, {})).1

/-- The status of FW_UPDATE before its image is read (R427). -/
def fwFieldStatus (s : State) (e : Entry) : Nat :=
  firstFail [(pw e 0 % 64 = 0 && fld (pw e 8) 63 32 = 0 && tailZero e 0x10, Status.fieldReserved),
    (inMem s (pw e 0) (fld (pw e 8) 31 0), Status.addressUnpopulated)]

/-- The status that the image itself gives (R427). -/
def fwImageStatus (s : State) (b : List Byte) : Nat :=
  let k := imageSub b
  firstFail [(imageSigned s b, Status.fwSignatureInvalid), (imageFormed b b.length, Status.fwImageInvalid),
    (s.sec.svn.getD k 0 ≤ (parseImage b).svn, Status.fwRollback), (!(s.power.st = .drawn && 4 ≤ k), Status.powerStateDrawn)]

/-- The update ends: once the image is applied, or written where the next reset applies it, the security version rises to the image's,
and the charge reports VERSION (R427). -/
def endUpdate (s : State) (c cseq k : Nat) : State :=
  report { s with sec := { s.sec with applying := none, svn := setAt s.sec.svn k (max (s.sec.svn.getD k 0) (activeImage s k).svn) } } c cseq 0
    (activeImage s k).version

/-- The Afiup restarts from its new image: HUB closes (R398, R429). -/
def startRestart (s : State) : State :=
  let t := closeScopes s 2
  { t with fence := { t.fence with restarting := true } }

/-- Every bound core marks a library range dirty (R302, R366, R398). -/
def markDirty (s : State) (coll : Bool) : State :=
  (boundCores s).foldl (fun s l => modCore s l (fun x =>
    if coll then { x with dirtyColl := true } else { x with dirtyUpd := true })) s

/-- Cores between two items take the microcode in force (R173). -/
def spreadUcode (s : State) : State :=
  (boundCores s).foldl (fun s l => modCore s l (fun x => if x.run.isNone then { x with ucode := s.sec.version.getD 5 0 } else x)) s

/-- Every bound core has the microcode in force. -/
def ucodeDone (s : State) : Bool := (boundCores s).all (fun l => (getCore s l).ucode = s.sec.version.getD 5 0)

/-- The vector library reaches the cores while no step is in progress (R173, R399). -/
def spreadStep (s : State) (c cseq : Nat) : State :=
  let t := if s.step.st = .idle then spreadUcode s else s
  if ucodeDone t then endUpdate t c cseq 5 else modRunning t c cseq (fun e => { e with phase := 2 })

/-- A library update takes effect once the step state is IDLE (R399). -/
def applyLibrary (s : State) (c cseq k : Nat) : State :=
  if s.step.st ≠ .idle then s
  else
    let t := applyImage s k (activeImage s k)
    if k = 5 then spreadStep t c cseq else endUpdate (markDirty t (k = 6)) c cseq k

/-- The next port from `p` on that is not DARK. -/
def nextLitPort (s : State) (p : Nat) : Option Nat := (List.range 10).find? (fun q => p ≤ q && portState s q ≠ 0)

/-- The links of the next port retrain together; after the last port the update ends. Phase 10 + p: port p retrains. -/
def retrainPort (s : State) (c cseq p : Nat) : State :=
  match nextLitPort s p with
  | some q => modRunning ((portLinks q).foldl retrainLink (modLPort s q (fun x => { x with fwHold := true }))) c cseq (fun e => { e with phase := 10 + q })
  | none => endUpdate s c cseq 4

/-- The links of a port have come to rest: the traffic that it held goes on, or is discarded with the port (R267, R398). -/
def releasePort (s : State) (p : Nat) : State :=
  let s := modLPort s p (fun x => { x with fwHold := false })
  if portUp s p then pumpOut s p else if portUsed s p then clearPort s p else s

/-- One port at a time: the next follows when every link of this one has come to rest. -/
def portStep (s : State) (c cseq p : Nat) : State :=
  if (portLinks p).all (fun n => retrainDone (getLink s n) || (getLink s n).st = .dark) then retrainPort (releasePort s p) c cseq (p + 1) else s

/-- A checked image is written to the inactive copy, which becomes active, and is applied (R398, R427). -/
def startUpdate (s : State) (c cseq k : Nat) (i : Image) : State :=
  let t := storeImage s k i
  let t := { t with sec := { t.sec with applying := some (c, cseq, k) } }
  let t := modRunning t c cseq (fun e => { e with phase := 1, result := k })
  if k = 2 then startRestart t
  else if k = 4 then retrainPort (applyImage t 4 i) c cseq 0
  else if 5 ≤ k then applyLibrary t c cseq k
  else endUpdate t c cseq k

/-- Another FW_UPDATE has begun and has not retired (R399). -/
def otherUpdate (s : State) (c cseq : Nat) : Bool :=
  s.ctxs.any (fun x => x.2.entries.any (fun e => e.opcode = 0x701 && e.phase ≠ 0 && !(x.1 = c && e.cseq = cseq)))

/-- FW_UPDATE (R398, R399, R427, R433): a second one waits until the first has retired; run again, an update that waits goes on. -/
def execFwUpdate (ctx cseq : Nat) (f : Finds) (s : State) : Res :=
  .next (onSecure s ctx cseq 0x701 (fun e =>
    if e.phase = 0 then
      if otherUpdate s ctx cseq then s
      else
        let st := fwFieldStatus s e
        if st ≠ 0 then report s ctx cseq st 0
        else
          let n := fld (pw e 8) 31 0
          let y := readUnits f noSubject { s := s } (unitsOf (pw e 0) n)
          let b := memB y.s (pw e 0) n
          if y.bad ≠ [] then report y.s ctx cseq Status.memLasting 0
          else if fwImageStatus y.s b ≠ 0 then report y.s ctx cseq (fwImageStatus y.s b) 0
          else startUpdate y.s ctx cseq (imageSub b) (parseImage b)
    else if 10 ≤ e.phase then portStep s ctx cseq (e.phase - 10)
    else if e.phase = 2 then spreadStep s ctx cseq
    else if 5 ≤ e.result then applyLibrary s ctx cseq e.result
    else s))

/-- AFIUP_RESTART_COMPLETE (R398, R399): the image is in force and held work goes on. -/
def execAfiupRestartComplete (s : State) : Res :=
  .next (
    if !s.fence.restarting then s
    else
      let t := applyImage { s with fence := { s.fence with restarting := false, heldMsgs := [] } } 2 (activeImage s 2)
      let t := match s.sec.applying with
        | some (c, q, _) => endUpdate t c q 2
        | none => t
      s.fence.heldMsgs.foldl (fun s m => takeMessage s m.1 m.2.1 m.2.2) t)

end Sys2Proof.Machine
end

