-- ==== Sys2Proof/Machine/Patrol.lean ====
section
/-! DEFINITION. The patrol scrubbers of scratchpads and memory (R199, R200, R243) and the bridges (R29). -/

namespace Sys2Proof.Machine

/-- PATROL_SCRUB_ROW (R184, R199, R200): the scrubber of one bank reads one row, when the stages advance (R39). -/
def execPatrolScrubRow (core bank row : Nat) (f : Finds) (s : State) : Res :=
  .next (
    if 32 ≤ bank ∨ 24576 ≤ row ∨ isBound s core = false ∨ stagesAdvance s = false then s
    else (readWords f core 0 { s := s } [256 * row + 8 * bank]).s)

/-- MEMORY_PATROL (R240, R241, R243): one unit; the last unit of a tier completes a pass. -/
def execMemoryPatrol (addr : Nat) (corrected : Bool) (f : Finds) (s : State) : Res :=
  .next (
    if addr % 64 ≠ 0 ∨ inMem s addr 64 = false ∨ s.boot.off ∨ s.boot.shutdown then s
    else
      let s := patrolUnit f corrected s addr
      if addr + 64 = fastBytes s ∨ addr + 64 = deepBase + deepBytes s then bump s 0 14 1 else s)

/-- The bridge of a die. -/
def getBridge (s : State) (die : Nat) : Bridge := if die = 0 then s.bridgeA else s.bridgeB
def setBridge (s : State) (die : Nat) (b : Bridge) : State :=
  if die = 0 then { s with bridgeA := b } else { s with bridgeB := b }

/-- BRIDGE_UNIT (R29): a unit that fails its CRC is resent and counted. -/
def execBridgeUnit (die : Nat) (good : Bool) (s : State) : Res :=
  let b := getBridge s die
  .next (
    if 2 ≤ die ∨ b.lost = true then s
    else if good then setBridge s die { b with fails := 0 }
    else bump (setBridge s die { b with fails := b.fails + 1 }) 0 (11 + die) 1)

/-- BRIDGE_LOST (R29, R380): sixteen consecutive resends of one unit, after its first failure, have failed. -/
def execBridgeLost (die : Nat) (s : State) : Res :=
  let b := getBridge s die
  .next (
    if 2 ≤ die ∨ b.lost = true ∨ b.fails < 17 then s
    else raiseEv (setBridge s die { b with lost := true }) Status.bridgeLost 0 noSubject 0 0 0)

end Sys2Proof.Machine
end

