-- ==== Sys2Proof/Machine/PowerStates.lean ====
section
/-! DEFINITION. The power states (R408 to R411, R416), the rail supervisor (R39), and the loss of input (R405). -/

namespace Sys2Proof.Machine

/-! ## Conditions -/

/-- A core holds a work-queue item. -/
def coreHolds (x : Core) : Bool := x.run.isSome || x.queue ≠ [] || x.hubItems ≠ []

/-- No core holds a work-queue item and no fabric charge runs (R409). -/
def quiescent (s : State) : Bool :=
  !s.cores.any (fun e => coreHolds e.2)
    && !s.ctxs.any (fun c => c.2.entries.any (fun e => e.dispatched && isFabric e.opcode && e.st ≠ .finished && e.report.isNone))

/-- The direct-mode ports that are UP or DEGRADED (R410). -/
def intentPorts (s : State) : List Nat := (List.range 8).filter (portUp s)

/-- Step 1 of R410: the step state is IDLE, no fabric charge is dispatched and unretired, no mirror message is in flight. -/
def drawReady (s : State) : Bool :=
  s.step.st = .idle && !fabricBusy s && s.twin.sending.isNone && s.twin.restore.isNone && s.twin.newPieces = 0

/-- Steps 2 and 3 of R410: this module's intent is sent and the peer's received, on every such port. -/
def intentsMet (s : State) : Bool := (intentPorts s).all (fun p => (getLPort s p).intentOut && (getLPort s p).intentIn)

/-- Send an intent or its withdrawal on the active links of a port (R272). -/
def sendIntent (s : State) (p : Nat) (intent : Bool) : State :=
  let s := modLPort s p (fun x => { x with intentOut := intent })
  (activeLinks s p).foldl (fun s n => sendControl s n 6 0 (toLE 8 (b2n intent))) s

/-- Step 2 of R410, on the ports that have not sent theirs. -/
def sendIntents (s : State) : State :=
  if s.power.target = some .drawn ∧ drawReady s then
    ((intentPorts s).filter (fun p => !(getLPort s p).intentOut)).foldl (fun s p => sendIntent s p true)
      { s with power := { s.power with intent := true } }
  else s

/-! ## Entering and leaving a state -/

/-- Every link in one state takes another: ACTIVE to KEEPALIVE on entry to DRAWN, back on leaving it (R268). -/
def swapLinks (s : State) (a b : LinkSt) : State :=
  { s with links := s.links.map (fun e => if e.2.st = a then (e.1, { e.2 with st := b }) else e) }

/-- The intents are met, or the module has left DRAWN: they are gone on both sides of each port. -/
def clearIntents (s : State) : State :=
  { s with power := { s.power with intent := false }, lports := s.lports.map (fun e => (e.1, { e.2 with intentOut := false, intentIn := false })) }

/-- Entry to DRAWN: the threshold moves before the rail, links go to KEEPALIVE, FABRIC and TAP close (R39, R268, R429). -/
def enterDrawn (s : State) : State :=
  let s := clearIntents (swapLinks (closeScopes s 5) .active .keepalive)
  { s with power := { s.power with st := .drawn, threshold := 560 } }

/-- The stores of a core after retention may have failed (R39). -/
def renewCore (x : Core) : Core :=
  { x with scratch := [], spBad := [], acc := [], accBad := [], risers := [], runners := [], instr := x.imgInstr, tables := x.imgTables }

/-- Leaving DRAWN: links are ACTIVE again without retraining, the threshold returns, and a `CORE_RAIL_LOW` that came in DRAWN
renews what the retention may have lost (R39, R268). -/
def leaveDrawn (s : State) (to_ : PwrSt) : State :=
  let s := clearIntents (swapLinks s .keepalive .active)
  let s := { s with power := { s.power with st := to_, threshold := 660 } }
  let s := if s.power.lowDrawn then
      { s with cores := s.cores.map (fun e => (e.1, renewCore e.2)), power := { s.power with railLow := false, lowDrawn := false } }
    else s
  (List.range 10).foldl pumpOut s

/-- The POWER_STATE_SET in progress ends with a status: a state that is reached sets AUTO_IDLE. -/
def endPowerSet (s : State) (status : Nat) : State :=
  match s.power.charge with
  | some (c, q) =>
    let auto := match running s c q 0x600 with
      | some e => if status = 0 then bitOf (pw e 0) 2 else s.power.autoIdle
      | none => s.power.autoIdle
    report { s with power := { s.power with target := none, charge := none, autoIdle := auto } } c q status (if status = 0 then s.time else 0)
  | none => s

/-- Bring the requested transition to its end when its conditions hold. -/
def reachTarget (s : State) (target : PwrSt) : State :=
  if s.power.st = target then endPowerSet s 0
  else match target with
    | .drawn => if drawReady s && s.power.intent && intentsMet s then endPowerSet (enterDrawn s) 0 else sendIntents s
    | .active => endPowerSet (if s.power.st = .drawn then leaveDrawn s .active
        else { s with power := { s.power with st := .active, wake := false } }) 0
    | .idleLit => if s.power.st = .drawn then endPowerSet (leaveDrawn s .idleLit) 0
        else if quiescent s then endPowerSet { s with power := { s.power with st := .idleLit } } 0 else s

/-! ## Commands -/

/-- The power state that a TARGET names. -/
def pwrOf (n : Nat) : PwrSt := if n = 0 then .active else if n = 1 then .idleLit else .drawn

/-- POWER_STATE_SET (R409, R410, R416, R419): accepted, the transition ends at POWER_TRANSITION_COMPLETE; run again, it
sends the intents that R410 lets it send. -/
def execPowerStateSet (ctx cseq : Nat) (s : State) : Res :=
  .next (onCharge s ctx cseq 0x600 (fun e =>
    let w := pw e 0
    if e.phase ≠ 0 then sendIntents s
    else if !(fld w 1 0 ≠ 3 && fld w 15 3 = 0 && fld w 63 32 = 0 && tailZero e 8) then report s ctx cseq Status.fieldReserved 0
    else if s.power.target.isSome then report s ctx cseq Status.powerStateBusy 0
    else
      let t := pwrOf (fld w 1 0)
      let ms := if fld w 31 16 = 0 then 1000 else fld w 31 16
      let s := modRunning { s with power := { s.power with target := some t, charge := some (ctx, cseq), drawMs := ms } } ctx cseq
        (fun e => { e with phase := 1 })
      if s.power.st = t then endPowerSet s 0 else sendIntents s))

/-- AUTO_IDLE (R409): 1 ms without work. -/
def execAutoIdle (s : State) : Res :=
  .next (if s.power.st = .active && s.power.autoIdle && quiescent s then { s with power := { s.power with st := .idleLit } } else s)

/-- POWER_TRANSITION_COMPLETE (R408 to R410): a wake ends; a requested state is reached. -/
def execPowerTransitionComplete (s : State) : Res :=
  .next (
    if s.boot.off || s.boot.shutdown then s
    else
      let s := if s.power.wake && s.power.st = .idleLit then { s with power := { s.power with st := .active, wake := false } } else s
      match s.power.target with
      | some t => reachTarget s t
      | none => s)

/-- POWER_DRAW_TIMEOUT (R410): the intent is withdrawn and the module stays in its state. -/
def execPowerDrawTimeout (s : State) : Res :=
  .next (
    if s.power.target = some .drawn ∧ s.power.st ≠ .drawn then
      let t := ((List.range 8).filter (fun p => (getLPort s p).intentOut)).foldl (fun s p => sendIntent s p false) s
      endPowerSet { t with power := { t.power with intent := false } } Status.powerDrawTimeout
    else s)

/-- CORE_RAIL_LOW (R39, R369): the core rail has stood at `mv` for more than 1 µs. Below the supervisor's threshold the fabric
halts, dispatch stops and a running UPDATE mark is interrupted. A rail that is back at its threshold in ACTIVE or IDLE_LIT
ends the halt, so that the step can be recovered (R378; log 51); in DRAWN the halt lasts until the module leaves it. -/
def execCoreRailLow (mv : Nat) (s : State) : Res :=
  .next (
    if s.boot.off ∨ s.boot.shutdown ∨ s.boot.stage < 5 then s
    else if s.power.threshold ≤ mv then
      if s.power.st = .drawn ∨ s.power.lowDrawn then s else { s with power := { s.power with railLow := false } }
    else if s.power.railLow then s
    else
      let t := powerEvent { s with power := { s.power with railLow := true, lowDrawn := s.power.st = .drawn } } Status.coreRailLow
      if s.power.st = .drawn then t else interruptUpdate t Status.coreRailLow)

/-- INPUT_LOST (R405): below 32 V for more than 10 µs, or above 48 V; the module is OFF. While it is OFF already, with MOD_EN low, the
input is no longer present (R470). -/
def execInputLost (mv : Nat) (s : State) : Res :=
  if 54000 < mv then .fault .absoluteMaximum
  else .next (
    if 32000 ≤ mv ∧ mv ≤ 48000 then s
    else if s.boot.off then { s with power := { s.power with vinNow := mv } }
    else goOff s mv)

end Sys2Proof.Machine
end

