-- ==== Sys2Proof/Machine/Replay.lean ====
section
/-! DEFINITION. REPLAY (R401 to R403): the capture selection, the restore from the twin, and the RUN, which re-executes the
journalled charges of an abandoned step in a private context and reports the first divergence. -/

namespace Sys2Proof.Machine

/-! ## REPLAY (R401 to R403) -/

def rpAction (e : Entry) : Nat := fld (pw e 0) 1 0

/-- Reserved fields of REPLAY are 0, and so are those that the action does not use. -/
def replayFieldsOk (e : Entry) : Bool :=
  let a := rpAction e
  a ≤ 2 && fld (pw e 0) 63 3 = 0 && pw e 0x18 = 0 && tailZero e 0x40 && pw e 0x10 % 64 = 0 && (a = 1 || !bitOf (pw e 0) 2)
    && (a ≠ 1 || pw e 8 = 0) && (a = 0 || pw e 0x10 = 0) && (a = 1 || (slice e.params 0x20 32).all (· = 0))

/-- The journal entry of a step: the latest. -/
def journalOf (s : State) (step : Nat) : Option JEntry := s.journal.entries.find? (fun j => j.step = step)

/-- The status of a REPLAY of context `c` (R355, R401); within a RUN no other RUN or RESTORE is allowed. -/
def replayStatus (s : State) (c : Nat) (e : Entry) : Nat :=
  let a := rpAction e
  firstFail [(replayFieldsOk e, Status.fieldReserved),
    (a = 1 || (s.step.st = .idle && c ≠ replayCtx), Status.replayNotAllowed),
    (a ≠ 0 || (match s.step.lastSealed with
      | some t => t < pw e 8
      | none => true), Status.replayNotAllowed),
    (a ≠ 0 || (journalOf s (pw e 8)).isSome, Status.journalStepAbsent), (a ≠ 0 || inFast s (pw e 0x10) 64, Status.addressUnpopulated)]

/-- The row of one action of REPLAY. -/
def replayRow (s : State) (c cseq action : Nat) (f : Entry → State) : State :=
  onCharge s c cseq 0x403 (fun e => if rpAction e = action || (action = 1 && 2 < rpAction e) then f e else s)

/-- The versions in force against a journal entry's: firmware, vector, collective, update library. -/
def versionBits (s : State) (j : JEntry) : Nat :=
  let diff := fun k => decide (s.sec.version.getD k 0 ≠ j.versions.getD k 0)
  b2n ([0, 1, 2, 3, 4].any diff) + b2n (diff 5) * 2 + b2n (diff 6) * 4 + b2n (diff 7) * 8

/-! ### The charges of a RUN -/

/-- A RUN ends before this charge: the UPDATE mark, or the charge that ended the step (R400, R402). -/
def endsReplay (e : Entry) : Bool := (e.opcode = 0x400 && mkPhase e = 3) || e.opcode = 0x401 || e.opcode = 0x402

/-- The journalled charges that a RUN re-executes. -/
def replayed (j : JEntry) : List Entry := (j.charges.map JCharge.entry).takeWhile (fun e => !endsReplay e)

/-- A journalled charge as it was accepted. -/
def asAccepted (e : Entry) : Entry :=
  { cseq := e.cseq, opcode := e.opcode, tag := e.tag, quiet := e.quiet, fence := e.fence, notify := e.notify, reserved := e.reserved
    params := e.params, size := e.size, moved := true }

/-- A RUN begins: the journalled registers are loaded, and the private context holds the charges (R402). -/
def startRun (s : State) (c cseq : Nat) (j : JEntry) : State :=
  let sh := { j with charges := [], hostDigests := [], log := [], colls := [], transfers := [] }
  let t := { s with seed := j.seed, astep := j.astep, thr := j.thr
                    journal := { s.journal with running := some (c, cseq), shadow := some sh, saved := some s.step, landed := [] } }
  modRunning (setCtx t replayCtx { st := .opened, admin := j.admin, hopBase := 2 ^ 44, hopLog2 := 24, entries := (replayed j).map asAccepted })
    c cseq (fun e => { e with phase := 1 })

/-! ### Captured transfers -/

/-- The journal holds the whole transfer: its `OPEN` and every data shot. -/
def wholeCapture (t : JTransfer) : Bool := t.capture && t.data.length = t.shots + 1

/-- The captured transfers that are due: the RUN has sent the recorded number of transfers to their peer (R402). -/
def dueTransfers (j sh : JEntry) (landed : List Nat) : List (JTransfer × Nat) :=
  j.transfers.reverse.zipIdx.filter (fun t =>
    t.1.inbound && wholeCapture t.1 && !landed.contains t.2 && t.1.before ≤ sentTo sh t.1.peer)

/-- A captured transfer lands: its shots go to their core. What a collective took on a group's flow is replayed with the
collective (log 97). -/
def landTransfer (s : State) (t : JTransfer × Nat) : State :=
  let s := { s with journal := { s.journal with landed := t.2 :: s.journal.landed } }
  if (List.range 256).any (flowGroup s t.1.own t.1.flow) then s
  else t.1.data.foldl (fun s x => toCore s 10 0 0 { x with core := t.1.own }) s

/-! ### Divergences (R403) -/

/-- What a RUN found: the kind, the charge with its opcode and the status of a fault, the journalled and the replayed value, and
the words at 0x28 and 0x38 of the report. -/
structure Finding where
  kind     : Nat
  cseq     : Nat := 0
  opcode   : Nat := 0
  status   : Nat := 0
  expected : Nat := 0
  found    : Nat := 0
  w28      : Nat := 0
  w38      : Nat := 0

/-- The opcode of a journalled charge. -/
def opcodeOf (j : JEntry) (cseq : Nat) : Nat := ((j.charges.find? (fun c => c.entry.cseq = cseq)).map (fun c => c.entry.opcode)).getD 0

/-- Kinds 1 and 6: status and RESULT of a replayed charge against the journal. A failure that the journal does not hold is the
fault that stopped it (log 71). -/
def statusFinding (j : JEntry) (x : JCharge) : Option Finding :=
  let q := x.entry.cseq
  let f : Finding := { kind := 1, cseq := q, opcode := x.entry.opcode }
  match j.charges.find? (fun y => y.entry.cseq = q && y.done) with
  | some y =>
    if y.status ≠ x.status then
      if severity x.status = 2 then some { f with kind := 6, status := x.status, expected := y.status, found := x.status }
      else some { f with expected := y.status, found := x.status }
    else if y.result ≠ x.result then some { f with expected := y.result, found := x.result }
    else none
  | none => if severity x.status = 2 then some { f with kind := 6, status := x.status, found := x.status } else none

/-- Kind 4: what a HOST_READ brought. -/
def hostFinding (j : JEntry) (x : Nat × Word64) : Option Finding :=
  match j.hostDigests.find? (fun y => y.1 = x.1) with
  | some y => if y.2 = x.2 then none
      else some { kind := 4, cseq := x.1, opcode := opcodeOf j x.1, expected := y.2.toNat, found := x.2.toNat }
  | none => none

/-- The transfers on a flow of a core in one direction, in order. -/
def onFlow (j : JEntry) (inbound : Bool) (own flow : Nat) : List JTransfer :=
  j.transfers.reverse.filter (fun t => t.inbound = inbound && t.own = own && t.flow = flow)

/-- The word at 0x28 of the report: a transfer and its position on the flow. -/
def transferWord (t : JTransfer) (ordinal : Nat) : Nat :=
  t.peer % 2 ^ 14 + t.peerCore % 2 ^ 7 * 2 ^ 14 + t.own % 2 ^ 7 * 2 ^ 21 + t.flow % 2 ^ 10 * 2 ^ 28 + ordinal % 2 ^ 26 * 2 ^ 38

/-- Kind 3: outbound transfer number `i` on its flow. -/
def sendFinding (j : JEntry) (t : JTransfer) (i : Nat) : Option Finding :=
  let f : Finding := { kind := 3, cseq := t.cseq, opcode := opcodeOf j t.cseq, found := t.digest.toNat, w28 := transferWord t i }
  match (onFlow j false t.own t.flow)[i]? with
  | some u => if u.digest = t.digest ∧ u.peer = t.peer ∧ u.peerCore = t.peerCore ∧ u.shots = t.shots then none
      else some { f with expected := u.digest.toNat }
  | none => some f

/-- Every outbound transfer of the RUN with its position on its flow. -/
def sentOrdinals (sh : JEntry) : List (JTransfer × Nat) :=
  (sh.transfers.filter (fun t => !t.inbound)).tails.filterMap (fun l => match l with
    | t :: older => some (t, (older.filter (fun u => u.own = t.own && u.flow = t.flow)).length)
    | [] => none) |>.reverse

/-- What a digest record says it covers (R320). -/
def drCovers (r : Nat) : Nat := fld r 191 103

/-- Kind 2: a digest record of the RUN against the journal's. -/
def recordFinding (j : JEntry) (b : List Byte) : Option Finding :=
  let r := recNat b
  let q := ((j.charges.find? (fun c => 0x310 ≤ c.entry.opcode && c.entry.opcode ≤ 0x315 && cGroup c.entry = drGroup r
    && cSeq c.entry = drSeq r)).map (fun c => c.entry.cseq)).getD 0
  let f : Finding := { kind := 2, cseq := q, opcode := drOp r, found := (drDigest r).toNat
                       w38 := drSeq r + drGroup r * 2 ^ 32 + drA r * 2 ^ 40 + drSlice r * 2 ^ 54 + drRole r * 2 ^ 61 }
  match (j.log.map recNat).find? (fun t => drCovers t = drCovers r) with
  | some t => if drDigest t = drDigest r then none else some { f with expected := (drDigest t).toNat }
  | none => some f

/-- Kind 5, a collective: its group was not captured, so what its predecessor sent is missing. -/
def collFinding (s : State) : Option Finding :=
  (s.colls.find? (fun k =>
    let w := (getGroup s k.group).params
    k.ctx = replayCtx && !k.relay && 1 < groupSize w && (groupCores w).all (fun l => k.started.contains l)
      && (recorded s k.cseq).isNone)).map (fun k =>
    let w := (getGroup s k.group).params
    let l := (groupCores w).headD 0
    { kind := 5, cseq := k.cseq, opcode := k.opcode
      w28 := transferWord { inbound := true, peer := coordOfRank s w (ringPrev w (myRank s w)), peerCore := l, own := l,
                            flow := groupFlow w, shots := 0 } 0 })

/-- Kind 5, a program: the launch on core `own` of the private context waits for a transfer on `flow` that was not captured,
the first such one whose turn has come. -/
def needFinding (s : State) (j sh : JEntry) (q : Nat × Nat) : Option Finding :=
  match (getCore s q.1).run with
  | some r =>
    if r.item.ctx = replayCtx then
      ((onFlow j true q.1 q.2).zipIdx.find? (fun t => !wholeCapture t.1 && t.1.before ≤ sentTo sh t.1.peer)).map (fun t =>
        { kind := 5, cseq := r.item.cseq, opcode := opcodeOf j r.item.cseq, w28 := transferWord t.1 t.2 })
    else none
  | none => none

/-- The first divergence. -/
def firstFinding (s : State) (j sh : JEntry) (needs : Option (Nat × Nat)) : Option Finding :=
  (sh.hostDigests.filterMap (hostFinding j) ++ (sentOrdinals sh).filterMap (fun t => sendFinding j t.1 t.2)
    ++ (s.step.log.map Prod.snd).filterMap (recordFinding j) ++ sh.charges.filterMap (statusFinding j)
    ++ (collFinding s).toList ++ needs.toList.filterMap (needFinding s j sh)).head?

/-! ### The end of a RUN -/

/-- The 64-byte report (R403). -/
def replayReport (s : State) (j : JEntry) (charges : Nat) (f : Finding) : List Byte :=
  toLE 8 j.step ++ toLE 4 charges ++ toLE 1 f.kind ++ toLE 3 0 ++ toLE 4 f.cseq ++ toLE 2 f.opcode ++ toLE 2 f.status
    ++ toLE 8 f.expected ++ toLE 8 f.found ++ toLE 8 f.w28 ++ toLE 8 (versionBits s j) ++ toLE 8 f.w38

/-- The RUN stops: nothing of the private context is dispatched any more, and its items stop; the report is kept until they
have. -/
def stopRun (s : State) (c cseq : Nat) (b : List Byte) : State :=
  let es := (getCtx s replayCtx).entries.filter Entry.dispatched
  let t := { s with colls := s.colls.filter (fun k => k.ctx ≠ replayCtx) }
  let t := es.foldl (fun s e => stopCharge s replayCtx e.cseq) t
  modRunning (setCtx t replayCtx {}) c cseq (fun e => { e with phase := 2, staged := b })

/-- No core holds an item of the private context. -/
def replayQuiet (s : State) : Bool :=
  s.cores.all (fun x => !x.2.run.any (fun r => r.item.ctx = replayCtx) && !(x.2.queue ++ x.2.hubItems).any (fun i => i.ctx = replayCtx))

/-- The RUN is over: the step state is as the RUN found it, the registers stay loaded, the report is written. -/
def endRun (s : State) (c cseq dst : Nat) (b : List Byte) : State :=
  let k := fld (w64 b 8) 39 32
  let n := fld (w64 b 8) 31 0
  let old := s.journal.saved.getD {}
  let t := { dropRing s replayCtx with
    step := { old with lastSealed := s.step.lastSealed, folds := s.step.folds, stages := s.step.stages }
    journal := { s.journal with running := none, shadow := none, saved := none, landed := [] } }
  putReport t c cseq dst b (if k = 0 then 0 else if k = 5 then Status.replayIncomplete else Status.replayDiverged)
    (if k = 0 then 0 else n)

/-- One look of the Afiup at a RUN in progress: captured transfers that are due land; the first divergence stops it; it ends
when every charge has retired. -/
def watchRun (s : State) (c cseq : Nat) (j sh : JEntry) (needs : Option (Nat × Nat)) : State :=
  let s := (dueTransfers j sh s.journal.landed).foldl landTransfer s
  match firstFinding s j sh needs with
  | some f => stopRun s c cseq (replayReport s j sh.charges.length f)
  | none =>
    if (getCtx s replayCtx).entries = [] then stopRun s c cseq (replayReport s j sh.charges.length { kind := 0 })
    else s

/-- REPLAY_RUN (R402, R403): the first step starts the run, each further step looks at it, the last writes the report. `needs`
names the core and the flow on which a replayed program waits for a transfer. -/
def execReplayRun (ctx cseq : Nat) (needs : Option (Nat × Nat)) (s : State) : Res :=
  .next (replayRow s ctx cseq 0 (fun e =>
    if e.phase = 0 then
      if replaying s && ctx ≠ replayCtx then s
      else
        let st := replayStatus s ctx e
        if st ≠ 0 then report s ctx cseq st 0
        else match journalOf s (pw e 8) with
          | some j => startRun s ctx cseq j
          | none => s
    else if e.phase = 1 then
      match journalOf s (pw e 8), s.journal.shadow with
      | some j, some sh => watchRun s ctx cseq j sh needs
      | _, _ => s
    else if replayQuiet s then endRun s ctx cseq (pw e 0x10) e.staged
    else s))

/-- REPLAY_CAPTURE (R401): the selection of the next FORWARD mark. -/
def execReplayCapture (ctx cseq : Nat) (s : State) : Res :=
  .next (replayRow s ctx cseq 1 (fun e =>
    let st := replayStatus s ctx e
    if st ≠ 0 then report s ctx cseq st 0
    else report { s with journal := { s.journal with nextGroups := bitsOf 256 (leNat (slice e.params 0x20 32)), nextSends := bitOf (pw e 0) 2 } }
      ctx cseq 0 0))

/-- REPLAY_RESTORE (R397, R401): the request goes to the holder that the map names. -/
def execReplayRestore (ctx cseq : Nat) (s : State) : Res :=
  .next (replayRow s ctx cseq 2 (fun e =>
    if e.phase ≠ 0 then s
    else
      let st := replayStatus s ctx e
      if st ≠ 0 then report s ctx cseq st 0
      else match twinOf s with
        | none => report s ctx cseq Status.twinUnreachable 0
        | some (_, c) =>
          let t := { s with twin := { s.twin with restore := some (ctx, cseq), restored := [], corrupt := false } }
          modRunning (sendMirror t c { kind := 4, step := pw e 8, serial := s.ident.serial } []) ctx cseq (fun e => { e with phase := 1 })))

end Sys2Proof.Machine
end

