-- ==== Sys2Proof/Machine/WorkQueue.lean ====
section
/-! DEFINITION. The start of a work-queue item on a core (R85, R102, R104, R302 to R304, R366). -/

namespace Sys2Proof.Machine

/-- The item that core `l` has taken does what its kind asks: a load or a group definition ends at once, the others run. -/
def runItem (s : State) (l : Nat) (i : Item) : State :=
  match i.kind with
  | .progLoad => endItem (modCore s l (fun x => loadInstr x i)) l
  | .tableLoad => endItem (modCore s l (fun x => loadTable x i)) l
  | .launch => modCore s l (fun x => startLaunch x i)
  | .groupDefine => runGroupItem s l i
  | .collective => runCollItem s l i
  | .update => if (getCore s l).dirtyUpd then reloadLib s l false else s

/-- WORK_QUEUE_ITEM_START (R104): the core takes the first item of its queue when it runs none. -/
def execWorkQueueItemStart (core : Nat) (s : State) : Res :=
  .next (match itemReady s core with
    | some i => runItem (takeItem s core i) core i
    | none => s)

end Sys2Proof.Machine
end

