-- ==== Sys2Proof/Machine/Dispatch.lean ====
section
/-! DEFINITION. One arm per command: its meaning, or its rejection by name. -/

namespace Sys2Proof.Machine

/-- The effect of a command on everything but the queue. -/
def exec (i : Instr) (s : State) : Host.Outcome State Fault Refusal :=
  match i with
  | .intakeWrite p ctx off data => Sys2Proof.Machine.execIntakeWrite p ctx off data s
  | .chargeDispatch ctx f => Sys2Proof.Machine.execChargeDispatch ctx f s
  | .executorFinishReport ctx cseq => Sys2Proof.Machine.execExecutorFinishReport ctx cseq s
  | .abortMark ctx => Sys2Proof.Machine.execAbortMark ctx s
  | .chargeRetire ctx => Sys2Proof.Machine.execChargeRetire ctx s
  | .consumedCountPoll ctx value => Sys2Proof.Machine.execConsumedCountPoll ctx value s
  | .takeoverApply ctx => Sys2Proof.Machine.execTakeoverApply ctx s
  | .bar4Write p off data f => Sys2Proof.Machine.execBar4Write p off data f s
  | .bar4Read p off len f => Sys2Proof.Machine.execBar4Read p off len f s
  | .registerWrite p off data => Sys2Proof.Machine.execRegisterWrite p off data s
  | .portReset p => Sys2Proof.Machine.execPortReset p s
  | .functionLevelReset p => Sys2Proof.Machine.execFunctionLevelReset p s
  | .d3hotEntry p => Sys2Proof.Machine.execD3hotEntry p s
  | .portLinkLoss p => Sys2Proof.Machine.execPortLinkLoss p s
  | .busMasterEnableClear p => Sys2Proof.Machine.execBusMasterEnableClear p s
  | .ctxOpen ctx => Sys2Proof.Machine.execCtxOpen ctx s
  | .ctxClose ctx cseq => Sys2Proof.Machine.execCtxClose ctx cseq s
  | .ctxTakeover ctx => Sys2Proof.Machine.execCtxTakeover ctx s
  | .ctxReset ctx cseq => Sys2Proof.Machine.execCtxReset ctx cseq s
  | .hopperFlush ctx cseq => Sys2Proof.Machine.execHopperFlush ctx cseq s
  | .chargeAbort ctx cseq => Sys2Proof.Machine.execChargeAbort ctx cseq s
  | .nop ctx cseq => Sys2Proof.Machine.execNop ctx cseq s
  | .mapLoad ctx cseq f => Sys2Proof.Machine.execMapLoad ctx cseq f s
  | .mapRead ctx cseq => Sys2Proof.Machine.execMapRead ctx cseq s
  | .copy ctx cseq f => Sys2Proof.Machine.execCopy ctx cseq f s
  | .fill ctx cseq f => Sys2Proof.Machine.execFill ctx cseq f s
  | .hostRead ctx cseq data f => Sys2Proof.Machine.execHostRead ctx cseq data f s
  | .hostWrite ctx cseq f => Sys2Proof.Machine.execHostWrite ctx cseq f s
  | .gather ctx cseq f => Sys2Proof.Machine.execGather ctx cseq f s
  | .progLoad ctx cseq f => Sys2Proof.Machine.execProgLoad ctx cseq f s
  | .tableLoad ctx cseq f => Sys2Proof.Machine.execTableLoad ctx cseq f s
  | .launch ctx cseq f => Sys2Proof.Machine.execLaunch ctx cseq f s
  | .workQueueItemStart core => Sys2Proof.Machine.execWorkQueueItemStart core s
  | .launchStop core => Sys2Proof.Machine.execLaunchStop core s
  | .groupDefine ctx cseq => Sys2Proof.Machine.execGroupDefine ctx cseq s
  | .allReduce ctx cseq f => Sys2Proof.Machine.execAllReduce ctx cseq f s
  | .reduceScatter ctx cseq f => Sys2Proof.Machine.execReduceScatter ctx cseq f s
  | .allGather ctx cseq f => Sys2Proof.Machine.execAllGather ctx cseq f s
  | .allToAllV ctx cseq f => Sys2Proof.Machine.execAllToAllV ctx cseq f s
  | .broadcast ctx cseq f => Sys2Proof.Machine.execBroadcast ctx cseq f s
  | .barrier ctx cseq => Sys2Proof.Machine.execBarrier ctx cseq s
  | .phaseMarkForward ctx cseq => Sys2Proof.Machine.execPhaseMarkForward ctx cseq s
  | .phaseMarkBackward ctx cseq => Sys2Proof.Machine.execPhaseMarkBackward ctx cseq s
  | .phaseMarkExchange ctx cseq => Sys2Proof.Machine.execPhaseMarkExchange ctx cseq s
  | .phaseMarkUpdate ctx cseq => Sys2Proof.Machine.execPhaseMarkUpdate ctx cseq s
  | .seal ctx cseq => Sys2Proof.Machine.execSeal ctx cseq s
  | .rollbackRedo ctx cseq mirror => Sys2Proof.Machine.execRollbackRedo ctx cseq mirror s
  | .rollbackAbandon ctx cseq mirror => Sys2Proof.Machine.execRollbackAbandon ctx cseq mirror s
  | .replayRun ctx cseq needs => Sys2Proof.Machine.execReplayRun ctx cseq needs s
  | .replayCapture ctx cseq => Sys2Proof.Machine.execReplayCapture ctx cseq s
  | .replayRestore ctx cseq => Sys2Proof.Machine.execReplayRestore ctx cseq s
  | .linkStatus ctx cseq => Sys2Proof.Machine.execLinkStatus ctx cseq s
  | .linkRetrain ctx cseq => Sys2Proof.Machine.execLinkRetrain ctx cseq s
  | .routeTableLoad ctx cseq => Sys2Proof.Machine.execRouteTableLoad ctx cseq s
  | .routeEpochSwitch ctx cseq => Sys2Proof.Machine.execRouteEpochSwitch ctx cseq s
  | .mcastTreeLoad ctx cseq => Sys2Proof.Machine.execMcastTreeLoad ctx cseq s
  | .powerStateSet ctx cseq => Sys2Proof.Machine.execPowerStateSet ctx cseq s
  | .powerLimitSet ctx cseq => Sys2Proof.Machine.execPowerLimitSet ctx cseq s
  | .ladleStatus ctx cseq => Sys2Proof.Machine.execLadleStatus ctx cseq s
  | .attestQuote ctx cseq => Sys2Proof.Machine.execAttestQuote ctx cseq s
  | .fwUpdate ctx cseq f => Sys2Proof.Machine.execFwUpdate ctx cseq f s
  | .debugOpen ctx cseq fuseBurns f => Sys2Proof.Machine.execDebugOpen ctx cseq fuseBurns f s
  | .debugClose ctx cseq => Sys2Proof.Machine.execDebugClose ctx cseq s
  | .lifecycleAdvance ctx cseq f => Sys2Proof.Machine.execLifecycleAdvance ctx cseq f s
  | .countersRead ctx cseq => Sys2Proof.Machine.execCountersRead ctx cseq s
  | .phaseRecordsRead ctx cseq => Sys2Proof.Machine.execPhaseRecordsRead ctx cseq s
  | .eventRingSet ctx cseq => Sys2Proof.Machine.execEventRingSet ctx cseq s
  | .bistRun ctx cseq found => Sys2Proof.Machine.execBistRun ctx cseq found s
  | .loopbackTestEnd link errors => Sys2Proof.Machine.execLoopbackTestEnd link errors s
  | .hbmRepair ctx cseq f => Sys2Proof.Machine.execHbmRepair ctx cseq f s
  | .mbistRead ctx cseq => Sys2Proof.Machine.execMbistRead ctx cseq s
  | .coreFence ctx cseq => Sys2Proof.Machine.execCoreFence ctx cseq s
  | .siteTest ctx cseq failingUnit => Sys2Proof.Machine.execSiteTest ctx cseq failingUnit s
  | .salfelNop core => Sys2Proof.Machine.execSalfelNop core s
  | .add core => Sys2Proof.Machine.execAdd core s
  | .sub core => Sys2Proof.Machine.execSub core s
  | .mul core => Sys2Proof.Machine.execMul core s
  | .mulhu core => Sys2Proof.Machine.execMulhu core s
  | .and core => Sys2Proof.Machine.execAnd core s
  | .or core => Sys2Proof.Machine.execOr core s
  | .xor core => Sys2Proof.Machine.execXor core s
  | .shl core => Sys2Proof.Machine.execShl core s
  | .shr core => Sys2Proof.Machine.execShr core s
  | .sar core => Sys2Proof.Machine.execSar core s
  | .min core => Sys2Proof.Machine.execMin core s
  | .max core => Sys2Proof.Machine.execMax core s
  | .sethi core => Sys2Proof.Machine.execSethi core s
  | .cmpeq core => Sys2Proof.Machine.execCmpeq core s
  | .cmplt core => Sys2Proof.Machine.execCmplt core s
  | .cmpltu core => Sys2Proof.Machine.execCmpltu core s
  | .pset core => Sys2Proof.Machine.execPset core s
  | .br core => Sys2Proof.Machine.execBr core s
  | .call core => Sys2Proof.Machine.execCall core s
  | .jmp core => Sys2Proof.Machine.execJmp core s
  | .loop core => Sys2Proof.Machine.execLoop core s
  | .halt core => Sys2Proof.Machine.execHalt core s
  | .trap core => Sys2Proof.Machine.execTrap core s
  | .ld core f => Sys2Proof.Machine.execLd core f s
  | .st core => Sys2Proof.Machine.execSt core s
  | .aadd core f => Sys2Proof.Machine.execAadd core f s
  | .aadds core f => Sys2Proof.Machine.execAadds core f s
  | .aswap core f => Sys2Proof.Machine.execAswap core f s
  | .arr core f => Sys2Proof.Machine.execArr core f s
  | .vec core f => Sys2Proof.Machine.execVec core f s
  | .mov core f => Sys2Proof.Machine.execMov core f s
  | .qwait core => Sys2Proof.Machine.execQwait core s
  | .push core ptrMismatch f => Sys2Proof.Machine.execPush core ptrMismatch f s
  | .pop core ptrMismatch f => Sys2Proof.Machine.execPop core ptrMismatch f s
  | .popw core ptrMismatch f => Sys2Proof.Machine.execPopw core ptrMismatch f s
  | .sig core => Sys2Proof.Machine.execSig core s
  | .waitc core => Sys2Proof.Machine.execWaitc core s
  | .waito core => Sys2Proof.Machine.execWaito core s
  | .rset core => Sys2Proof.Machine.execRset core s
  | .rread core => Sys2Proof.Machine.execRread core s
  | .time core => Sys2Proof.Machine.execTime core s
  | .whoami core => Sys2Proof.Machine.execWhoami core s
  | .ladleGrant core engine => Sys2Proof.Machine.execLadleGrant core engine s
  | .arrayDescriptorStart core array f => Sys2Proof.Machine.execArrayDescriptorStart core array f s
  | .checkGroupVerdict core array first again other f => Sys2Proof.Machine.execCheckGroupVerdict core array first again other f s
  | .strikeExpiry core array => Sys2Proof.Machine.execStrikeExpiry core array s
  | .completionSignal core engine f => Sys2Proof.Machine.execCompletionSignal core engine f s
  | .convert core f => Sys2Proof.Machine.execConvert core f s
  | .vecAdd core f => Sys2Proof.Machine.execVecAdd core f s
  | .vecMul core f => Sys2Proof.Machine.execVecMul core f s
  | .fma core f => Sys2Proof.Machine.execFma core f s
  | .axpby core f => Sys2Proof.Machine.execAxpby core f s
  | .residAdd core f => Sys2Proof.Machine.execResidAdd core f s
  | .relu core f => Sys2Proof.Machine.execRelu core f s
  | .sigmoid core f => Sys2Proof.Machine.execSigmoid core f s
  | .tanh core f => Sys2Proof.Machine.execTanh core f s
  | .exp core f => Sys2Proof.Machine.execExp core f s
  | .gelu core f => Sys2Proof.Machine.execGelu core f s
  | .silu core f => Sys2Proof.Machine.execSilu core f s
  | .swiglu core f => Sys2Proof.Machine.execSwiglu core f s
  | .softmaxRow core f => Sys2Proof.Machine.execSoftmaxRow core f s
  | .softmaxParts core f => Sys2Proof.Machine.execSoftmaxParts core f s
  | .rmsnorm core f => Sys2Proof.Machine.execRmsnorm core f s
  | .layernorm core f => Sys2Proof.Machine.execLayernorm core f s
  | .rowSumsq core f => Sys2Proof.Machine.execRowSumsq core f s
  | .scaleRows core f => Sys2Proof.Machine.execScaleRows core f s
  | .dropout core f => Sys2Proof.Machine.execDropout core f s
  | .rowStats core f => Sys2Proof.Machine.execRowStats core f s
  | .update core f => Sys2Proof.Machine.execUpdate core f s
  | .pwpoly core f => Sys2Proof.Machine.execPwpoly core f s
  | .moveCopy core mover hostData f => Sys2Proof.Machine.execMoveCopy core mover hostData f s
  | .moveFill core mover f => Sys2Proof.Machine.execMoveFill core mover f s
  | .moveSend core mover f => Sys2Proof.Machine.execMoveSend core mover f s
  | .moveSendAtomic core mover f => Sys2Proof.Machine.execMoveSendAtomic core mover f s
  | .moveRunnerPush core mover ptrMismatch f => Sys2Proof.Machine.execMoveRunnerPush core mover ptrMismatch f s
  | .moveRunnerPop core mover ptrMismatch f => Sys2Proof.Machine.execMoveRunnerPop core mover ptrMismatch f s
  | .moveGather core mover f => Sys2Proof.Machine.execMoveGather core mover f s
  | .patrolScrubRow core bank row f => Sys2Proof.Machine.execPatrolScrubRow core bank row f s
  | .runnerFlush core runner => Sys2Proof.Machine.execRunnerFlush core runner s
  | .runCfgWrite core runner value => Sys2Proof.Machine.execRunCfgWrite core runner value s
  | .runSpillWrite core runner value => Sys2Proof.Machine.execRunSpillWrite core runner value s
  | .spillTailWrite core runner ptrMismatch => Sys2Proof.Machine.execSpillTailWrite core runner ptrMismatch s
  | .spillHeadRefill core runner ptrMismatch f => Sys2Proof.Machine.execSpillHeadRefill core runner ptrMismatch f s
  | .memoryPatrol addr corrected f => Sys2Proof.Machine.execMemoryPatrol addr corrected f s
  | .bridgeUnit die good => Sys2Proof.Machine.execBridgeUnit die good s
  | .bridgeLost die => Sys2Proof.Machine.execBridgeLost die s
  | .linkDataFrame link wire fecOk => Sys2Proof.Machine.execLinkDataFrame link wire fecOk s
  | .ackOnlyFrame link wire fecOk => Sys2Proof.Machine.execAckOnlyFrame link wire fecOk s
  | .idleFrameTimer link => Sys2Proof.Machine.execIdleFrameTimer link s
  | .ackTimeout link => Sys2Proof.Machine.execAckTimeout link s
  | .retryLimit link => Sys2Proof.Machine.execRetryLimit link s
  | .lossOfLock link => Sys2Proof.Machine.execLossOfLock link s
  | .linkTrained link => Sys2Proof.Machine.execLinkTrained link s
  | .trainingFailed link => Sys2Proof.Machine.execTrainingFailed link s
  | .dropRetrainTimer link => Sys2Proof.Machine.execDropRetrainTimer link s
  | .dropAllowanceSpanEnd link => Sys2Proof.Machine.execDropAllowanceSpanEnd link s
  | .linkLeaveBundle link => Sys2Proof.Machine.execLinkLeaveBundle link s
  | .challenge link wire fecOk => Sys2Proof.Machine.execChallenge link wire fecOk s
  | .identity link wire fecOk => Sys2Proof.Machine.execIdentity link wire fecOk s
  | .verdict link wire fecOk => Sys2Proof.Machine.execVerdict link wire fecOk s
  | .drop link wire fecOk => Sys2Proof.Machine.execDrop link wire fecOk s
  | .leave link wire fecOk => Sys2Proof.Machine.execLeave link wire fecOk s
  | .drawnIntent link wire fecOk => Sys2Proof.Machine.execDrawnIntent link wire fecOk s
  | .linkControlRepeat link => Sys2Proof.Machine.execLinkControlRepeat link s
  | .neighborSolicitation link target => Sys2Proof.Machine.execNeighborSolicitation link target s
  | .echoRequest link dest data => Sys2Proof.Machine.execEchoRequest link dest data s
  | .shotForward port => Sys2Proof.Machine.execShotForward port s
  | .openFlow core shot => Sys2Proof.Machine.execOpenFlow core shot s
  | .write core shot f => Sys2Proof.Machine.execWrite core shot f s
  | .atomic core shot f => Sys2Proof.Machine.execAtomic core shot f s
  | .atomicSat core shot f => Sys2Proof.Machine.execAtomicSat core shot f s
  | .entry core shot ptrMismatch => Sys2Proof.Machine.execEntry core shot ptrMismatch s
  | .nack core shot => Sys2Proof.Machine.execNack core shot s
  | .drain port shot => Sys2Proof.Machine.execDrain port shot s
  | .drainEmit port => Sys2Proof.Machine.execDrainEmit port s
  | .piece coord head data => Sys2Proof.Machine.execPiece coord head data s
  | .commit coord head => Sys2Proof.Machine.execCommit coord head s
  | .ack coord head => Sys2Proof.Machine.execAck coord head s
  | .restoreReq coord head => Sys2Proof.Machine.execRestoreReq coord head s
  | .restoreEnd coord head => Sys2Proof.Machine.execRestoreEnd coord head s
  | .fold head => Sys2Proof.Machine.execFold head s
  | .sealStage head data => Sys2Proof.Machine.execSealStage head data s
  | .collEndMessage payload => Sys2Proof.Machine.execCollEndMessage payload s
  | .ready core box f => Sys2Proof.Machine.execReady core box f s
  | .grant core box f => Sys2Proof.Machine.execGrant core box f s
  | .count core box f => Sys2Proof.Machine.execCount core box f s
  | .digest core box f => Sys2Proof.Machine.execDigest core box f s
  | .finish core box f => Sys2Proof.Machine.execFinish core box f s
  | .collStalled ctx cseq => Sys2Proof.Machine.execCollStalled ctx cseq s
  | .sealStalled => Sys2Proof.Machine.execSealStalled s
  | .twinMirrorLagging => Sys2Proof.Machine.execTwinMirrorLagging s
  | .twinUnreachable => Sys2Proof.Machine.execTwinUnreachable s
  | .fenceStart die => Sys2Proof.Machine.execFenceStart die s
  | .fenceStopComplete die stopNs => Sys2Proof.Machine.execFenceStopComplete die stopNs s
  | .transplantComplete die transplantNs f => Sys2Proof.Machine.execTransplantComplete die transplantNs f s
  | .transplantFailed die transplantNs => Sys2Proof.Machine.execTransplantFailed die transplantNs s
  | .fenceBindComplete die => Sys2Proof.Machine.execFenceBindComplete die s
  | .storeReloaded core store index corrected => Sys2Proof.Machine.execStoreReloaded core store index corrected s
  | .faultWindowExpiry site cls => Sys2Proof.Machine.execFaultWindowExpiry site cls s
  | .afiupRestartComplete => Sys2Proof.Machine.execAfiupRestartComplete s
  | .inputLow mv => Sys2Proof.Machine.execInputLow mv s
  | .inputHigh mv => Sys2Proof.Machine.execInputHigh mv s
  | .inputLost mv => Sys2Proof.Machine.execInputLost mv s
  | .powerOverdraw => Sys2Proof.Machine.execPowerOverdraw s
  | .poolRestore => Sys2Proof.Machine.execPoolRestore s
  | .autoIdle => Sys2Proof.Machine.execAutoIdle s
  | .powerTransitionComplete => Sys2Proof.Machine.execPowerTransitionComplete s
  | .powerDrawTimeout => Sys2Proof.Machine.execPowerDrawTimeout s
  | .junctionSensorRead hottest => Sys2Proof.Machine.execJunctionSensorRead hottest s
  | .coreRailLow mv => Sys2Proof.Machine.execCoreRailLow mv s
  | .fabRateWindow dieA dieB => Sys2Proof.Machine.execFabRateWindow dieA dieB s
  | .debugTokenExpiry => Sys2Proof.Machine.execDebugTokenExpiry s
  | .nonceExpiry => Sys2Proof.Machine.execNonceExpiry s
  | .dbgCoreHalt core halt => Sys2Proof.Machine.execDbgCoreHalt core halt s
  | .dbgCoreStep core ptrMismatch f => Sys2Proof.Machine.execDbgCoreStep core ptrMismatch f s
  | .dbgCoreBpEn core en pc => Sys2Proof.Machine.execDbgCoreBpEn core en pc s
  | .eventRingWrite consumed => Sys2Proof.Machine.execEventRingWrite consumed s
  | .powerOnReset mv => Sys2Proof.Machine.execPowerOnReset mv s
  | .modResetN => Sys2Proof.Machine.execModResetN s
  | .sidebandResetRequest => Sys2Proof.Machine.execSidebandResetRequest s
  | .modEn level => Sys2Proof.Machine.execModEn level s
  | .bootStageComplete badActive badOther memOk => Sys2Proof.Machine.execBootStageComplete badActive badOther memOk s
  | .perstDeassert p => Sys2Proof.Machine.execPerstDeassert p s
  | .pcieDetectExit p => Sys2Proof.Machine.execPcieDetectExit p s
  | .bypass => Sys2Proof.Machine.execBypass s
  | .idcode => Sys2Proof.Machine.execIdcode s
  | .samplePreload => Sys2Proof.Machine.execSamplePreload s
  | .extest => Sys2Proof.Machine.execExtest s
  | .clamp => Sys2Proof.Machine.execClamp s
  | .highz => Sys2Proof.Machine.execHighz s
  | .entdaa addr => Sys2Proof.Machine.execEntdaa addr s
  | .mctpMessage request => Sys2Proof.Machine.execMctpMessage request s
  | .inputInOperatingRange mv => Sys2Proof.Machine.execInputInOperatingRange mv s
  | .inputPowerMeasurement mv watts peak avg => Sys2Proof.Machine.execInputPowerMeasurement mv watts peak avg s
  | .modResetNRelease => Sys2Proof.Machine.execModResetNRelease s
  | .busMasterEnableSet p cfg => Sys2Proof.Machine.execBusMasterEnableSet p cfg s
  | .portLinkUp p => Sys2Proof.Machine.execPortLinkUp p s
  | .d3hotExit p => Sys2Proof.Machine.execD3hotExit p s
  | .pcieCompletionTimeout p ctx cseq => Sys2Proof.Machine.execPcieCompletionTimeout p ctx cseq s
  | .tapPrivateInstruction code => Sys2Proof.Machine.execTapPrivateInstruction code s

end Sys2Proof.Machine
end

