-- ==== Sys2Proof/Machine/Idle.lean ====
section
/-! DEFINITION. The passing of module time (R43, R44, R418): one period of the 25 MHz oscillator. -/

namespace Sys2Proof.Machine

/-- Length in picoseconds of period `i` of the spread profile (R44, R418): 40 ns, spread by up to 0.5 % along a triangle over
the 800 periods of 32 µs, so that the 800 lengths sum to 32 µs (the triangle in steps of 1 ps: log 2). -/
def periodPs (i : Nat) : Nat := if i < 200 then 40000 + i else if i < 600 then 40400 - i else 39200 + i

/-- The period of the profile at which the oscillator stands: its place at power-on is open (log 2). -/
def profileAt (s : State) : Nat := (Config.oscillator + s.osc) % 800

/-- One oscillator period passes: the counter adds its exact length, in whole nanoseconds with the rest kept (R44). In OFF
nothing counts (R43); while the input is gone no oscillator runs. The counter never wraps in service (R43); the field is kept
below 2^64. -/
def idleTick (s : State) : State :=
  if s.boot.off then s
  else
    let ps := s.oscPs + periodPs (profileAt s)
    { s with time := (s.time + ps / 1000) % 2 ^ 64, oscPs := ps % 1000, osc := (s.osc + 1) % 800 }

end Sys2Proof.Machine
end

