-- ==== Sys2Proof/WellFormed.lean ====
section
/-! DEFINITION. Well-formed commands: the operands name units that exist (contexts R53, cores R11, links and ports R249,
engines R90, runners R202, array 0 or 1) and the data that arrives has a size that its carrier can have (posted writes,
shots R252, pieces R392). A command that is not well formed is none of the part's steps. -/

namespace Sys2Proof

/-- A context number (R59). -/
def ctxOk (c : Nat) : Bool := c < 1024

/-- The context of a charge's row: a context, or the private context of a replay (R402), number 1,024 in the model. -/
def chargeCtxOk (c : Nat) : Bool := c ≤ 1024

/-- A logical core (R21). -/
def coreOk (l : Nat) : Bool := l < 88

/-- A link (R249). -/
def linkOk (n : Nat) : Bool := n < 48

/-- A link port (R33). -/
def portOk (p : Nat) : Bool := p < 10

/-- A die. -/
def dieOk (d : Nat) : Bool := d < 2

/-- A site in the layout of CORE_BIND[7:0] (R24): die, row 0 to 5, column 0 to 7. -/
def siteOk (x : Nat) : Bool := x < 256 && (x / 8) % 2 = 0 && (x / 16) % 8 < 6

/-- What a host can configure (R49). -/
def PortCfg.wf (c : PortCfg) : Bool :=
  [128, 256, 512].contains c.mps && [128, 256, 512, 1024, 2048, 4096].contains c.mrrs

/-- A shot: fields within their widths, 64 payload bytes (R252). -/
def Shot.wf (x : Shot) : Bool :=
  x.dest < 2 ^ 14 && x.core < 128 && x.vl < 4 && x.epoch < 4 && x.typ < 16 && x.flow < 1024 && x.seq < 4096
    && x.payload.length = 64 && x.tail < 2 ^ 64

/-- A frame on a link: at most 63 words between header and trailer in direct mode, at most 8,726 bytes with a VLAN tag in network
mode (R262, R277). -/
def wireOk (n : Nat) (wire : List Byte) : Bool := if n < 42 then wire.length ≤ 528 else wire.length ≤ 8726

/-- Bytes that one posted write can carry (R49: at most 512 bytes). -/
def writeOk (off : Nat) (data : List Byte) (size : Nat) : Bool :=
  data.length ≠ 0 && data.length ≤ 512 && off + data.length ≤ size

/-- The operands of a command are in range. -/
def Instr.wf : Instr → Bool
  | .intakeWrite _ c off d => ctxOk c && writeOk off d 65536
  | .chargeDispatch c _ => chargeCtxOk c
  | .executorFinishReport c _ => chargeCtxOk c
  | .abortMark c => chargeCtxOk c
  | .chargeRetire c => chargeCtxOk c
  | .consumedCountPoll c v => ctxOk c && v < 2 ^ 64
  | .takeoverApply c => ctxOk c
  | .bar4Write _ off d _ => writeOk off d (2 ^ 36)
  | .bar4Read _ off len _ => off + len ≤ 2 ^ 36 && len ≤ 4096
  | .registerWrite _ off d => writeOk off d (2 ^ 20)
  | .portReset _ => true
  | .functionLevelReset _ => true
  | .d3hotEntry _ => true
  | .portLinkLoss _ => true
  | .busMasterEnableClear _ => true
  | .ctxOpen c => ctxOk c
  | .ctxClose c _ => chargeCtxOk c
  | .ctxTakeover c => ctxOk c
  | .ctxReset c _ => chargeCtxOk c
  | .hopperFlush c _ => chargeCtxOk c
  | .chargeAbort c _ => chargeCtxOk c
  | .nop c _ => chargeCtxOk c
  | .mapLoad c _ _ => chargeCtxOk c
  | .mapRead c _ => chargeCtxOk c
  | .copy c _ _ => chargeCtxOk c
  | .fill c _ _ => chargeCtxOk c
  | .hostRead c _ _ _ => chargeCtxOk c
  | .hostWrite c _ _ => chargeCtxOk c
  | .gather c _ _ => chargeCtxOk c
  | .progLoad c _ _ => chargeCtxOk c
  | .tableLoad c _ _ => chargeCtxOk c
  | .launch c _ _ => chargeCtxOk c
  | .workQueueItemStart l => coreOk l
  | .launchStop l => coreOk l
  | .groupDefine c _ => chargeCtxOk c
  | .allReduce c _ _ => chargeCtxOk c
  | .reduceScatter c _ _ => chargeCtxOk c
  | .allGather c _ _ => chargeCtxOk c
  | .allToAllV c _ _ => chargeCtxOk c
  | .broadcast c _ _ => chargeCtxOk c
  | .barrier c _ => chargeCtxOk c
  | .phaseMarkForward c _ => chargeCtxOk c
  | .phaseMarkBackward c _ => chargeCtxOk c
  | .phaseMarkExchange c _ => chargeCtxOk c
  | .phaseMarkUpdate c _ => chargeCtxOk c
  | .seal c _ => chargeCtxOk c
  | .rollbackRedo c _ m => chargeCtxOk c && m.all (fun p => p.2.length = 65536)
  | .rollbackAbandon c _ m => chargeCtxOk c && m.all (fun p => p.2.length = 65536)
  | .replayRun c _ n => chargeCtxOk c && (n.toList.all (fun q => q.1 < 88 && q.2 < 1024))
  | .replayCapture c _ => chargeCtxOk c
  | .replayRestore c _ => chargeCtxOk c
  | .linkStatus c _ => chargeCtxOk c
  | .linkRetrain c _ => chargeCtxOk c
  | .routeTableLoad c _ => chargeCtxOk c
  | .routeEpochSwitch c _ => chargeCtxOk c
  | .mcastTreeLoad c _ => chargeCtxOk c
  | .powerStateSet c _ => chargeCtxOk c
  | .powerLimitSet c _ => chargeCtxOk c
  | .ladleStatus c _ => chargeCtxOk c
  | .attestQuote c _ => chargeCtxOk c
  | .fwUpdate c _ _ => chargeCtxOk c
  | .debugOpen c _ _ _ => chargeCtxOk c
  | .debugClose c _ => chargeCtxOk c
  | .lifecycleAdvance c _ _ => chargeCtxOk c
  | .countersRead c _ => chargeCtxOk c
  | .phaseRecordsRead c _ => chargeCtxOk c
  | .eventRingSet c _ => chargeCtxOk c
  | .bistRun c _ f => chargeCtxOk c && f.rows.all (· < 2 ^ 29) && f.units.all (· % 64 = 0)
  | .loopbackTestEnd n _ => linkOk n
  | .hbmRepair c _ _ => chargeCtxOk c
  | .mbistRead c _ => chargeCtxOk c
  | .coreFence c _ => chargeCtxOk c
  | .siteTest c _ u => chargeCtxOk c && u < 8
  | .salfelNop l => coreOk l
  | .add l => coreOk l
  | .sub l => coreOk l
  | .mul l => coreOk l
  | .mulhu l => coreOk l
  | .and l => coreOk l
  | .or l => coreOk l
  | .xor l => coreOk l
  | .shl l => coreOk l
  | .shr l => coreOk l
  | .sar l => coreOk l
  | .min l => coreOk l
  | .max l => coreOk l
  | .sethi l => coreOk l
  | .cmpeq l => coreOk l
  | .cmplt l => coreOk l
  | .cmpltu l => coreOk l
  | .pset l => coreOk l
  | .br l => coreOk l
  | .call l => coreOk l
  | .jmp l => coreOk l
  | .loop l => coreOk l
  | .halt l => coreOk l
  | .trap l => coreOk l
  | .ld l _ => coreOk l
  | .st l => coreOk l
  | .aadd l _ => coreOk l
  | .aadds l _ => coreOk l
  | .aswap l _ => coreOk l
  | .arr l _ => coreOk l
  | .vec l _ => coreOk l
  | .mov l _ => coreOk l
  | .qwait l => coreOk l
  | .push l _ _ => coreOk l
  | .pop l _ _ => coreOk l
  | .popw l _ _ => coreOk l
  | .sig l => coreOk l
  | .waitc l => coreOk l
  | .waito l => coreOk l
  | .rset l => coreOk l
  | .rread l => coreOk l
  | .time l => coreOk l
  | .whoami l => coreOk l
  | .ladleGrant l e => coreOk l && e < 7
  | .arrayDescriptorStart l a _ => coreOk l && a < 2
  | .checkGroupVerdict l a _ _ _ _ => coreOk l && a < 2
  | .strikeExpiry l a => coreOk l && a < 2
  | .completionSignal l e _ => coreOk l && e < 7
  | .convert l _ => coreOk l
  | .vecAdd l _ => coreOk l
  | .vecMul l _ => coreOk l
  | .fma l _ => coreOk l
  | .axpby l _ => coreOk l
  | .residAdd l _ => coreOk l
  | .relu l _ => coreOk l
  | .sigmoid l _ => coreOk l
  | .tanh l _ => coreOk l
  | .exp l _ => coreOk l
  | .gelu l _ => coreOk l
  | .silu l _ => coreOk l
  | .swiglu l _ => coreOk l
  | .softmaxRow l _ => coreOk l
  | .softmaxParts l _ => coreOk l
  | .rmsnorm l _ => coreOk l
  | .layernorm l _ => coreOk l
  | .rowSumsq l _ => coreOk l
  | .scaleRows l _ => coreOk l
  | .dropout l _ => coreOk l
  | .rowStats l _ => coreOk l
  | .update l _ => coreOk l
  | .pwpoly l _ => coreOk l
  | .moveCopy l m _ _ => coreOk l && m < 4
  | .moveFill l m _ => coreOk l && m < 4
  | .moveSend l m _ => coreOk l && m < 4
  | .moveSendAtomic l m _ => coreOk l && m < 4
  | .moveRunnerPush l m _ _ => coreOk l && m < 4
  | .moveRunnerPop l m _ _ => coreOk l && m < 4
  | .moveGather l m _ => coreOk l && m < 4
  | .patrolScrubRow l b _ _ => coreOk l && b < 192
  | .runnerFlush l r => coreOk l && r < 32
  | .runCfgWrite l r _ => coreOk l && r < 32
  | .runSpillWrite l r _ => coreOk l && r < 32
  | .spillTailWrite l r _ => coreOk l && r < 32
  | .spillHeadRefill l r _ _ => coreOk l && r < 32
  | .memoryPatrol a _ _ => a % 64 = 0
  | .bridgeUnit d _ => dieOk d
  | .bridgeLost d => dieOk d
  | .linkDataFrame n w _ => linkOk n && wireOk n w
  | .ackOnlyFrame n w _ => linkOk n && wireOk n w
  | .idleFrameTimer n => linkOk n
  | .ackTimeout n => linkOk n
  | .retryLimit n => linkOk n
  | .lossOfLock n => linkOk n
  | .linkTrained n => linkOk n
  | .trainingFailed n => linkOk n
  | .dropRetrainTimer n => linkOk n
  | .dropAllowanceSpanEnd n => linkOk n
  | .linkLeaveBundle n => linkOk n
  | .challenge n w _ => linkOk n && wireOk n w
  | .identity n w _ => linkOk n && wireOk n w
  | .verdict n w _ => linkOk n && wireOk n w
  | .drop n w _ => linkOk n && wireOk n w
  | .leave n w _ => linkOk n && wireOk n w
  | .drawnIntent n w _ => linkOk n && wireOk n w
  | .linkControlRepeat n => linkOk n
  | .neighborSolicitation n _ => linkOk n
  | .echoRequest n _ _ => linkOk n
  | .shotForward p => p < 12
  | .openFlow l x => l < 128 && x.wf
  | .write l x _ => l < 128 && x.wf
  | .atomic l x _ => l < 128 && x.wf
  | .atomicSat l x _ => l < 128 && x.wf
  | .entry l x _ => l < 128 && x.wf
  | .nack l x => l < 128 && x.wf
  | .drain p x => portOk p && x.wf
  | .drainEmit p => p < 12
  | .piece _ h d => h.length = 64 && d.length = 65536
  | .commit _ h => h.length = 64
  | .ack _ h => h.length = 64
  | .restoreReq _ h => h.length = 64
  | .restoreEnd _ h => h.length = 64
  | .fold h => h.length = 64
  | .sealStage h d => h.length = 64 && d.length % 64 = 0
  | .collEndMessage p => p.length = 64
  | .ready l b _ => coreOk l && b < 2
  | .grant l b _ => coreOk l && b < 2
  | .count l b _ => coreOk l && b < 2
  | .digest l b _ => coreOk l && b < 2
  | .finish l b _ => coreOk l && b < 2
  | .collStalled c _ => chargeCtxOk c
  | .sealStalled => true
  | .twinMirrorLagging => true
  | .twinUnreachable => true
  | .fenceStart d => dieOk d
  | .fenceStopComplete d _ => dieOk d
  | .transplantComplete d _ _ => dieOk d
  | .transplantFailed d _ => dieOk d
  | .fenceBindComplete d => dieOk d
  | .storeReloaded l k _ _ => coreOk l && k < 2
  | .faultWindowExpiry x _ => siteOk x
  | .afiupRestartComplete => true
  | .inputLow _ => true
  | .inputHigh _ => true
  | .inputLost _ => true
  | .powerOverdraw => true
  | .poolRestore => true
  | .autoIdle => true
  | .powerTransitionComplete => true
  | .powerDrawTimeout => true
  | .junctionSensorRead _ => true
  | .coreRailLow mv => mv < 65536
  | .fabRateWindow a b => a < 65536 && b < 65536
  | .debugTokenExpiry => true
  | .nonceExpiry => true
  | .dbgCoreHalt l _ => coreOk l
  | .dbgCoreStep l _ _ => coreOk l
  | .dbgCoreBpEn l _ pc => coreOk l && pc < 32768
  | .eventRingWrite v => v < 2 ^ 64
  | .powerOnReset _ => true
  | .modResetN => true
  | .sidebandResetRequest => true
  | .modEn _ => true
  | .bootStageComplete _ _ _ => true
  | .perstDeassert _ => true
  | .pcieDetectExit _ => true
  | .bypass => true
  | .idcode => true
  | .samplePreload => true
  | .extest => true
  | .clamp => true
  | .highz => true
  | .entdaa a => a < 128
  | .mctpMessage _ => true
  | .inputInOperatingRange _ => true
  | .inputPowerMeasurement _ _ _ _ => true
  | .modResetNRelease => true
  | .busMasterEnableSet _ c => c.wf
  | .portLinkUp _ => true
  | .d3hotExit _ => true
  | .pcieCompletionTimeout _ c _ => chargeCtxOk c
  | .tapPrivateInstruction _ => true

end Sys2Proof
end

