-- ==== Sys2Proof/Certificates/Slice0/Obligations.lean ====
section
/-! DEFINITION. The statements for the provers: what the commands of the G48 do, by the rules of spec/. Each statement of a
family names the rows that it covers; where a row's own effect is stated, its conclusion is the next state that `exec`
answers. -/

namespace Sys2Proof.Claims

open Sys2Proof.Machine

/-! ## Words that the statements use -/

/-- The sequencer of core `l` issues the word `w` of its launch `r`: it is ready, neither halted nor held by a breakpoint, the guard
passes, the form is legal, and no index beyond the store is formed (R86 to R91). -/
def Issues (s : State) (l w : Nat) (r : Run) : Prop :=
  seqReady s l = some r ∧ (getCore s l).halt = false ∧ atBreak (getCore s l) = false ∧ instrAt s l = w
    ∧ guardOf (getCore s l) (iPred w) (iNeg w) = true ∧ formOk w = true
    ∧ ((getCore s l).pc ≠ 32767 ∨ leavesStore (iOp w) (loopTaken (getCore s l) w) = true)

/-- An instruction of core `l` completes at a program counter: the launch goes on, one issue is counted, and neither another
core nor anything outside the cores and the event counters changes. -/
def Completes (s t : State) (l : Nat) (r : Run) (pc : Nat) : Prop :=
  (getCore t l).pc = pc ∧ (getCore t l).run = some { r with holding := false, waiting := false } ∧ t.tel = (countIssue s l r).tel
    ∧ { t with cores := s.cores, tel := s.tel } = s ∧ ∀ m, m ≠ l → getCore t m = getCore s m

/-- Of a core's own fields only general registers, predicates, program counter and the marks of the issue may differ. -/
def SameButRegs (x y : Core) : Prop :=
  { y with g := x.g, p := x.p, pc := x.pc, run := x.run, bpSkip := x.bpSkip, haltedAt := x.haltedAt } = x

/-- A register reads a value, g0 aside. -/
def GetsG (y : Core) (i v : Nat) : Prop := (gReg y i).toNat = if i = 0 then 0 else v

/-- The general registers but one are as they were. -/
def SameG (x y : Core) (i : Nat) : Prop := ∀ j, j ≠ i → gReg y j = gReg x j

/-- The rows of R90 that combine A and B into g[DST]: operation, command, value. -/
def aluRows : List (Nat × (Nat → Instr) × (Nat → Nat → Nat → Nat)) :=
  [(0x01, .add, fun _ a b => (a + b) % 2 ^ 64), (0x02, .sub, fun _ a b => (a + 2 ^ 64 - b) % 2 ^ 64),
   (0x03, .mul, fun _ a b => a * b % 2 ^ 64), (0x04, .mulhu, fun _ a b => a * b / 2 ^ 64),
   (0x05, .and, fun _ a b => a &&& b), (0x06, .or, fun _ a b => a ||| b), (0x07, .xor, fun _ a b => a ^^^ b),
   (0x08, .shl, fun _ a b => a * 2 ^ (b % 64) % 2 ^ 64), (0x09, .shr, fun _ a b => a / 2 ^ (b % 64)),
   (0x0A, .sar, fun _ a b => (sext 64 a / 2 ^ (b % 64) % 2 ^ 64).toNat),
   (0x0B, .min, fun _ a b => if sext 64 b < sext 64 a then b else a), (0x0C, .max, fun _ a b => if sext 64 a < sext 64 b then b else a),
   (0x0D, .sethi, fun w a _ => a % 2 ^ 32 + iImm w * 2 ^ 32)]

/-- The rows of R90 that write a predicate: operation, command, value. -/
def cmpRows : List (Nat × (Nat → Instr) × (Core → Nat → Bool)) :=
  [(0x10, .cmpeq, fun x w => (opA x w).toNat = (opB x w).toNat), (0x11, .cmplt, fun x w => (opA x w).toInt < (opB x w).toInt),
   (0x12, .cmpltu, fun x w => (opA x w).toNat < (opB x w).toNat),
   (0x13, .pset, fun x w =>
      let a := pReg x (iImm w % 16)
      let b := pReg x (iImm w / 16 % 16)
      if iImm w / 256 % 4 = 0 then a && b else if iImm w / 256 % 4 = 1 then a || b else if iImm w / 256 % 4 = 2 then xor a b else !a)]

/-- The state in which an issued instruction acts: the issue is counted, the marks of the breakpoint are cleared. -/
def Issued (s : State) (l : Nat) (r : Run) : State :=
  modCore (countIssue s l r) l (fun x => { x with bpSkip := false, haltedAt := false })

/-- Master 0 of core `l` may access `n` bytes at `a` in a launch's latched regions, the address is in the scratchpad and aligned. -/
def Allowed (s : State) (l a n align : Nat) (k : Kind) : Prop :=
  a < spSize ∧ a % align = 0 ∧ firstRefused (getCore s l).regionL 0 k [(a, n)] = none

/-- None of the words of a range is, or is found to be, lasting. -/
def WordsGood (s : State) (l a n : Nat) (f : Finds) : Prop :=
  ∀ w ∈ wordsOf a n, (getCore s l).spBad.contains w = false ∧ ∀ e ∈ f.sp, e.1 = w → e.2 = false

/-- The general registers and predicates are as they were. -/
def SameGP (x y : Core) : Prop := (∀ j, gReg y j = gReg x j) ∧ y.p = x.p

/-- The scratchpad differs at most in `n` bytes at `a`. -/
def SameScratchBut (x y : Core) (a n : Nat) : Prop := ∀ i, i < a ∨ a + n ≤ i → tget 0 y.scratch i = tget 0 x.scratch i

/-- The completion record of an open charge: severity and phase are those of slot 0 on the first lap. -/
def openRec (s : State) (e : Entry) (status : Nat) : Rec :=
  { cseq := e.cseq, time := s.time, result := 0, status := status, opcode := e.opcode, tag := e.tag, notify := e.notify }

/-- The context that a CTX_OPEN charge opens for a port (R72). -/
def openedCtx (p : HostPort) (e : Entry) : Ctx :=
  let w := pw e 0x20
  { st := .opened, owner := p, admin := bitOf w 10, forceAllowed := bitOf w 11, nextCseq := fld (pw e 0x28) 31 0, hopBase := pw e 0x18,
    hopLog2 := fld w 9 5, ringBase := pw e 0, ringLog2 := fld w 4 0, consAddr := pw e 8, shadow := pw e 0x10, msixEn := bitOf w 12,
    msixVec := fld w 47 32, written := 1 }

/-- No byte of memory outside the context's hopper region differs. -/
def OnlyHopper (s t : State) (x : Ctx) : Prop :=
  ∀ a, a < x.hopBase ∨ x.hopBase + 2 ^ x.hopLog2 ≤ a → tget 0 t.mem a = tget 0 s.mem a

/-- What every step keeps: the canonical form of device memory, well-formed commands, a 64-bit module time, an epoch below four. -/
def Sound (s : State) : Prop :=
  Memory.wf s.mem = true ∧ s.pending.all Instr.wf = true ∧ s.time < 2 ^ 64 ∧ s.route.epoch < 4

/-- The contexts of `t` are those of `s` after the charge's executors reported a status and RESULT. -/
def Reports (s t : State) (c cseq status result : Nat) : Prop := t.ctxs = (report s c cseq status result).ctxs

end Sys2Proof.Claims

open Sys2Proof Sys2Proof.Machine Sys2Proof.Claims

/-! ## Salfel (R84 to R108) -/

/-- R90: each arithmetic, logic and shift row writes its value of A and B to g[DST] and nothing else but the program counter;
g0 discards it. -/
def Sys2Proof.Claims.SalfelArithmeticWritesOneRegister : Prop :=
  ∀ (s : State) (l w : Nat) (r : Run), Issues s l w r → ∀ row ∈ aluRows, iOp w = row.1 →
    ∃ t, exec (row.2.1 l) s = .next t ∧ Completes s t l r ((getCore s l).pc + 1) ∧ SameButRegs (getCore s l) (getCore t l)
      ∧ GetsG (getCore t l) (iDst w) (row.2.2 w (opA (getCore s l) w).toNat (opB (getCore s l) w).toNat)
      ∧ SameG (getCore s l) (getCore t l) (iDst w) ∧ (getCore t l).p = (getCore s l).p

/-- R90: CMPEQ, CMPLT, CMPLTU and PSET write one predicate and nothing else but the program counter; p0 discards it. -/
def Sys2Proof.Claims.SalfelComparesWriteOnePredicate : Prop :=
  ∀ (s : State) (l w : Nat) (r : Run), Issues s l w r → ∀ row ∈ cmpRows, iOp w = row.1 →
    ∃ t, exec (row.2.1 l) s = .next t ∧ Completes s t l r ((getCore s l).pc + 1) ∧ SameButRegs (getCore s l) (getCore t l)
      ∧ (∀ j, gReg (getCore t l) j = gReg (getCore s l) j)
      ∧ ∀ i < 16, pReg (getCore t l) i = if i ≠ 0 ∧ i = iDst w % 16 then row.2.2 (getCore s l) w else pReg (getCore s l) i

/-- R90: NOP goes on; BR, CALL, JMP and LOOP go to their target when it is an instruction index. CALL leaves the return index in
g63; LOOP counts g[DST] down and falls through at 0. -/
def Sys2Proof.Claims.SalfelControlTransferSetsTheProgramCounter : Prop :=
  ∀ (s : State) (l w : Nat) (r : Run), Issues s l w r →
    let x := getCore s l
    let v := gReg x (iDst w) - 1
    (iOp w = 0x00 → ∃ t, exec (.salfelNop l) s = .next t ∧ Completes s t l r (x.pc + 1) ∧ SameButRegs x (getCore t l) ∧ SameGP x (getCore t l))
    ∧ (∀ n : Nat, n < 32768 → (x.pc : Int) + iSimm w = n →
        (iOp w = 0x20 → ∃ t, exec (.br l) s = .next t ∧ Completes s t l r n ∧ SameButRegs x (getCore t l) ∧ SameGP x (getCore t l))
        ∧ (iOp w = 0x21 → ∃ t, exec (.call l) s = .next t ∧ Completes s t l r n ∧ SameButRegs x (getCore t l)
            ∧ gReg (getCore t l) 63 = BitVec.ofNat 64 (x.pc + 1) ∧ SameG x (getCore t l) 63 ∧ (getCore t l).p = x.p)
        ∧ (iOp w = 0x23 → v ≠ 0 → ∃ t, exec (.loop l) s = .next t ∧ Completes s t l r n ∧ SameButRegs x (getCore t l)
            ∧ GetsG (getCore t l) (iDst w) v.toNat ∧ SameG x (getCore t l) (iDst w) ∧ (getCore t l).p = x.p))
    ∧ (iOp w = 0x22 → (opA x w).toNat < 32768 →
        ∃ t, exec (.jmp l) s = .next t ∧ Completes s t l r (opA x w).toNat ∧ SameButRegs x (getCore t l) ∧ SameGP x (getCore t l))
    ∧ (iOp w = 0x23 → v = 0 → ∃ t, exec (.loop l) s = .next t ∧ Completes s t l r (x.pc + 1) ∧ SameButRegs x (getCore t l)
        ∧ GetsG (getCore t l) (iDst w) 0 ∧ SameG x (getCore t l) (iDst w) ∧ (getCore t l).p = x.p)

/-- R90, R107, R108: HALT ends the launch's instructions on its core, keeping g1 for RESULT, and the item once the engines are idle; TRAP
stops the core at its own program counter with `SALFEL_TRAP` and the code of its immediate. -/
def Sys2Proof.Claims.SalfelHaltAndTrapEndTheLaunch : Prop :=
  ∀ (s : State) (l w : Nat) (r : Run), Issues s l w r →
    let x := getCore s l
    (iOp w = 0x24 → enginesIdle x = false → ∃ t, exec (.halt l) s = .next t ∧ (getCore t l).pc = x.pc
        ∧ (getCore t l).run = some { r with halted := true, holding := false, g1 := gReg x 1 })
    ∧ (iOp w = 0x24 → enginesIdle x = true → ∃ t, exec (.halt l) s = .next t ∧ (getCore t l).pc = x.pc ∧ (getCore t l).run = none)
    ∧ (iOp w = 0x25 → exec (.trap l) s = .next (trap (Issued s l r) l Status.salfelTrap x.pc (iImm w % 2 ^ 16) 0 false)
        ∧ ∃ t, exec (.trap l) s = .next t ∧ (getCore t l).pc = x.pc ∧ ∀ q, (getCore t l).run = some q → q.stopped = true)

/-- R90, R191: LD brings the 8 bytes at A + simm, little-endian, to g[DST]; ST stores g[DST] there and no other byte of the
scratchpad changes. -/
def Obligations.SalfelLoadAndStoreMoveOneWord : Prop :=
  ∀ (s : State) (l w : Nat) (r : Run) (f : Finds), Issues s l w r →
    let x := getCore s l
    let a := addrA x w (iSimm w)
    (iOp w = 0x30 → Allowed s l a 8 8 .rd → WordsGood s l a 8 f →
      ∃ t, exec (.ld l f) s = .next t ∧ (getCore t l).pc = x.pc + 1 ∧ GetsG (getCore t l) (iDst w) (leNat (spB s l a 8))
        ∧ SameG x (getCore t l) (iDst w) ∧ (getCore t l).p = x.p ∧ (getCore t l).scratch = x.scratch ∧ t.mem = s.mem)
    ∧ (iOp w = 0x31 → Allowed s l a 8 8 .wr →
      ∃ t, exec (.st l) s = .next t ∧ Completes s t l r (x.pc + 1) ∧ spB t l a 8 = toLE 8 (gReg x (iDst w)).toNat
        ∧ SameScratchBut x (getCore t l) a 8 ∧ SameGP x (getCore t l))

/-- R90, R190, R192: AADD, AADDS and ASWAP bring the old word to g[DST] and leave the wrapping sum, the sum clamped to the signed
limits, and B; no other byte of the scratchpad changes. -/
def Obligations.SalfelAtomicsReturnTheOldWord : Prop :=
  ∀ (s : State) (l w : Nat) (r : Run) (f : Finds), Issues s l w r →
    let x := getCore s l
    let a := addrA x w (iSimm w)
    let b := gReg x (iSrcB w)
    let old := leNat (spB s l a 8)
    Allowed s l a 8 8 .atom → WordsGood s l a 8 f →
    ∀ row ∈ ([(0x32, Instr.aadd l f, (old + b.toNat) % 2 ^ 64), (0x34, .aswap l f, b.toNat),
        (0x33, .aadds l f, ((max (-2 ^ 63) (min (2 ^ 63 - 1) (sext 64 old + b.toInt))) % 2 ^ 64 : Int).toNat)] : List (Nat × Instr × Nat)),
      iOp w = row.1 →
      ∃ t, exec row.2.1 s = .next t ∧ (getCore t l).pc = x.pc + 1 ∧ leNat (spB t l a 8) = row.2.2 ∧ SameScratchBut x (getCore t l) a 8
        ∧ GetsG (getCore t l) (iDst w) old ∧ SameG x (getCore t l) (iDst w) ∧ (getCore t l).p = x.p

/-- R90, R93, R95, R96: ARR, VEC and MOV append the descriptor's address to their engine's queue and go on, unless the descriptors of that
engine that have not started fill it (8 for an array or the vector unit, 16 for a mover): then they hold. An engine without a
descriptor takes the head of its queue at once; another leaves it there. QWAIT goes on when the engines that it names are idle, and holds
otherwise. -/
def Obligations.SalfelDispatchQueuesADescriptor : Prop :=
  ∀ (s : State) (l w : Nat) (r : Run) (f : Finds), Issues s l w r →
    let x := getCore s l
    let u := Issued s l r
    (∀ row ∈ ([(0x40, .arr l f, iImm w % 2, addrA x w (iSimm w - iImm w % 2)), (0x41, .vec l f, 2, addrA x w (iSimm w)),
        (0x42, .mov l f, iImm w % 4 + 3, addrA x w (iSimm w - iImm w % 4))] : List (Nat × Instr × Nat × Nat)),
      iOp w = row.1 → row.2.2.2 < spSize → row.2.2.2 % 64 = 0 →
        let g := getEngine x row.2.2.1
        let q := (row.2.2.2, x.pc, r.item.ctx, r.item.cseq)
        if g.unstarted row.2.2.1 < (if row.2.2.1 < 3 then 8 else 16) then
          ∃ t v, exec row.2.1 s = .next t ∧ Completes s v l r (x.pc + 1) ∧ SameGP x (getCore v l)
            ∧ getEngine (getCore v l) row.2.2.1 = { g with queue := g.queue ++ [q] }
            ∧ (∀ e, e ≠ row.2.2.1 → getEngine (getCore v l) e = getEngine x e)
            ∧ t = if g.jobs = [] then startHead f v l row.2.2.1 else v
        else exec row.2.1 s = .next (hold u l))
    ∧ (iOp w = 0x43 → if ∀ e < 7, bitOf (iImm w) e = true → engineIdle x e = true
        then ∃ t, exec (.qwait l) s = .next t ∧ Completes s t l r (x.pc + 1) ∧ SameGP x (getCore t l)
        else exec (.qwait l) s = .next (hold u l))

/-- R90, R98, R203, R209: on an enabled runner, PUSH appends the 64 bytes at A, or holds while it is full; POP and POPW bring the
oldest entry to A and 1 to g[DST]; on an empty runner POP brings 0 and POPW holds. -/
def Obligations.SalfelRunnerInstructionsAreFirstInFirstOut : Prop :=
  ∀ (s : State) (l w : Nat) (r : Run) (f : Finds), Issues s l w r →
    let x := getCore s l
    let a := (opA x w).toNat
    let n := iImm w % 32
    let q := getRunner s l n
    q.enabled = true →
    (iOp w = 0x50 → Allowed s l a 64 64 .rd → WordsGood s l a 64 f →
      if q.canPush then ∃ t u, exec (.push l false f) s = .next t ∧ (getCore u l).scratch = x.scratch ∧ getRunner u l n = q
          ∧ t = next (pushEntry u l n (spB s l a 64)) l
      else exec (.push l false f) s = .next (hold (Issued s l r) l))
    ∧ (a < spSize → a % 64 = 0 →
      ∀ row ∈ ([(0x51, .pop l false f, false), (0x52, .popw l false f, true)] : List (Nat × Instr × Bool)), iOp w = row.1 →
      (q.popEmpty = true → if row.2.2 then exec row.2.1 s = .next (hold (Issued s l r) l)
        else ∃ t, exec row.2.1 s = .next t ∧ Completes s t l r (x.pc + 1) ∧ GetsG (getCore t l) (iDst w) 0)
      ∧ (q.popEmpty = false → Allowed s l a 64 64 .wr → (q.isSpill = false → WordsGood s l (q.slot q.rp) 64 f) → WordsGood s l a 64 f →
        (q.isSpill = true → (q.head.headD []).length = 64) →
        ∃ t, exec row.2.1 s = .next t ∧ Completes s t l r (x.pc + 1) ∧ GetsG (getCore t l) (iDst w) 1
          ∧ spB t l a 64 = (if q.isSpill then q.head.headD [] else spB s l (q.slot q.rp) 64) ∧ SameScratchBut x (getCore t l) a 64
          ∧ getRunner t l n = if q.isSpill then { q with head := q.head.tail }.pass else { q with rp := (q.rp + 1) % 2 ^ (q.ptrLog + 1) }))

/-- R90, R212 to R216: RSET sets a riser, RREAD reads it, SIG adds its count to the current or the next round, and a wait that the count
already meets completes at once. -/
def Obligations.SalfelRiserInstructionsActOnOneRiser : Prop :=
  ∀ (s : State) (l w : Nat) (r : Run), Issues s l w r →
    let x := getCore s l
    let i := (opA x w + BitVec.ofNat 64 (iImm w % 4096)).toNat
    let q := getRiser s l i
    i < 4096 → q.fault = 0 → q.queue = [] → q.watch = none →
    (iOp w = 0x58 → 0 < fld (iImm w) 31 16 → (if fld (iImm w) 12 12 = 0 then q.cur else q.nxt) + fld (iImm w) 31 16 ≤ 65535 →
      ∃ t, exec (.sig l) s = .next t ∧ Completes s t l r (x.pc + 1) ∧ SameGP x (getCore t l)
        ∧ getRiser t l i = if fld (iImm w) 12 12 = 0 then { q with cur := q.cur + fld (iImm w) 31 16 }
            else { q with nxt := q.nxt + fld (iImm w) 31 16 })
    ∧ (iOp w = 0x59 → 1 < q.cur → ∃ t, exec (.waitc l) s = .next t ∧ Completes s t l r (x.pc + 1)
        ∧ getRiser t l i = { q with cur := q.cur - 1 })
    ∧ (iOp w = 0x59 → q.cur = 1 → ∃ t, exec (.waitc l) s = .next t ∧ Completes s t l r (x.pc + 1)
        ∧ getRiser t l i = { q with cur := q.nxt, nxt := 0, round := (q.round + 1) % 4 })
    ∧ (iOp w = 0x59 → q.cur = 0 → ∃ t, exec (.waitc l) s = .next t ∧ (getCore t l).pc = x.pc
        ∧ (getCore t l).run = some { r with holding := true, waiting := true } ∧ getRiser t l i = { q with queue := [4] })
    ∧ (iOp w = 0x5A → fld (iImm w) 31 16 ≤ q.cur → ∃ t, exec (.waito l) s = .next t ∧ Completes s t l r (x.pc + 1) ∧ getRiser t l i = q)
    ∧ (iOp w = 0x5B → ∃ t, exec (.rset l) s = .next t ∧ Completes s t l r (x.pc + 1)
        ∧ getRiser t l i = { q with cur := fld (iImm w) 31 16, nxt := 0, round := 0 })
    ∧ (iOp w = 0x5C → ∃ t, exec (.rread l) s = .next t ∧ Completes s t l r (x.pc + 1) ∧ getRiser t l i = q
        ∧ GetsG (getCore t l) (iDst w) ((q.cur + q.nxt + q.cur * 2 ^ 32 + q.nxt * 2 ^ 48) % 2 ^ 64))

/-- R45, R90, R100: TIME brings a value of module time that is at most 64 ns old and never older than the core's last one; WHOAMI brings the
identity word of R100. -/
def Sys2Proof.Claims.SalfelTimeAndWhoamiReadTheModule : Prop :=
  ∀ (s : State) (l w : Nat) (r : Run), Issues s l w r →
    let x := getCore s l
    (iOp w = 0x60 → x.timeCopy ≤ s.time → s.time < 2 ^ 64 → iDst w ≠ 0 →
      ∃ t, exec (.time l) s = .next t ∧ (getCore t l).pc = x.pc + 1 ∧ (gReg (getCore t l) (iDst w)).toNat ≤ s.time
        ∧ s.time ≤ (gReg (getCore t l) (iDst w)).toNat + 64 ∧ x.timeCopy ≤ (gReg (getCore t l) (iDst w)).toNat)
    ∧ (iOp w = 0x61 → l < 88 → ∃ t, exec (.whoami l) s = .next t ∧ Completes s t l r (x.pc + 1) ∧ SameG x (getCore t l) (iDst w)
        ∧ GetsG (getCore t l) (iDst w) (l + (if l < 44 then 0 else 1) * 2 ^ 7 + r.cores % 256 * 2 ^ 8
            + (if s.ident.code = .l8 then 1 else 2) * 2 ^ 16 + ownCoord s % 2 ^ 32 * 2 ^ 32))

/-- R86, R87, R89, R91: an instruction whose guard fails is passed over with no other effect; an illegal word traps with `SALFEL_ILLEGAL`; a
word at index 32,767 that would form the next index traps with `SALFEL_ADDRESS`. Stated for ADD; every row issues alike. -/
def Sys2Proof.Claims.SalfelGuardAndFormDecideTheIssue : Prop :=
  ∀ (s : State) (l w : Nat) (r : Run), seqReady s l = some r → (getCore s l).halt = false → atBreak (getCore s l) = false →
    instrAt s l = w → iOp w = 0x01 →
    let x := getCore s l
    let u := Issued s l r
    (guardOf x (iPred w) (iNeg w) = false → x.pc ≠ 32767 →
      ∃ t, exec (.add l) s = .next t ∧ Completes s t l r (x.pc + 1) ∧ SameButRegs x (getCore t l) ∧ SameGP x (getCore t l))
    ∧ (guardOf x (iPred w) (iNeg w) = true → formOk w = false → exec (.add l) s = .next (trap u l Status.salfelIllegal x.pc 0 0 false))
    ∧ (guardOf x (iPred w) (iNeg w) = false ∨ formOk w = true → x.pc = 32767 →
        exec (.add l) s = .next (trap u l Status.salfelAddress 32767 0 32768 false))

/-- R45, R87 to R91, R100: the guard and the form decide whether a word is issued; TIME, WHOAMI and the SALFEL NOP read the module. -/
def Obligations.SalfelIssueAndReadsFollowTheGuard : Prop := Claims.SalfelTimeAndWhoamiReadTheModule ∧ Claims.SalfelGuardAndFormDecideTheIssue

/-- R90: every arithmetic, logic and shift row writes its value to one general register, every compare and PSET to one predicate. -/
def Obligations.SalfelResultsGoToOneDestination : Prop := Claims.SalfelArithmeticWritesOneRegister ∧ Claims.SalfelComparesWriteOnePredicate

/-- R90, R107, R108: NOP, BR, CALL, JMP and LOOP set the program counter; HALT and TRAP end the launch's instructions. -/
def Obligations.SalfelControlFlow : Prop := Claims.SalfelControlTransferSetsTheProgramCounter ∧ Claims.SalfelHaltAndTrapEndTheLaunch

/-! ## Engines (R93 to R97, R110 to R138, R160 to R181, R225 to R237, R412) -/

/-- R412 to R414: the descriptor of an engine that asks for its grant, the one in place or the one behind it, takes it from its core's
reservoir when that covers it and the granted total lies within the pool, else from the pool when no request waits before it and the grants
in use leave room for it; else, and while the rail is to be raised, it waits in order of arrival. No reservoir ends above 8 W that was not
above it before; watts in reservoirs do not keep a request waiting (the model's reading, log 5). -/
def Obligations.LadleGrantsInOrderOfArrival : Prop :=
  ∀ (s : State) (l e : Nat) (j : Job), fabricRuns s = true → (getEngine (getCore s l) e).asking = some j →
    let w := watts j.base s.power.applied
    let x := getCore s l
    let fits := raisePending s = false ∧ w ≤ x.reservoir ∧ grantedW s ≤ poolW s
    let room := raisePending s = false ∧ (s.power.waiting = [] ∨ s.power.waiting.head? = some (l, e)) ∧ heldW s + w ≤ poolW s
    ∃ t, exec (.ladleGrant l e) s = .next t
      ∧ (fits ∨ room →
          getEngine (getCore t l) e = (getEngine x e).modAsking (fun k => { k with granted := w, stage := 2 })
          ∧ (l, e) ∉ t.power.waiting ∧ ∀ m, (getCore t m).reservoir ≤ max 8 (getCore s m).reservoir)
      ∧ (fits → x.reservoir - w ≤ (getCore t l).reservoir)
      ∧ (¬fits → ¬room → getEngine (getCore t l) e = getEngine x e
          ∧ t.power.waiting = if (l, e) ∈ s.power.waiting then s.power.waiting else s.power.waiting ++ [(l, e)])

/-- R115, R125, R127, R154: an array descriptor that passes its checks latches the arithmetic registers, before its grant; once it is granted
it starts, its first weight tile in the cells. Accumulators, scratchpad and memory stay. -/
def Obligations.ArrayDescriptorStartLatchesTheArithmeticRegisters : Prop :=
  ∀ (s : State) (l a : Nat) (j : Job), coreRuns s l = true → (getEngine (getCore s l) a).job = some j → (getCore s l).spBad = [] →
    (j.stage = 0 → j.latched = false → arrCheck s l a j.desc (jobTrapWord j) = (s, none) →
      exec (.arrayDescriptorStart l a {}) s
        = .next (modJob s l a (fun j => { j with latched := true, seed := s.seed, step := s.astep, thr := s.thr })))
    ∧ (j.stage = 2 → j.latched = true →
      ∃ t, exec (.arrayDescriptorStart l a {}) s = .next t
        ∧ (getEngine (getCore t l) a).job = some { j with stage := 3, wSeen := max j.wSeen 1 }
        ∧ (getCells (getCore t l) a).tile = some (readTile s l j.desc 0)
        ∧ (getCore t l).acc = (getCore s l).acc ∧ (getCore t l).scratch = (getCore s l).scratch ∧ t.mem = s.mem)

/-- R112, R119, R120, R126, R150: a check group that meets no fault, with its tile in place and nothing written under its descriptor, merges when
its checks pass: every element of its rows holds the staged sum on an overwriting tile, else the merge of the old value with it; other
accumulators, the scratchpad and memory stay. -/
def Obligations.CheckGroupVerdictMergesAPassingGroup : Prop :=
  ∀ (s : State) (l a : Nat) (j : Job) (tile : Tile), jobAt s l a 3 = some j → (getCore s l).spBad = [] → (getCore s l).accBad = [] →
    (getCells (getCore s l) a).tile = some tile → tile.kt = j.kt → (getCore s l).breached = [] →
    let v := computeGroup j.desc (xRows s l j.desc j.kt j.row (groupRows j)) tile {}
    groupPasses {} v = true →
    ∃ t, exec (.checkGroupVerdict l a {} {} {} {}) s = .next t
      ∧ (∀ i < groupRows j, ∀ n < aCols j.desc,
          accAt (getCore t l) a (aAccRow j.desc + j.row + i) n =
            (if !aCont j.desc && j.kt = 0 then (v.1.getD i []).getD n 0
             else mergeVal j j.kt (j.row + i) n (accAt (getCore s l) a (aAccRow j.desc + j.row + i) n) ((v.1.getD i []).getD n 0)))
      ∧ (getCore t l).scratch = (getCore s l).scratch ∧ t.mem = s.mem
      ∧ (∀ k, (∀ i < groupRows j, ∀ n < aCols j.desc, k ≠ accKey a (aAccRow j.desc + j.row + i) n) →
          tget 0 (getCore t l).acc k = tget 0 (getCore s l).acc k)

/-- R95, R126, R135, R216, R412: a descriptor whose work is done, with none behind it, leaves its engine, signals its completion riser with count 1,
and refills the core's reservoir up to 8 W. A strike of an array ends once 2^24 check groups have passed by it; every other one stays. -/
def Obligations.CompletionSignalsItsRiserAndReturnsTheGrant : Prop :=
  (∀ (s : State) (l e i : Nat) (j : Job) (r : Run) (f : Finds), jobAt s l e 4 = some j → (getEngine (getCore s l) e).queue = [] →
    (getEngine (getCore s l) e).ahead = none → (getCore s l).run = some r → r.halted = false → r.stopped = false →
    doneRiser e j.desc = some i →
    let q := getRiser s l i
    q.fault = 0 → q.queue = [] → q.watch = none → q.cur < 65535 →
    ∃ t, exec (.completionSignal l e f) s = .next t ∧ (getEngine (getCore t l) e).job = none ∧ getRiser t l i = { q with cur := q.cur + 1 }
      ∧ (getCore t l).reservoir = (getCore s l).reservoir + (if j.granted = 0 then 0 else min j.granted (8 - (getCore s l).reservoir)))
  ∧ ∀ (s : State) (l a : Nat), ∃ t, exec (.strikeExpiry l a) s = .next t ∧ { t with fence := s.fence } = s
      ∧ { t.fence with strikes := s.fence.strikes } = s.fence
      ∧ ∀ k, k ∈ t.fence.strikes ↔ k ∈ s.fence.strikes ∧ ¬(k.1 = siteOf s l ∧ k.2.1 = a ∧ 2 ^ 24 ≤ k.2.2)

/-! ### The vector unit (R170 to R181) -/

namespace Sys2Proof.Claims

/-- One row of a vector descriptor: its main output, then its `DST2` bytes. -/
def RowWritten (l : Nat) (j : Job) (fn : State → Nat → RowOut) (s : State) (r : Nat) : State :=
  let o := fn s r
  let t := match o.1 with
    | some vs => (putMain {} s l j r vs).1
    | none => s
  match o.2 with
  | some b => putSp t l 1 (vDst2 j.desc + r * b.length) b
  | none => t

/-- The vector unit of core `l` runs the granted descriptor `j`, and nothing that it reads is lasting. -/
def VectorRuns (s : State) (l : Nat) (j : Job) : Prop :=
  jobAt s l 2 2 = some j ∧ (getCore s l).spBad = [] ∧ (getCore s l).accBad = []

/-- The functions of R178 whose bits the spec states: command, code, what a row gives of inputs A, B and C. -/
def exactFns (s : State) (l : Nat) (j : Job) (r : Nat) : List (Instr × Nat × RowOut) :=
  let d := j.desc
  let a := inputRow s l d 0 r
  let b := inputRow s l d 1 r
  let c := inputRow s l d 2 r
  let p := paired d
  let rnd := fun v => if p then v else rne32 v
  [(.convert l {}, 0x00, (some a, none)),
   (.vecAdd l {}, 0x01, (some (a.zipWith (fun x y => rnd (x.add y)) b), none)),
   (.vecMul l {}, 0x02, (some (a.zipWith (fun x y => rnd (x.mul y)) b), none)),
   (.fma l {}, 0x03, (some (((a.zip b).zip c).map (fun q => rnd ((q.1.1.mul q.1.2).add q.2))), none)),
   (.axpby l {}, 0x04, (some (a.zipWith (fun x y => rne32 (((vP1 d).mul y).add (rne32 ((vP0 d).mul x)))) b), none)),
   (.residAdd l {}, 0x08, (some (a.zipWith (fun x y => rne32 (x.add y)) b), none)),
   (.relu l {}, 0x10, (some (a.map (fun v => if v.isNan then .nan else if Num.lt (.zero false) v then v else .zero false)),
      some (maskBytes (a.map (fun v => Num.lt (.zero false) v))))),
   (.softmaxParts l {}, 0x19, (none, some (f32Bytes (rowMax a) ++ f32Bytes (rowSum (a.map (fun v => lib s l 0x118 [v, rowMax a])))))),
   (.rowSumsq l {}, 0x1C, (none, some (f32Bytes (rowSum (a.map (fun v => rne32 (v.mul v)))) ++ toLE 4 0))),
   (.dropout l {}, 0x20, (some (a.zipIdx.map (fun q => if vParam0 d ≤ vGrain j r q.2 1 then rne32 (q.1.mul (vP1 d)) else .zero false)),
      some (maskBytes ((List.range a.length).map (fun i => decide (vParam0 d ≤ vGrain j r i 1)))))),
   (.rowStats l {}, 0x28, (none, some (f32Bytes (rowMax (a.map Num.abs)) ++ toLE 4 (a.countP (fun v => v ≠ .zero false && v ≠ .zero true))
      ++ toLE 4 (a.countP bf16Under) ++ toLE 4 0))),
   (.pwpoly l {}, 0x3F, (some (a.map (pwEval s l (vSlot d))), none))]

/-- The functions of R178 that the vector library gives within an error bound: command, code, what a row gives. -/
def libraryFns (s : State) (l : Nat) (j : Job) (r : Nat) : List (Instr × Nat × RowOut) :=
  let d := j.desc
  let a := inputRow s l d 0 r
  let b := inputRow s l d 1 r
  let c := inputRow s l d 2 r
  let n := mkNum false a.length 1
  let mean := fun x => lib s l 0x11B [x, n]
  let mu := mean (rowSum a)
  let va := mean (rowSum (a.map (fun v => mul32 (sub32 v mu) (sub32 v mu))))
  let q := softParts s l a
  [(.sigmoid l {}, 0x11, (some (a.map (elemFn s l 0x11)), none)), (.tanh l {}, 0x12, (some (a.map (elemFn s l 0x12)), none)),
   (.exp l {}, 0x13, (some (a.map (elemFn s l 0x13)), none)), (.gelu l {}, 0x14, (some (a.map (elemFn s l 0x14)), none)),
   (.silu l {}, 0x15, (some (a.map (elemFn s l 0x15)), none)), (.swiglu l {}, 0x16, (some (a.zipWith (Machine.swiglu s l) b), none)),
   (.softmaxRow l {}, 0x18, (some (a.map (fun v => lib s l 0x18 [v, q.1, q.2])), none)),
   (.rmsnorm l {}, 0x1A, (some (a.zipWith (fun v w => lib s l 0x1A [v, w, rowSum (a.map (fun v => mul32 v v)), n, vP0 d]) b), none)),
   (.layernorm l {}, 0x1B, (some ((a.zip b).zipWith (fun v w => lib s l 0x1B [v.1, mu, va, v.2, w, vP0 d]) c), none)),
   (.scaleRows l {}, 0x1D, (some (a.zipWith (fun v w => lib s l 0x1D [v, w, f32 (BitVec.ofNat 32 (leNat (spB s l (vC d + 8 * r) 4))), vP0 d]) b),
      none))]

/-- A descriptor of the function at place `k` of a table completes: its rows are written in order, each from the state that the rows before it
left, and its work is done. -/
def VectorCompletes (table : State → Nat → Job → Nat → List (Instr × Nat × RowOut)) : Prop :=
  ∀ (s : State) (l : Nat) (j : Job) (k : Nat), VectorRuns s l j → ∀ e ∈ (table s l j 0)[k]?, vFunc j.desc = e.2.1 →
    exec e.1 s = .next (finishJob ((List.range (vRows j.desc)).foldl
      (RowWritten l j (fun s r => (((table s l j r)[k]?).map (fun q => q.2.2)).getD (none, none))) s) l 2)

end Sys2Proof.Claims

/-- R168, R178 to R181: CONVERT, ADD, MUL, FMA, AXPBY, RESID_ADD, RELU, SOFTMAX_PARTS, ROW_SUMSQ, DROPOUT, ROW_STATS and PWPOLY write, row by row,
the values of their formulas in FP32 with the roundings named, or none but the output's in paired mode. -/
def Sys2Proof.Claims.VectorArithmeticWritesItsRows : Prop := VectorCompletes exactFns

/-- R142, R174, R178: SIGMOID, TANH, EXP, GELU, SILU, SWIGLU, SOFTMAX_ROW, RMSNORM, LAYERNORM and SCALE_ROWS write, row by row, what the library
version in force gives for their inputs (open values within its bound, log 8), with the limits at the infinities. -/
def Sys2Proof.Claims.VectorLibraryFunctionsWriteTheirRows : Prop := VectorCompletes libraryFns

/-- R360, R361: UPDATE writes the chunk buffer at `SRC_B`, advanced by the recurrence for each gradient of the row, to `DST`. -/
def Obligations.VectorUpdateWritesTheChunkBuffer : Prop :=
  ∀ (s : State) (l : Nat) (j : Job), VectorRuns s l j → vFunc j.desc = 0x30 →
    let row := vPrepared s l j.desc
    let u := (updateChunk row (spB s l (vB j.desc) (rowElems row * elemBytes row)) (inputRow s l j.desc 0 0)).1
    ∃ t, exec (.update l {}) s = .next t ∧ (getEngine (getCore t l) 2).job = some { j with stage := 4 }
      ∧ spB t l (vDst j.desc) u.length = u ∧ SameScratchBut (getCore s l) (getCore t l) (vDst j.desc) u.length ∧ t.mem = s.mem

/-! ### The movers (R225 to R237) -/

namespace Sys2Proof.Claims

/-- Mover `m` of core `l` runs the started descriptor of job `j` and is not stopped; nothing in memory or a scratchpad is lasting. -/
def MoverRuns (s : State) (l m kind : Nat) (j : Job) : Prop :=
  m < 4 ∧ jobAt s l (m + 3) 2 = some j ∧ mKind j.desc = kind ∧ moverStopped s l = false ∧ s.poison = []
    ∧ ∀ k, (getCore s k).spBad = []

/-- The byte at a device address: of the scratchpad of a window, or of memory. -/
def byteAt (s : State) (a : Nat) : Byte := (bytesAt s a 1).headD 0

/-- A range lies wholly below the windows, or wholly in one of them. -/
def InOnePlace (a n : Nat) : Prop := a + n ≤ winBase0 ∨ (inWindow a n).isSome = true

/-- The byte addresses of the rows of a destination. -/
def InRows (base stride rows len a : Nat) : Prop := ∃ r < rows, base + r * stride ≤ a ∧ a < base + r * stride + len

/-- Row `r` is the last row that covers the byte address. -/
def LastRow (base stride rows len r a : Nat) : Prop :=
  r < rows ∧ base + r * stride ≤ a ∧ a < base + r * stride + len ∧ ∀ q < rows, r < q → ¬(base + q * stride ≤ a ∧ a < base + q * stride + len)

end Sys2Proof.Claims

/-- R225, R226, R228: MOVE_COPY between device addresses brings every byte of its source rows, as it was before, to its place in the
destination rows; from host memory it brings the host's bytes; MOVE_FILL brings the pattern's byte of each address. No other byte of memory or
of a scratchpad changes, and the descriptor's work is done. -/
def Sys2Proof.Claims.MoveCopyAndFillWriteTheirRowsOnly : Prop :=
  ∀ (s : State) (l m : Nat) (j : Job) (host : List Byte),
    let d := j.desc
    (∀ r < mRows d, InOnePlace (mDst d + r * mDstStride d) (mLen d)) →
    (MoverRuns s l m 0 j → mDstHost d = false → (mSrcHost d = true → hostReady s j.ctx = true) →
      (mSrcHost d = false → ∀ r < mRows d, InOnePlace (mSrc d + r * mSrcStride d) (mLen d)) →
      ∃ t, exec (.moveCopy l m host {}) s = .next t ∧ (getEngine (getCore t l) (m + 3)).job = some { j with stage := 4 }
        ∧ (∀ r a, LastRow (mDst d) (mDstStride d) (mRows d) (mLen d) r a →
            byteAt t a = if mSrcHost d then host.getD (r * mSrcStride d + (a - (mDst d + r * mDstStride d))) 0
              else byteAt s (mSrc d + r * mSrcStride d + (a - (mDst d + r * mDstStride d))))
        ∧ ∀ a, ¬InRows (mDst d) (mDstStride d) (mRows d) (mLen d) a → byteAt t a = byteAt s a)
    ∧ (MoverRuns s l m 1 j →
      ∃ t, exec (.moveFill l m {}) s = .next t ∧ (getEngine (getCore t l) (m + 3)).job = some { j with stage := 4 }
        ∧ (∀ a, InRows (mDst d) (mDstStride d) (mRows d) (mLen d) a → byteAt t a = BitVec.ofNat 8 (mPattern d / 2 ^ (8 * (a % 8))))
        ∧ ∀ a, ¬InRows (mDst d) (mDstStride d) (mRows d) (mLen d) a → byteAt t a = byteAt s a)

/-- R236, R237: MOVE_GATHER brings each element of its index list: the table's row, or zeros for an index beyond the table, which its one record
reports. Where the output meets neither table nor list and its elements do not meet one another, every byte is as stated. -/
def Sys2Proof.Claims.MoveGatherBringsTheIndexedRows : Prop :=
  ∀ (s : State) (l m : Nat) (j : Job), MoverRuns s l m 6 j →
    let g := gatherDesc j.desc
    let idx := fun i => leNat (bytesAt s (g.index + 4 * i) 4)
    0 < g.size → g.size ≤ g.pitch → g.index + 4 * g.count ≤ winBase0 → g.table + g.rows * g.size ≤ winBase0 →
    (∀ i < g.count, InOnePlace (g.dst + i * g.pitch) g.size) →
    overlaps g.dst (g.count * g.pitch) g.index (4 * g.count) = false → overlaps g.dst (g.count * g.pitch) g.table (g.rows * g.size) = false →
    ∃ t, exec (.moveGather l m {}) s = .next t ∧ (getEngine (getCore t l) (m + 3)).job = some { j with stage := 4 }
      ∧ (∀ i < g.count, ∀ k < g.size,
          byteAt t (g.dst + i * g.pitch + k) = if idx i < g.rows then byteAt s (g.table + idx i * g.size + k) else 0)
      ∧ ∀ a, ¬InRows g.dst g.pitch g.count g.size a → byteAt t a = byteAt s a

/-- R229, R254 to R256: MOVE_SEND and MOVE_SEND_ATOMIC to a core that is not on the sender's own die put an OPEN and then every data shot of the
descriptor into the hub, in order, with the sequence numbers 1, 2, …, the last one marked and carrying the signal. -/
def Sys2Proof.Claims.MoveSendPutsOneTransferIntoTheHub : Prop :=
  ∀ (s : State) (l m k : Nat) (j : Job), MoverRuns s l m k j →
    let d := j.desc
    let n := (cutsOf d).length
    (mMcast d = true ∨ mCoord d ≠ ownCoord s ∨ 88 ≤ mCore d ∨ dieOf (mCore d) ≠ dieOf l) →
    ∀ row ∈ ([(2, .moveSend l m {}), (3, .moveSendAtomic l m {})] : List (Nat × Instr)), k = row.1 →
      ∃ t new, exec row.2 s = .next t ∧ (getEngine (getCore t l) (m + 3)).job = some { j with stage := 4 }
        ∧ (getLPort t (10 + dieOf l)).inbuf = (getLPort s (10 + dieOf l)).inbuf ++ new ∧ new.length = n + 1
        ∧ (∀ x ∈ new, x.flow = mFlow d ∧ x.epoch = s.route.epoch ∧ x.mcast = mMcast d
            ∧ (mMcast d = false → x.dest = mCoord d ∧ x.core = mCore d) ∧ (mMcast d = true → x.dest = mTree d))
        ∧ (∀ x ∈ new.head?, x.typ = 0 ∧ x.seq = 0)
        ∧ ∀ i < n, ∀ x ∈ new[i + 1]?, ∀ c ∈ (cutsOf d)[i]?, x.typ = (if k = 2 then 1 else if mSat d then 3 else 2) ∧ x.seq = (i + 1) % 4096
            ∧ x.last = decide (i + 1 = n) ∧ (x.payload.drop c.off).take c.len = bytesAt s c.src c.len
            ∧ x.tail = if i + 1 = n ∧ mSigEn d = true then mSignal d * 2 ^ 32 + n else 0

/-- R203, R211, R230: with room and with entries, MOVE_RUNNER_PUSH appends one 64-byte entry to a local ring and MOVE_RUNNER_POP brings the oldest
entry of a ring to its destination; the descriptor's work is done. -/
def Sys2Proof.Claims.MoveRunnerPushAndPopMoveOneEntry : Prop :=
  ∀ (s : State) (l m : Nat) (j : Job),
    let d := j.desc
    let q := getRunner s l (mRunner d)
    mRows d = 1 → mLen d = 64 → j.sent = 0 → j.fail = none → mSigEn d = false → q.enabled = true → q.isSpill = false →
    (MoverRuns s l m 4 j → mLocalPush s l d = true → q.canPush = true → InOnePlace (mSrc d) 64 →
      ∃ t, exec (.moveRunnerPush l m none {}) s = .next t ∧ getRunner t l (mRunner d) = { q with wp := (q.wp + 1) % 2 ^ (q.ptrLog + 1) }
        ∧ spB t l (q.slot q.wp) 64 = bytesAt s (mSrc d) 64 ∧ (getEngine (getCore t l) (m + 3)).job = some { j with sent := 1, stage := 4 })
    ∧ (MoverRuns s l m 5 j → q.span ≠ 0 → InOnePlace (mDst d) 64 →
      ∃ t, exec (.moveRunnerPop l m none {}) s = .next t ∧ getRunner t l (mRunner d) = { q with rp := (q.rp + 1) % 2 ^ (q.ptrLog + 1) }
        ∧ bytesAt t (mDst d) 64 = spB s l (q.slot q.rp) 64 ∧ (getEngine (getCore t l) (m + 3)).job = some { j with sent := 1, stage := 4 })

/-! ### Runners, scrubbers and bridges (R29, R199 to R211, R243) -/

/-- R203 to R210: a flush empties a runner; writes of its registers are held for the core's next item, the configuration's clearing `PTR_FAULT`; on
an enabled spill runner the tail's oldest entry is written to the middle, and a low head is refilled from it in order. -/
def Sys2Proof.Claims.RunnerRegistersAndSpillMoversKeepTheOrder : Prop :=
  ∀ (s : State) (l n : Nat) (v : Word64),
    let q := getRunner s l n
    (∃ t, exec (.runnerFlush l n) s = .next t ∧ getRunner t l n = { q with rp := q.wp, tail := [], head := [] })
    ∧ (∃ t, exec (.runCfgWrite l n v) s = .next t
        ∧ getRunner t l n = { q with cfgNew := some (v &&& 0xE0F000000001FFFF#64), ptrFault := false })
    ∧ (∃ t, exec (.runSpillWrite l n v) s = .next t ∧ getRunner t l n = { q with spillNew := some (v &&& 0x1F000FFFFFFFFFC0#64) })
    ∧ (coreRuns s l = true → q.enabled = true → q.isSpill = true → s.poison = [] →
      (∀ e rest, q.tail = e :: rest → e.length = 64 → q.span < 2 ^ q.ptrLog → q.span ≠ 0 ∨ 16 ≤ q.head.length →
        ∃ t, exec (.spillTailWrite l n false) s = .next t ∧ getRunner t l n = { q with tail := rest, wp := (q.wp + 1) % 2 ^ (q.ptrLog + 1) }
          ∧ memB t (q.slot q.wp) 64 = e ∧ ∀ a, a < q.slot q.wp ∨ q.slot q.wp + 64 ≤ a → tget 0 t.mem a = tget 0 s.mem a)
      ∧ (q.head.length < 8 → q.span ≠ 0 →
        let k := min (16 - q.head.length) q.span
        ∃ t, exec (.spillHeadRefill l n false {}) s = .next t ∧ t.mem = s.mem
          ∧ getRunner t l n = Runner.pass { q with head := q.head ++ (List.range k).map (fun i => memB s (q.slot (q.rp + i)) 64)
                                                   rp := (q.rp + k) % 2 ^ (q.ptrLog + 1) }))

/-- R29, R199, R243: a patrol read that finds nothing changes no content, and counts its unit of memory; a bridge counts each failed resend, and is
lost, with one record, after sixteen of one unit. -/
def Sys2Proof.Claims.ScrubbersAndBridgesCountWhatTheyFind : Prop :=
  (∀ (s : State) (l bank row : Nat), bank < 32 → row < 24576 → isBound s l = true → stagesAdvance s = true →
    (getCore s l).spBad = [] → exec (.patrolScrubRow l bank row {}) s = .next s)
  ∧ (∀ (s : State) (a : Nat), a % 64 = 0 → inMem s a 64 = true → s.boot.off = false → s.boot.shutdown = false → s.poison = [] →
    ∃ t, exec (.memoryPatrol a false {}) s = .next t ∧ { t with tel := s.tel } = s
      ∧ counterOf t 3 (memUnit s a + 4) = (counterOf s 3 (memUnit s a + 4)).addN 1)
  ∧ ∀ (s : State) (die : Nat), die < 2 → (getBridge s die).lost = false →
    exec (.bridgeUnit die true) s = .next (setBridge s die { getBridge s die with fails := 0 })
    ∧ exec (.bridgeUnit die false) s = .next (bump (setBridge s die { getBridge s die with fails := (getBridge s die).fails + 1 }) 0 (11 + die) 1)
    ∧ ((getBridge s die).fails < 17 → exec (.bridgeLost die) s = .next s)
    ∧ (17 ≤ (getBridge s die).fails → ∃ t, exec (.bridgeLost die) s = .next t ∧ (getBridge t die).lost = true ∧ t.tel.eseq ≠ s.tel.eseq)

/-- R29, R199, R203 to R210, R243: runner registers, flushes and spill movers keep the order of the entries; the patrol reads of scrubbers
and the resends of bridges change nothing but their accounts. -/
def Obligations.RunnersScrubbersAndBridgesKeepTheirAccounts : Prop := Claims.RunnerRegistersAndSpillMoversKeepTheOrder ∧ Claims.ScrubbersAndBridgesCountWhatTheyFind

/-- R225, R226, R228, R236, R237: MOVE_COPY, MOVE_FILL and MOVE_GATHER write the bytes of their destination rows and no others. -/
def Obligations.MoversWriteTheirRowsOnly : Prop := Claims.MoveCopyAndFillWriteTheirRowsOnly ∧ Claims.MoveGatherBringsTheIndexedRows

/-- R203, R211, R229, R230, R254 to R256: MOVE_SEND and MOVE_SEND_ATOMIC put one transfer into the hub; MOVE_RUNNER_PUSH and MOVE_RUNNER_POP move
one entry. -/
def Obligations.MoversSendAndQueue : Prop := Claims.MoveSendPutsOneTransferIntoTheHub ∧ Claims.MoveRunnerPushAndPopMoveOneEntry

/-- R142, R168, R174, R178 to R181: every function but UPDATE writes its rows, those of the library within their open values. -/
def Obligations.VectorFunctionsWriteTheirRows : Prop := Claims.VectorArithmeticWritesItsRows ∧ Claims.VectorLibraryFunctionsWriteTheirRows

/-! ## The block (spec/95; R43, R44, R456, R476) -/

/-- Spec/95, R43, R44, R418: a step with a command in front is that command's effect on the state with the rest of the queue. On an empty queue
one oscillator period passes (the model's choice, log 2): module time, kept in picoseconds, advances by the period's length, 40 ns within 0.5 %, and
nothing else changes but the place in the profile, whose 800 periods sum to 32 us; in OFF nothing happens. -/
def Obligations.StepTakesTheFrontCommand : Prop :=
  (∀ (s : State) (c : Instr) (r : List Instr), s.pending = c :: r → step s = exec c { s with pending := r })
    ∧ (∀ s : State, s.pending = [] → s.boot.off = true → step s = .next s)
    ∧ (∀ s : State, s.pending = [] → s.boot.off = false → ∃ t, step s = .next t
        ∧ { t with time := s.time, oscPs := s.oscPs, osc := s.osc } = s ∧ t.osc = (s.osc + 1) % 800 ∧ t.oscPs < 1000
        ∧ ∃ n, 39800 ≤ n ∧ n ≤ 40200 ∧ (1000 * t.time + t.oscPs) % (1000 * 2 ^ 64) = (1000 * s.time + s.oscPs + n) % (1000 * 2 ^ 64))
    ∧ ((List.range 800).map periodPs).sum = 32000000

/-- Every command answers a next state, but for those that carry an input voltage above the absolute maximum of 54 V (R476), which end in
the one fault. -/
def Obligations.EveryCommandAnswersWithinTheRatings : Prop :=
  ∀ (c : Instr) (s : State),
    (∃ t, exec c s = .next t)
      ∨ exec c s = .fault .absoluteMaximum ∧ ∃ mv, 54000 < mv ∧ (c = .inputLow mv ∨ c = .inputHigh mv ∨ c = .inputLost mv
          ∨ c = .powerOnReset mv ∨ c = .inputInOperatingRange mv ∨ ∃ w p a, c = .inputPowerMeasurement mv w p a)

/-- An invariant of every step: device memory keeps its canonical form (addresses rise, no entry equals what an unlisted address
reads as), waiting commands stay well formed, module time stays a 64-bit value (R43), the routing epoch is one of four (R290). The step
never changes the module's identity (R4). -/
def Obligations.EveryStepKeepsTheInvariant : Prop :=
  ∀ s t : State, Sound s → step s = .next t → Sound t ∧ t.ident = s.ident

/-- The state after power-on reset (R456) meets the invariant. -/
def Obligations.ResetMeetsTheInvariant : Prop := Sound State.reset

/-- R43, R59, R195, R290, R356, R409, R456 and the reset columns of the registers: what the registers read after power-on reset. -/
def Obligations.ResetValuesOfTheRegisters : Prop :=
  let s := State.reset
  s.time = 0 ∧ s.mem = [] ∧ s.route.epoch = 0 ∧ s.step.st = .idle ∧ s.power.st = .idleLit ∧ s.boot.ready = false ∧ s.boot.stage = 0
    ∧ (∀ c, (getCtx s c).st = .closed ∧ (getCtx s c).entries = []) ∧ (∀ n, (getLink s n).st = .dark)
    ∧ (∀ l i, gReg (getCore s l) i = 0 ∧ (getRiser s l i).cur = 0 ∧ (getRunner s l i).enabled = false ∧ (getFlow s l i).st = 0)
    ∧ (∀ set i, counterOf s set i = {}) ∧ s.tel.buffer = [] ∧ s.tel.phases = [] ∧ s.sec.scopes = 0
    ∧ ∀ l m k a n : Nat, m < 10 → 0 < n → a + n ≤ spSize →
        (∀ kind : Kind, firstRefused (getCore s l).regionL m kind [(a, n)] = none)
          ∧ (0 < k → k < 16 → bitOf (regionOf (getCore s l).region (16 * m + k)) 63 = false)

/-! ## Host ports, intake, dispatch and retirement (R48 to R81) -/

/-- R56, R59, R63 to R66: on an open context's own port, bytes at the tail wait until a charge is whole; a whole charge with this context and the
next CSEQ is accepted, and kept in the context's hopper region; a wrong offset, context, CSEQ or length makes the context FAULTED; any other write is discarded and counted. -/
def Obligations.IntakeAcceptsWholeChargesInOrder : Prop :=
  ∀ (s : State) (p : HostPort) (c off : Nat) (d : List Byte),
    let x := getCtx s c
    let e := parseEntry d
    hubUp s = true → portReady s p = true → bridgesUp s = true → c < 1024 → outOfOrder s p c off d = false →
    ((x.st ≠ .opened ∨ x.owner ≠ p) → exec (.intakeWrite p c off d) s
        = .next (setPort s p { getPort s p with discard := (getPort s p).discard.addN 1 }))
    ∧ (x.st = .opened → x.owner = p →
      (off ≠ x.tail → ∃ t, exec (.intakeWrite p c off d) s = .next t ∧ (getCtx t c).st = .faulted
          ∧ (getCtx t c).lastFault = Status.intakeOffset ∧ (getCtx t c).nextCseq = x.nextCseq
          ∧ (x.entries.all Entry.moved = true → { t with ctxs := s.ctxs } = s))
      ∧ (off = x.tail → ringBytes x + d.length ≤ 65536 → x.entries.all Entry.moved = true → x.partialBuf = [] →
        (d.length < 16 → exec (.intakeWrite p c off d) s
            = .next (setCtx s c { x with tail := (x.tail + d.length) % 65536, partialBuf := d }))
        ∧ (d.length = e.size → headerCtx d = c → headerLen d ≤ 4096 → e.cseq = x.nextCseq →
            hopperBytes x + e.size ≤ 2 ^ x.hopLog2 →
            ∃ t, exec (.intakeWrite p c off d) s = .next t
              ∧ getCtx t c = { x with tail := (x.tail + d.length) % 65536, head := (x.head + e.size) % 65536,
                                      nextCseq := (x.nextCseq + 1) % 2 ^ 32, entries := x.entries ++ [{ e with moved := true }]
                                      hopPos := (x.hopPos + e.size) % 2 ^ x.hopLog2 }
              ∧ (∀ k, k ≠ c → getCtx t k = getCtx s k) ∧ OnlyHopper s t x
              ∧ { t with ctxs := s.ctxs, tel := s.tel, journal := s.journal, out := s.out, mem := s.mem, free := s.free } = s)
        ∧ (16 ≤ d.length → (headerCtx d ≠ c ∨ e.cseq ≠ x.nextCseq ∨ 4096 < headerLen d) →
            ∃ t, exec (.intakeWrite p c off d) s = .next t ∧ (getCtx t c).st = .faulted ∧ (getCtx t c).nextCseq = x.nextCseq
              ∧ (getCtx t c).lastFault = if headerCtx d ≠ c then Status.contextMismatch
                  else if e.cseq ≠ x.nextCseq then Status.chargeSequence else Status.chargeMalformed)))

/-- R67, R68, R76 to R78, R80: a queued charge that may go is dispatched, or reports its refusal; a report finishes its entry; the first finished entry
retires with its record at the next slot of the ring and its message after it, a quiet success with none, and a full ring holds it; a poll of a full ring
takes the host's consumed count. -/
def Obligations.ChargesRunFromDispatchToRecord : Prop :=
  ∀ (s : State) (c : Nat),
    let x := getCtx s c
    (∀ before e, nextQueued x = some (before, e) → bootGate s e.opcode = some 0 → held s c x e = false → mayDispatch x before e = true →
      ∃ t, exec (.chargeDispatch c {}) s = .next t
        ∧ { e with dispatched := true, port := chargePort s c
                   report := if dispatchRefusal s x e 0 = 0 then none else some (dispatchRefusal s x e 0, 0) } ∈ (getCtx t c).entries
        ∧ (dispatchRefusal s x e 0 = 0 → isFabric e.opcode = true → s.power.st = .idleLit → t.power.wake = true)
        ∧ OnlyHopper s t x ∧ t.cores = s.cores)
    ∧ (∀ e v r, x.entries.find? (fun y => y.cseq = e.cseq && y.dispatched && y.st ≠ .finished && y.report.isSome) = some e →
      e.report = some (v, r) → ∃ t, exec (.executorFinishReport c e.cseq) s = .next t ∧ { t with ctxs := s.ctxs } = s
        ∧ (e.st = .waiting → { e with st := .finished, status := v, result := r } ∈ (getCtx t c).entries)
        ∧ (e.st = .abortPending → { e with ended := true } ∈ (getCtx t c).entries))
    ∧ (∀ e rest, c < 1024 → x.st ≠ .orphaned → x.held = [] → x.entries = e :: rest → rest.all Entry.moved = true → e.st = .finished → e.moved = true →
      e.size ≠ 0 → e.opcode ≠ 0x002 → e.opcode ≠ 0x004 →
      let y := { x with entries := rest, lastCseq := e.cseq }
      (e.quiet = true ∧ e.status = 0 → exec (.chargeRetire c) s = .next (setCtx (phaseRetire (journalRetire s c e) c e) c y))
      ∧ ((e.quiet = false ∨ e.status ≠ 0) → ringRoom x = true ∧ canMaster s x.owner = true →
        ∃ t o, exec (.chargeRetire c) s = .next t ∧ getCtx t c = { y with written := (x.written + 1) % 2 ^ 64 }
          ∧ t.out = o ++ .hostWrite x.owner (x.ringBase + 32 * (x.written % 2 ^ x.ringLog2)) (recBytes c (recOf s e) (lapPhase x.written x.ringLog2)) :: s.out
          ∧ ∀ m ∈ o, m = .msix x.owner x.msixVec ∧ x.msixEn = true ∧ (e.notify = true ∨ severity e.status = 2))
      ∧ ((e.quiet = false ∨ e.status ≠ 0) → ¬ (ringRoom x = true ∧ canMaster s x.owner = true) → exec (.chargeRetire c) s = .next s))
    ∧ (∀ v, x.st = .opened → ringRoom x = false → x.pollTime ≤ s.time → canMaster s x.owner = true →
      exec (.consumedCountPoll c v) s = .next (setCtx s c { x with consumed := v % 2 ^ 64, pollTime := s.time + 1000 }))

/-- R74, R80, R81: HOPPER_FLUSH and CTX_RESET flush, when they are accepted, the queued charges before them, CTX_RESET sends abort marks for the running ones;
CHARGE_ABORT sends its mark; a mark aborts a queued target at once and a running fabric charge as ABORT_PENDING; dispatched, each reports what it did; a NOP
reports success. -/
def Obligations.FlushesAndAbortsActOnEarlierCharges : Prop :=
  ∀ (s : State) (c q : Nat),
    let x := getCtx s c
    let waits : Entry → Bool := fun b => b.moved && !b.dispatched && b.st = .waiting
    (∀ op ∈ [0x004, 0x005], ∀ e, x.arrivals = [] → accepted s c q op = some e → e.reserved = false → tailZero e (if op = 4 then 8 else 0) = true →
      (op = 4 → pw e 0 < 2 ^ 32) →
      let k := posOf x q op
      ∃ t, exec (if op = 4 then .ctxReset c q else .hopperFlush c q) s = .next t
        ∧ (∀ (i : Nat) (b : Entry), i < k → x.entries[i]? = some b → waits b = true →
            (getCtx t c).entries[i]? = some { b with st := .finished, status := Status.chargeFlushed })
        ∧ (getCtx t c).entries[k]? = some { e with acted := true, result := (x.entries.take k).countP waits }
        ∧ (getCtx t c).marks = x.marks ++ (if op = 4 then ((x.entries.take k).filter (fun b => b.dispatched && b.st = .waiting
            && isFabric b.opcode)).map (fun b => (q, b.cseq)) else []))
    ∧ (∀ e, accepted s c q 0x006 = some e → e.reserved = false → pw e 0 < 2 ^ 32 → tailZero e 8 = true →
      ∃ t, exec (.chargeAbort c q) s = .next t ∧ (getCtx t c).marks = x.marks ++ [(q, pw e 0)] ∧ { t with ctxs := s.ctxs } = s)
    ∧ (∀ m rest, x.marks = m :: rest → x.entries.all Entry.moved = true →
      ∃ t, exec (.abortMark c) s = .next t ∧ (getCtx t c).marks = rest
        ∧ (markFinds x m = 0 → (getCtx t c).entries = x.entries)
        ∧ (markFinds x m = 1 → ∃ b ∈ (getCtx t c).entries, b.cseq = m.2 ∧ b.st = .finished ∧ b.status = Status.chargeAborted)
        ∧ (markFinds x m = 2 → collOf s c m.2 = none → ∃ b ∈ (getCtx t c).entries, b.cseq = m.2 ∧ b.st = .abortPending))
    ∧ (accepted s c q 0x005 = none → ∀ e, running s c q 0x005 = some e → tailZero e 0 = true → exec (.hopperFlush c q) s = .next (report s c q 0 e.result))
    ∧ (accepted s c q 0x004 = none → x.arrivals = [] → ∀ e, running s c q 0x004 = some e → tailZero e 8 = true → pw e 0 < 2 ^ 32 →
      exec (.ctxReset c q) s = .next (report s c q 0 e.result))
    ∧ (accepted s c q 0x006 = none → ∀ e, running s c q 0x006 = some e → tailZero e 8 = true → pw e 0 < 2 ^ 32 →
      exec (.chargeAbort c q) s = .next (if e.result = 0 then report s c q Status.nothingToAbort 0 else report s c q 0 1))
    ∧ (∀ e, running s c q 0x008 = some e → exec (.nop c q) s = .next (report s c q (if tailZero e 0 then 0 else Status.fieldReserved) 0))

/-- R59, R60, R72 to R74: CTX_OPEN opens a CLOSED context for the writing port with its record in slot 0, and is refused with CONTEXT_OWNED otherwise;
CTX_TAKEOVER of an orphaned or faulted context waits for the charge boundary, where the context becomes OPEN for the new port with an empty intake ring;
CTX_CLOSE reports at dispatch and closes the context at retirement; there CTX_RESET empties the ring and sets NEXT_CSEQ. -/
def Obligations.ContextsOpenChangeHandsAndClose : Prop :=
  ∀ (s : State) (c : Nat) (p : HostPort) (d : List Byte),
    let x := getCtx s c
    let e := parseEntry d
    let w := pw e 0x20
    (x.arrivals = [(p, d)] → e.opcode = 0x001 → openFieldsOk e true = true → e.notify = false → canMaster s p = true →
      (x.st ≠ .closed → ∃ t, exec (.ctxOpen c) s = .next t ∧ getCtx t c = { x with arrivals := [] }
        ∧ t.out = .hostWrite p (pw e 0) (recBytes c (openRec s e Status.contextOwned) true) :: s.out)
      ∧ (x.st = .closed → pw e 0x18 % 2 ^ fld w 9 5 = 0 → inHopper s (pw e 0x18) (2 ^ fld w 9 5) = false →
          inFast s (pw e 0x18) (2 ^ fld w 9 5) = true →
        ∃ t, exec (.ctxOpen c) s = .next t ∧ getCtx t c = openedCtx p e
          ∧ t.out = .hostWrite p (pw e 0) (recBytes c (openRec s e 0) true) :: s.out))
    ∧ (x.arrivals = [(p, d)] → e.opcode = 0x003 → openFieldsOk e false = true → x.st = .orphaned ∨ x.st = .faulted → x.takeover = none →
      exec (.ctxTakeover c) s = .next (setCtx s c { x with arrivals := [], takeover := some (p, d) }))
    ∧ (x.takeover = some (p, d) → x.held = [] →
      ∃ t, exec (.takeoverApply c) s = .next t ∧ (getCtx t c).st = .opened ∧ (getCtx t c).owner = p ∧ (getCtx t c).takeover = none
        ∧ (getCtx t c).tail = 0 ∧ (getCtx t c).head = 0 ∧ (getCtx t c).partialBuf = [] ∧ (getCtx t c).written = 1
        ∧ (getCtx t c).ringBase = pw e 0 ∧ (getCtx t c).nextCseq = x.nextCseq
        ∧ ∀ (i : Nat) (b : Entry), x.entries[i]? = some b → b.dispatched = false → b.st = .waiting → (b.opcode = 0x110 ∨ b.opcode = 0x111) →
            ((getCtx t c).entries[i]?).map Entry.status = some Status.chargeFlushed)
    ∧ (∀ q e', running s c q 0x002 = some e' → tailZero e' 0 = true → exec (.ctxClose c q) s = .next (report s c q 0 0))
    ∧ (∀ b, c < 1024 → x.st = .opened → x.held = [] → x.takeover = none → x.entries = [b] → b.st = .finished → b.moved = true → b.status = 0 →
      b.size ≠ 0 → ringRoom x = true → canMaster s x.owner = true →
      (b.opcode = 0x002 → ∃ t, exec (.chargeRetire c) s = .next t ∧ (getCtx t c).st = .closed ∧ (getCtx t c).entries = [])
      ∧ (b.opcode = 0x004 → ∃ t, exec (.chargeRetire c) s = .next t ∧ (getCtx t c).st = .opened ∧ (getCtx t c).tail = 0 ∧ (getCtx t c).head = 0
          ∧ (getCtx t c).partialBuf = [] ∧ (getCtx t c).nextCseq = fld (pw b 0) 31 0))

/-- R58, R194, R240, R241: a BAR4 write puts its bytes into device memory, a BAR4 read brings the bytes that lie there, and either is refused where the window
reaches nothing; R54, R55: a register write of `PORT_WIN` moves the window. -/
def Obligations.Bar4ReachesDeviceMemory : Prop :=
  ∀ (s : State) (p : HostPort) (off : Nat),
    let a := (getPort s p).winBase * 2 ^ 36 + off
    hubUp s = true → portReady s p = true → a < 2 ^ 44 →
    (∀ d : List Byte, d ≠ [] → bar4Target s a d.length = .device → (∀ u ∈ unitsOf a d.length, s.poison.contains u = false) →
      ∃ t, exec (.bar4Write p off d {}) s = .next t ∧ memB t a d.length = d ∧ (∀ i, i < a ∨ a + d.length ≤ i → memB t i 1 = memB s i 1)
        ∧ { t with mem := s.mem } = s)
    ∧ (∀ d : List Byte, bar4Target s a d.length = .nothing → exec (.bar4Write p off d {}) s
        = .next (setPort s p { getPort s p with discard := (getPort s p).discard.addN 1 }))
    ∧ (∀ n, bar4Target s a n = .device → (∀ u ∈ unitsOf a n, s.poison.contains u = false) →
        exec (.bar4Read p off n {}) s = .next (emit s (.readData p (memB s a n))))
    ∧ (∀ n, bar4Target s a n = .nothing → exec (.bar4Read p off n {}) s = .next (emit s (.readUnsupported p)))
    ∧ (∀ v : Nat, v < 256 → (getPort s p).pba = [] →
        exec (.registerWrite p 0x20 (toLE 8 (v * 2 ^ 36))) s = .next (setPort s p { getPort s p with winBase := v }))

/-- R48, R49, R51, R57, R60, R71, R459: a conventional reset, a function level reset, D3hot entry, link loss and the clearing of Bus Master Enable make
the port's open contexts ORPHANED and put its window and MSI-X state back to their reset values, the resets the Command register and the configured sizes too; the opposite
events bring the port back; a completion timeout ends the HOST_READ. -/
def Obligations.PortEventsOrphanContexts : Prop :=
  ∀ (s : State) (p : HostPort),
    (∀ row ∈ ([(.portReset p, fun x => { x with bme := false, mse := false, d3hot := false, cfg := {}, discard := { x.discard with ovf := false } }),
        (.functionLevelReset p, fun x => { x with bme := false, mse := false, d3hot := false, cfg := {}, discard := { x.discard with ovf := false } }),
        (.d3hotEntry p, fun x => { x with d3hot := true }), (.portLinkLoss p, fun x => { x with linkUp := false }),
        (.busMasterEnableClear p, fun x => { x with bme := false })] : List (Instr × (Port → Port))),
      ∃ t, exec row.1 s = .next t ∧ getPort t p = row.2 { getPort s p with winBase := 0, msix := [], pba := [] }
        ∧ getPort t (otherPort p) = getPort s (otherPort p) ∧ { t with portA := s.portA, portB := s.portB, ctxs := s.ctxs } = s
        ∧ ∀ c, c < 1024 → (getCtx t c).st = if (getCtx s c).owner = p ∧ ((getCtx s c).st = .opened ∨ (getCtx s c).st = .faulted)
            then .orphaned else (getCtx s c).st)
    ∧ ((getPort s p).pba = [] →
      exec (.d3hotExit p) s = .next (setPort s p { getPort s p with d3hot := false })
      ∧ (hubUp s = true → (getPort s p).detected = true → exec (.portLinkUp p) s = .next (setPort s p { getPort s p with linkUp := true }))
      ∧ ((getPort s p).linkUp = true → ∀ cfg, exec (.busMasterEnableSet p cfg) s
          = .next (setPort s p { getPort s p with bme := true, mse := true, cfg := cfg })))
    ∧ (∃ t, exec (.perstDeassert p) s = .next t ∧ perstLow t p = false ∧ perstLow t (otherPort p) = perstLow s (otherPort p)
        ∧ { t with pins := s.pins } = s)
    ∧ (hubUp s = true → perstLow s p = false → exec (.pcieDetectExit p) s = .next (setPort s p { getPort s p with detected := true }))
    ∧ (∀ c q e, running s c q 0x110 = some e → e.port = p → exec (.pcieCompletionTimeout p c q) s = .next (report s c q Status.hostPortLost 0))

/-! ## Memory and load charges (R102 to R109, R233 to R237) -/

namespace Sys2Proof.Claims

/-- One entry alone carries the CSEQ, and its charge runs under an opcode: the running charge of a context. -/
def Sole (s : State) (c q op : Nat) (e : Entry) : Prop :=
  running s c q op = some e ∧ (getCtx s c).entries.filter (fun y => y.cseq = q) = [e]

/-- No unit or word is lasting. -/
def NoBad (s : State) : Prop := s.poison = [] ∧ ∀ l, (getCore s l).spBad = []

/-- A range in a window is open to the movers and to arriving writes for a kind of access. -/
def WindowOpen (s : State) (a n : Nat) (k : Kind) : Prop :=
  ∀ l o m, inWindow a n = some (l, o) → 4 ≤ m → m ≤ 8 → firstRefused (getCore s l).regionL m k [(o, n)] = none

/-- A byte is written to host memory by one of these outputs. -/
def HostByte (out : List Output) (p : HostPort) (a : Nat) (b : Byte) : Prop :=
  ∃ a0 d, Output.hostWrite p a0 d ∈ out ∧ a0 ≤ a ∧ d[a - a0]? = some b

/-- The charge places an item on each of these cores, behind those that wait, four of them on the core's queue, and on no other core,
and waits for their ends. -/
def Placed (s t : State) (c : Nat) (ls : List Nat) (e : Entry) (item : Nat → Item) : Prop :=
  (∀ l ∈ ls, let x := getCore s l; let y := getCore t l
      { y with queue := x.queue, hubItems := x.hubItems } = x ∧ y.queue ++ y.hubItems = x.queue ++ x.hubItems ++ [item l]
      ∧ (x.queue.length ≤ 4 → y.queue.length = min 4 (x.queue.length + x.hubItems.length + 1)))
    ∧ (∀ l, l ∉ ls → getCore t l = getCore s l) ∧ { e with items := ls, phase := 1 } ∈ (getCtx t c).entries
    ∧ t.mem = s.mem ∧ t.out = s.out ∧ t.tel = s.tel

/-- The executors of a charge have reported a status and RESULT. -/
def Reported (t : State) (c q status result : Nat) : Prop :=
  ∃ e ∈ (getCtx t c).entries, e.cseq = q ∧ e.report = some (status, result)

end Sys2Proof.Claims

/-- R49, R233 to R237: a COPY, FILL, HOST_READ or HOST_WRITE whose checks pass, and whose cores' movers run, moves exactly its bytes and reports
success, to the host in writes of at most the port's maximum payload; a GATHER brings its rows, or zeros beyond the table, which RESULT counts; an
aborted COPY writes nothing outside its destination. -/
def Obligations.MemoryChargesMoveTheirBytes : Prop :=
  ∀ (s : State) (c q : Nat) (e : Entry), fabricRuns s = true → NoBad s →
    let a := pw e 0
    let b := pw e 8
    let n := pw e 0x10
    let Out : Nat → Nat → Nat → Prop := fun d k i => i < d ∨ d + k ≤ i
    let fine : Bool := n < 2 ^ 40 && tailZero e 0x18
    (running s c q 0x100 = some e → a < 2 ^ 44 → b < 2 ^ 44 → memCheck s fine (n ≠ 0) true (some (a, n)) (some (b, n)) true = 0 →
      moversRun s [(a, n), (b, n)] = true → WindowOpen s a n .rd → WindowOpen s b n .wr →
      (∀ l, shotTarget a b n = some l → rebinding s l = false) →
      ∃ t, exec (.copy c q {}) s = .next t ∧ Reports s t c q (if e.st = .abortPending then Status.chargeAborted else 0) 0
        ∧ (e.st ≠ .abortPending → ∀ i < n, byteAt t (b + i) = byteAt s (a + i)) ∧ ∀ i, Out b n i → byteAt t i = byteAt s i)
    ∧ (running s c q 0x101 = some e → e.st ≠ .abortPending → a < 2 ^ 44 → b < 2 ^ 40 → tailZero e 0x18 = true →
      memCheck s true (b ≠ 0) true none (some (a, b)) false = 0 → moversRun s [(a, b)] = true → WindowOpen s a b .wr →
      ∃ t, exec (.fill c q {}) s = .next t ∧ Reports s t c q 0 0
        ∧ (∀ i < b, byteAt t (a + i) = BitVec.ofNat 8 (n / 2 ^ (8 * ((a + i) % 8)))) ∧ ∀ i, Out a b i → byteAt t i = byteAt s i)
    ∧ (∀ data, running s c q 0x110 = some e → e.st ≠ .abortPending → b < 2 ^ 44 → memCheck s fine (n ≠ 0) true none (some (b, n)) false = 0 →
      moversRun s [(b, n)] = true → WindowOpen s b n .wr →
      if canMaster s e.port then
        ∃ t, exec (.hostRead c q data {}) s = .next t ∧ Reports s t c q 0 0 ∧ (∀ i < n, byteAt t (b + i) = data.getD i 0)
          ∧ ∀ i, Out b n i → byteAt t i = byteAt s i
      else exec (.hostRead c q data {}) s = .next (report s c q Status.hostPortLost 0))
    ∧ (running s c q 0x111 = some e → e.st ≠ .abortPending → b < 2 ^ 44 → memCheck s fine (n ≠ 0) true (some (b, n)) none false = 0 →
      moversRun s [(b, n)] = true → WindowOpen s b n .rd → 0 < (getPort s e.port).cfg.mps →
      if canMaster s e.port then
        ∃ t new, exec (.hostWrite c q {}) s = .next t ∧ Reports s t c q 0 0 ∧ t.out = new ++ s.out ∧ t.mem = s.mem ∧ t.cores = s.cores
          ∧ (∀ i < n, HostByte new e.port (a + i) (byteAt s (b + i)))
          ∧ ∀ o ∈ new, ∃ a0 d, o = .hostWrite e.port a0 d ∧ a ≤ a0 ∧ a0 + d.length ≤ a + n
              ∧ d.length ≤ (getPort s e.port).cfg.mps
      else exec (.hostWrite c q {}) s = .next (report s c q Status.hostPortLost 0))
    ∧ (running s c q 0x120 = some e → e.st ≠ .abortPending → isL8 s = true →
      let g := gatherOf e
      let idx := fun i => leNat (memB s (g.index + 4 * i) 4)
      g.table < 2 ^ 44 → g.index < 2 ^ 44 → g.dst < 2 ^ 44 → fld (pw e 0x20) 63 33 = 0 → tailZero e 0x28 = true → gatherShape g = true →
      gatherEnds s g = 0 → WindowOpen s g.dst (gatherSpan g) .wr → overlaps g.dst (gatherSpan g) g.index (4 * g.count) = false →
      overlaps g.dst (gatherSpan g) g.table (g.rows * g.size) = false →
      moversRun s [(g.table, g.rows * g.size), (g.index, 4 * g.count), (g.dst, gatherSpan g)] = true →
      let far := (List.range g.count).countP (fun i => g.rows ≤ idx i)
      ∃ t, exec (.gather c q {}) s = .next t ∧ Reports s t c q (if far = 0 then 0 else Status.gatherIndexRange) far
        ∧ (∀ i < g.count, ∀ k < g.size, byteAt t (g.dst + i * g.pitch + k) = if idx i < g.rows then byteAt s (g.table + idx i * g.size + k) else 0)
        ∧ ∀ i, ¬InRows g.dst g.pitch g.count g.size i → byteAt t i = byteAt s i)

/-- R195, R196, R234: a COPY between memory and a block of device registers reads whole registers in address order, and writes a region register
with its defined bits alone, in an administrative context. -/
def Obligations.RegisterPathCopiesWholeRegisters : Prop :=
  ∀ (s : State) (c q : Nat) (e : Entry) (bl : RegBlock) (o : Nat), fabricRuns s = true → running s c q 0x100 = some e → s.poison = [] →
    let a := pw e 0
    let b := pw e 8
    let n := pw e 0x10
    a < 2 ^ 44 → b < 2 ^ 44 → n < 2 ^ 40 → n ≠ 0 → tailZero e 0x18 = true → (bl.isDebug = true → fabricOpen s = true) →
    (regEnd a n = some (bl, o) → (bl.isDebug = true → (getCtx s c).admin = true) → inMem s b n = true → inHopper s b n = false →
      ∃ t, exec (.copy c q {}) s = .next t ∧ Reports s t c q 0 0 ∧ (∀ i, 8 * i < n → memB t (b + 8 * i) 8 = toLE 8 (regRead s bl (o + 8 * i)))
        ∧ ∀ i, i < b ∨ b + n ≤ i → memB t i 1 = memB s i 1)
    ∧ (∀ l, regEnd b n = some (.region l, o) → inMem s a n = true → inHopper s a n = false →
      (if (getCtx s c).admin then ∃ t, exec (.copy c q {}) s = .next t ∧ Reports s t c q 0 0 ∧ t.mem = s.mem
          ∧ (∀ i, 8 * i < n → regRead t (.region l) (o + 8 * i) = w64 (memB s a n) (8 * i) &&& 0x800701FFFF01FFFF)
          ∧ (∀ i, i < o ∨ o + n ≤ i → i % 8 = 0 → regRead t (.region l) i = regRead s (.region l) i)
          ∧ (getCore t l).regionL = (getCore s l).regionL ∧ ∀ k, k ≠ l → getCore t k = getCore s k
        else exec (.copy c q {}) s = .next (report s c q Status.contextNotAdmin 0)))
    ∧ (regEnd b n = some (bl, o) → bl.readOnly = true → exec (.copy c q {}) s = .next (report s c q Status.moveTargetInvalid 0))

/-- R67, R104 to R106, R483: PROG_LOAD, TABLE_LOAD and LAUNCH, once the earlier charges of their context have placed their items, place one item on each
core that they name, with the bytes or arguments read at dispatch; one that fails a check changes no core. -/
def Obligations.LoadChargesPlaceOneItemOnEachNamedCore : Prop :=
  ∀ (s : State) (c q : Nat) (e : Entry), fabricRuns s = true → s.poison = [] → e.phase = 0 → e.st ≠ .abortPending →
    inTurn s c q = true →
    let n := pw4 e 0x18
    let data := memB s (pw e 0x10) n
    (Sole s c q 0x200 e → if loadStatus s e false = 0 then ∃ t, exec (.progLoad c q {}) s = .next t
        ∧ Placed s t c (namedCores e) e (fun _ => { kind := .progLoad, ctx := c, cseq := q, entry := fld (pw4 e 0x1C) 14 0, data := data })
      else exec (.progLoad c q {}) s = .next (report s c q (loadStatus s e false) 0))
    ∧ (Sole s c q 0x201 e → if loadStatus s e true = 0 then ∃ t, exec (.tableLoad c q {}) s = .next t
        ∧ Placed s t c (namedCores e) e (fun _ => { kind := .tableLoad, ctx := c, cseq := q, entry := fld (pw4 e 0x1C) 3 0, data := data })
      else exec (.tableLoad c q {}) s = .next (report s c q (loadStatus s e true) 0))
    ∧ (Sole s c q 0x210 e → if launchStatus s e = 0 then ∃ t, exec (.launch c q {}) s = .next t
        ∧ Placed s t c (namedCores e) e (fun l => { kind := .launch, ctx := c, cseq := q, entry := fld (pw4 e 0x10) 14 0, args := launchArgs s e l })
      else exec (.launch c q {}) s = .next (report s c q (launchStatus s e) 0))

/-- R85, R102, R104, R107 to R109, R197: a ready core takes the first item of its queue: an image reaches its instruction store or a table slot, a launch starts
at its entry with zeroed registers but for its arguments, and the region registers are latched; a stop ends an idle launch, and waits for a running engine. -/
def Obligations.CoresRunTheirItemsInOrder : Prop :=
  ∀ (s : State) (l : Nat),
    let x := getCore s l
    (∀ i, itemReady s l = some i →
      (i.kind = .progLoad ∨ i.kind = .tableLoad ∨ i.kind = .launch →
        ∃ t, exec (.workQueueItemStart l) s = .next t ∧ (getCore t l).queue ++ (getCore t l).hubItems = x.queue.tail ++ x.hubItems
          ∧ (getCore t l).regionL = x.region
          ∧ (getCore t l).scratch = x.scratch ∧ t.mem = s.mem ∧ (∀ k, k ≠ l → getCore t k = getCore s k)
          ∧ (i.kind = .progLoad → (getCore t l).run = none
            ∧ (∀ k, 8 * k + 8 ≤ i.data.length → getInstr (getCore t l) (i.entry + k) = BitVec.ofNat 64 (w64 i.data (8 * k)))
            ∧ ∀ k, k < i.entry ∨ i.entry + i.data.length / 8 ≤ k → getInstr (getCore t l) k = getInstr x k)
          ∧ (i.kind = .tableLoad → (getCore t l).run = none ∧ readB (getCore t l).tables (16384 * i.entry) i.data.length = i.data)
          ∧ (i.kind = .launch → (getCore t l).run = some { item := i, cores := (boundCores s).length } ∧ (getCore t l).pc = i.entry ∧ (getCore t l).p = 0
            ∧ ∀ k, gReg (getCore t l) k = if k = 0 then 0 else i.args.getD (k - 1) 0)))
    ∧ (itemReady s l = none → exec (.workQueueItemStart l) s = .next s)
    ∧ (∀ r, x.run = some r → r.stopping = true → coreRuns s l = true →
      (r.item.kind ≠ .launch → exec (.launchStop l) s = .next (endItem s l))
      ∧ (r.item.kind = .launch → r.stopped = false →
        let idle := enginesIdle (getCore (discardUnstarted s l) l)
        ∃ t, exec (.launchStop l) s = .next t ∧ (getCore t l).run = (if idle then none
            else some { r with stopped := true, holding := false, waiting := false, stopping := false })
          ∧ (getCore t l).g = x.g ∧ (getCore t l).pc = x.pc ∧ (getCore t l).scratch = x.scratch ∧ t.mem = s.mem))

/-! ## Links (R261 to R281) -/

namespace Sys2Proof.Claims

/-- A device range that a charge may name is open to master 8 for a kind of access, and nothing that it holds is lasting. -/
def Reachable (s : State) (a n : Nat) (k : Kind) : Prop := deviceOk s a n = true ∧ (deviceRegion s a n k).2 = true ∧ NoBad s

/-- Outside a range no byte of memory or of a scratchpad differs. -/
def OnlyRange (s t : State) (a n : Nat) : Prop := ∀ i, i < a ∨ a + n ≤ i → byteAt t i = byteAt s i

/-- What a map asks of link `n`. -/
def wanted (m : List Byte) (n : Nat) : Bool := mapUsed m (portOf n) && bitOf (mapExpected m (portOf n)) (linkIndex n)

end Sys2Proof.Claims

/-- R7, R268, R270, R274, R275: a valid map takes effect: of the ports whose entry changed, a link that the map expects starts training, goes on training,
leaves its bundle when it carries traffic, or, waiting in IDENTIFY, judges the record that it keeps; a link that it does not expect leaves for DARK or
goes there; a map that fails a check changes nothing. R276: MAP_READ writes the map and the peer records. -/
def Sys2Proof.Claims.MapLoadRemapsTheLinks : Prop :=
  ∀ (s : State) (c q : Nat) (e : Entry),
    let d := pw e 0
    let m := bytesAt s d 1024
    (running s c q 0x010 = some e → d % 64 = 0 → pw e 8 = 1024 → tailZero e 0x10 = true → Reachable s d 1024 .rd →
      ((mapRefusal s m).1 ≠ 0 → exec (.mapLoad c q {}) s = .next (report s c q (mapRefusal s m).1 (mapRefusal s m).2))
      ∧ ((mapRefusal s m).1 = 0 → (∀ n, (getLink s n).loopback = none) →
        ∃ t, exec (.mapLoad c q {}) s = .next t ∧ t.map = some m ∧ Reports s t c q 0 0 ∧ t.mem = s.mem ∧ t.cores = s.cores
          ∧ ∀ n, n < 48 →
            let l := getLink s n
            let l' := getLink t n
            if ∃ o, s.map = some o ∧ mapEntry o (portOf n) = mapEntry m (portOf n) then l' = l
            else if wanted m n = true then
              (l.st = .active ∨ l.st = .keepalive → l'.st = l.st ∧ l'.leaving = true ∧ l'.darkNext = false)
              ∧ (l.st = .dark ∨ l.st = .dropped ∨ l.st = .quarantined ∨ l.st = .identify ∧ l.peer ≠ none ∧ l.ownOk ≠ none →
                  l'.st = .training ∧ l'.reason = 0 ∧ l'.mseq = 0)
              ∧ (l.st = .training ∨ l.st = .identify ∧ l.peer = none → l' = l)
              ∧ (l.st = .identify → l.peer ≠ none → l.ownOk = none → l'.ownOk ≠ none ∧ l'.peer = l.peer)
            else if l.st = .active ∨ l.st = .keepalive then l'.st = l.st ∧ l'.leaving = true ∧ l'.darkNext = true
            else l'.st = .dark ∧ l'.reason = 0))
    ∧ (running s c q 0x011 = some e → d % 64 = 0 → tailZero e 8 = true → Reachable s d 2560 .wr →
      ∃ t, exec (.mapRead c q) s = .next t ∧ Reports s t c q 0 (match s.map with
          | some o => mapVersion o
          | none => 0)
        ∧ (∀ o, s.map = some o → o.length = 1024 → bytesAt t d 1024 = o) ∧ (s.map = none → bytesAt t d 1024 = List.replicate 1024 0)
        ∧ (∀ n, n < 48 → bytesAt t (d + 1024 + 32 * n) 32 = peerBytes (getLink s n)) ∧ OnlyRange s t d 2560
        ∧ { t with mem := s.mem, cores := s.cores, ctxs := s.ctxs } = s)

/-- R268, R271, R279: LINK_STATUS writes the status record of each link; LINK_RETRAIN takes its links out of their bundles, or trains those that are
dropped or quarantined, and reports, when all have come to rest, which are ACTIVE; it is refused when it names a dark link or would take down a port. -/
def Sys2Proof.Claims.LinkChargesReadAndRetrainLinks : Prop :=
  ∀ (s : State) (c q : Nat) (e : Entry),
    let d := pw e 0
    let mask := d % 2 ^ 48
    let ns := bitsOf 48 mask
    (running s c q 0x500 = some e → d % 64 = 0 → tailZero e 8 = true → Reachable s d 1536 .wr →
      ∃ t, exec (.linkStatus c q) s = .next t ∧ Reports s t c q 0 0 ∧ (∀ n, n < 48 → bytesAt t (d + 32 * n) 32 = linkRecord s n)
        ∧ OnlyRange s t d 1536 ∧ { t with mem := s.mem, cores := s.cores, ctxs := s.ctxs } = s)
    ∧ (running s c q 0x501 = some e → d < 2 ^ 49 → tailZero e 8 = true → (∀ n, (getLink s n).loopback = none) →
      (e.phase = 0 → retrainRefused s mask (bitOf d 48) = true → exec (.linkRetrain c q) s = .next (report s c q Status.linkRetrainRefused 0))
      ∧ (e.phase = 0 → retrainRefused s mask (bitOf d 48) = false → ns ≠ [] →
        ∃ t, exec (.linkRetrain c q) s = .next t ∧ { t with links := s.links, ctxs := s.ctxs } = s ∧ (∀ n, n ∉ ns → getLink t n = getLink s n)
          ∧ ∀ n ∈ ns, let l := getLink s n
            (l.st = .active ∨ l.st = .keepalive → getLink t n = { l with leaving := true, noLeave := false })
            ∧ (l.st = .dropped ∨ l.st = .quarantined → (getLink t n).st = .training ∧ (getLink t n).stuck = false)
            ∧ (l.st = .training ∨ l.st = .identify ∨ l.st = .dark → getLink t n = l))
      ∧ (e.phase ≠ 0 → (∀ n ∈ ns, retrainDone (getLink s n) = true) →
        exec (.linkRetrain c q) s = .next (report s c q 0 (((ns.filter (fun n => (getLink s n).st = .active)).map (fun n => 2 ^ n)).sum))))

namespace Sys2Proof.Claims

/-- No other link has changed. -/
def OnlyLink (s t : State) (n : Nat) : Prop := ∀ k, k ≠ n → getLink t k = getLink s k

/-- No other port has changed. -/
def OnlyPort (s t : State) (p : Nat) : Prop := ∀ k, k ≠ p → getLPort t k = getLPort s k

/-- A port has nothing to send. -/
def Quiet (s : State) (p : Nat) : Prop :=
  (getLPort s p).outq = [] ∧ (getLPort s p).mirrorq = [] ∧ (getLPort s p).resend = []

/-- The frame that an idle or control frame's header and body make on link `n`, with the link's numbers. -/
def FrameOn (s : State) (n kind : Nat) (credit : List Nat) (body : List Byte) : Output :=
  let l := getLink s n
  .frame n (wireOf s n { kind := kind, fseq := l.txFseq, ack := l.rxFseq, retryReq := l.retryReq, bseq := 0, words := 0, port := 0, link := 0,
                         credit := credit } body)

/-- Every fragment of a link-control message has left on link `n` (R272). -/
def Sent (s t : State) (n mtype reason mseq : Nat) (msg : List Byte) : Prop :=
  ∀ b ∈ fragments (portOf n) mtype reason mseq msg, ∃ credit, FrameOn s n 2 credit b ∈ t.out

/-- A frame that completes a link-control message arrives on link `n`, whose physical layer is trained (R261, R272): the message's reason and
content, and the state in which its header and last fragment have been taken. -/
def Arrives (s : State) (n mtype : Nat) (wire : List Byte) (fec : Bool) (reason : Nat) (msg : List Byte) (u : State) : Prop :=
  let l := getLink s n
  (speaks l = true ∨ l.st = .keepalive) ∧ l.loopback = none ∧ ∃ h body q i k,
    receive s n wire fec = .frame h body ∧ h.kind = 2 ∧ 8 ≤ body.length ∧ i < k ∧ k < 256 ∧ q < 2 ^ 32 ∧ reason < 16
    ∧ w64 body 0 = mtype * 2 ^ 56 + i * 2 ^ 48 + k * 2 ^ 40 + reason * 2 ^ 36 + q ∧ partOf l q i = none
    ∧ (∀ j, j < k → j ≠ i → partOf l q j ≠ none)
    ∧ u = modLink (if inBundle l then takeHeader s n h else s) n (fun x => { x with parts := x.parts ++ [(q, i, body.drop 8)] })
    ∧ msg = (List.range k).flatMap (fun j => if j = i then body.drop 8 else (partOf l q j).getD [])

end Sys2Proof.Claims

/-- R261 to R265, R277, R278: a data frame with the next FSEQ and BSEQ is taken: its shots reach the input buffer in order; a frame that fails its CRC, or one
out of order, asks for a replay and takes nothing; one that does not come from the expected peer link is discarded and counted; an acknowledgement
frees the frames up to it; an idle link sends an acknowledgement-only frame; an acknowledgement that is overdue replays every kept frame. -/
def Obligations.LinkFramesArriveInOrderOnce : Prop :=
  ∀ (s : State) (n : Nat) (wire : List Byte) (fec : Bool) (h : Frame) (body : List Byte),
    let l := getLink s n
    let p := portOf n
    let x := getLPort s p
    n < 48 → l.loopback = none →
    (l.st = .active → receive s n wire fec = .frame h body → h.kind = 0 → h.retryReq = false →
      (h.fseq ≠ (l.rxFseq + 1) % 4096 → exec (.linkDataFrame n wire fec) s = .next (setLink s n { l with retryReq := true }))
      ∧ (h.fseq = (l.rxFseq + 1) % 4096 → h.bseq = x.rxBseq → x.rxBseq < 4096 → x.held = [] → l.kept = [] → Quiet s p →
        ∃ t, exec (.linkDataFrame n wire fec) s = .next t ∧ getLink t n = { l with rxFseq := h.fseq, retryReq := false }
          ∧ (getLPort t p).inbuf = x.inbuf ++ readShots 120 body ∧ (getLPort t p).rxBseq = (x.rxBseq + 1) % 4096 ∧ (getLPort t p).held = []
          ∧ (∀ v, v < 4 → lookD 0 (getLPort t p).used v = lookD 0 x.used v - h.credit.getD v 0)
          ∧ OnlyLink s t n ∧ OnlyPort s t p ∧ { t with links := s.links, lports := s.lports, tel := s.tel } = s))
    ∧ (l.st = .active → receive s n wire fec = .bad →
        ∃ t, exec (.linkDataFrame n wire fec) s = .next t ∧ getLink t n = { l with retryReq := true }
        ∧ OnlyLink s t n ∧ { t with links := s.links, tel := s.tel } = s)
    ∧ (l.st = .active → receive s n wire fec = .stray → exec (.linkDataFrame n wire fec) s = .next (bump s 2 (8 * n + 4) 1))
    ∧ (inBundle l = true → receive s n wire fec = .frame h body → h.kind = 1 → h.retryReq = false → h.fseq = (l.rxFseq + 1) % 4096 → l.replays = 0 →
      Quiet s p →
      (∀ a k b, l.kept = a ++ k :: b → k.fseq = h.ack → (∀ y ∈ a, y.fseq ≠ h.ack) →
        ∃ t, exec (.ackOnlyFrame n wire fec) s = .next t ∧ getLink t n = { l with kept := b } ∧ OnlyLink s t n
          ∧ OnlyPort s t p ∧ { t with links := s.links, lports := s.lports } = s))
    ∧ (inBundle l = true → s.power.st ≠ .drawn →
      let cr := (List.range 4).map (fun v => min 4095 (lookD 0 x.owed v))
      ∃ t, exec (.idleFrameTimer n) s = .next t ∧ t.out = FrameOn s n 1 cr [] :: s.out ∧ getLink t n = l
        ∧ OnlyPort s t p ∧ { t with lports := s.lports, out := s.out } = s)
    ∧ (l.st = .active → ∃ t, exec (.ackTimeout n) s = .next t ∧ (getLink t n).kept = l.kept
        ∧ (getLink t n).replays = (if l.kept = [] then l.replays else l.replays + 1) ∧ (getLPort t p).inbuf = x.inbuf
        ∧ ∃ new, t.out = new ++ s.out ∧ new.length = l.kept.length)

/-- R266 to R268, R272, R275: a link that fails, or that the peer drops, becomes DROPPED, or DARK when it was leaving for it, with its reason and one more
drop counted; when it was the last link of its port, the port's numbers start afresh and, unless a firmware update holds its traffic, that is
discarded; its retrain timer trains it again unless its allowance is spent, which each span's end restores; a leaving link whose frames are acknowledged
trains again, or goes DARK under a map, the last one of a port once it has announced it. -/
def Obligations.LinksDropLeaveAndTrainAgain : Prop :=
  ∀ (s : State) (n : Nat),
    let p := portOf n
    let dropped : State → State → Nat → Prop := fun u t r =>
      let l := getLink u n
      (getLink t n).st = (if l.darkNext then .dark else .dropped) ∧ (getLink t n).reason = r ∧ (getLink t n).kept = []
      ∧ (getLink t n).drops = min 4 (l.drops + 1) ∧ (getLink t n).stuck = decide (3 ≤ l.drops) ∧ (u.colls = [] → t.mem = u.mem)
      ∧ (activeLinks u p = [n] → (getLPort t p).rxBseq = 0 ∧ (getLPort t p).held = []
        ∧ ((getLPort u p).fwHold = false → (getLPort t p).outq = [] ∧ (getLPort t p).steady = false))
    let l := getLink s n
    n < 48 →
    (inBundle l = true → (8 ≤ l.replays ∨ 256 ≤ l.retryTimes.length) → ∃ t, exec (.retryLimit n) s = .next t ∧ dropped s t 5)
    ∧ (inBundle l = true → ∃ t, exec (.lossOfLock n) s = .next t ∧ dropped s t 6)
    ∧ (∀ k wire fec r u, k < 48 → portOf k = p → Arrives s k 4 wire fec r (toLE 8 (linkIndex n)) u → inBundle (getLink u n) = true →
        ∃ t, exec (.drop k wire fec) s = .next t ∧ dropped u t r)
    ∧ (l.st = .training → ∃ t, exec (.trainingFailed n) s = .next t ∧ (getLink t n).st = (if l.darkNext then .dark else .dropped)
        ∧ (getLink t n).reason = 4 ∧ (getLink t n).drops = min 4 (l.drops + 1) ∧ OnlyLink s t n ∧ { t with links := s.links } = s)
    ∧ (l.st = .dropped → l.stuck = false → l.loopback = none → ∃ t, exec (.dropRetrainTimer n) s = .next t ∧ (getLink t n).st = .training
        ∧ (getLink t n).mseq = 0 ∧ (getLink t n).drops = l.drops ∧ OnlyLink s t n ∧ { t with links := s.links } = s)
    ∧ (l.stuck = true → exec (.dropRetrainTimer n) s = .next s)
    ∧ exec (.dropAllowanceSpanEnd n) s = .next (setLink s n { l with drops := l.drops - 1 })
    ∧ (∀ k wire fec r u, k < 48 → portOf k = p → Arrives s k 5 wire fec r (toLE 8 (linkIndex n)) u → inBundle (getLink u n) = true →
        (getLink u n).leaving = false →
        exec (.leave k wire fec) s = .next (setLink u n { getLink u n with leaving := true, noLeave := true }))
    ∧ (inBundle l = true → l.leaving = true → l.kept = [] →
      (l.noLeave = true ∨ activeLinks s p ≠ [n] → ∃ t, exec (.linkLeaveBundle n) s = .next t
        ∧ (getLink t n).st = (if l.darkNext then .dark else .training) ∧ (getLink t n).leaving = false ∧ (getLink t n).drops = l.drops)
      ∧ (l.noLeave = false → l.told = false → activeLinks s p = [n] → ∃ t, exec (.linkLeaveBundle n) s = .next t
        ∧ (getLink t n).st = l.st ∧ (getLink t n).told = true ∧ (getLink t n).reps = l.reps ++ [(5, linkIndex n, 0, 2)]
        ∧ Sent s t n 5 0 l.mseq (toLE 8 (linkIndex n))))

/-- R268 to R272, R277, R278, R410, R421, R422, R435: a trained link challenges its peer; a challenge is answered with the identity record, but not by a
BLANK module; a record whose certificate, signature and challenge are valid and whose wiring and levels pass is accepted, and the link joins its bundle
once the peer has accepted too; a later record draws the verdict again; a refusal by either end quarantines it with the reason; messages are
repeated; a D link answers for its own address. -/
def Obligations.LinksIdentifyTheirPeers : Prop :=
  ∀ (s u : State) (n : Nat) (wire : List Byte) (fec : Bool),
    let l := getLink s n
    n < 48 →
    (l.st = .training → ∃ t, exec (.linkTrained n) s = .next t ∧ (getLink t n).st = .identify ∧ (getLink t n).chal.length = 16
        ∧ Sent s t n 1 0 l.mseq (getLink t n).chal ∧ (getLink t n).mseq = l.mseq + 1)
    ∧ (∀ r v, Arrives s n 1 wire fec r v u → speaks l = true → s.sec.lifecycle ≠ 0 →
        ∃ t, exec (.challenge n wire fec) s = .next t ∧ Sent u t n 2 0 l.mseq (identityRecord u n v) ∧ (getLink t n).mseq = l.mseq + 1)
    ∧ (∀ r v, Arrives s n 1 wire fec r v u → s.sec.lifecycle = 0 → exec (.challenge n wire fec) s = .next u)
    ∧ (∀ r0 r m, Arrives s n 2 wire fec r0 r u → l.st = .identify → l.ownOk = none → s.map = some m →
        let q := parsePeer r
        let reason := if recordValid r = false ∨ slice r 0x18 16 ≠ l.chal then 3 else if wiringOk s m n q = false then 1
          else if levelOk s n q = false then 2 else 0
        ∃ t, exec (.identity n wire fec) s = .next t ∧ (getLink t n).peer = some q ∧ (getLink t n).ownReason = reason
          ∧ Sent s t n 3 reason l.mseq (toLE 8 (if reason = 0 then 1 + min s.protoLevel q.level * 256 else 0))
          ∧ (reason ≠ 0 → (getLink t n).st = .quarantined ∧ (getLink t n).reason = reason)
          ∧ (reason = 0 → l.peerOk ≠ some true → (getLink t n).st = .identify)
          ∧ (reason = 0 → l.peerOk = some true → (getLink t n).st = (if s.power.st = .drawn then .keepalive else .active)
              ∧ (getLink t n).level = min s.protoLevel q.level ∧ (getLink t n).rxFseq = 4095))
    ∧ (∀ r0 r b, Arrives s n 2 wire fec r0 r u → speaks l = true → l.ownOk = some b → exec (.identity n wire fec) s
        = .next (sendVerdict (setLink u n { getLink u n with peer := some (parsePeer r) }) n))
    ∧ (∀ r v, Arrives s n 3 wire fec r v u → l.st = .identify →
        let ok := bitOf (w64 v 0) 0
        ∃ t, exec (.verdict n wire fec) s = .next t ∧ (getLink t n).peerOk = some ok
        ∧ (ok = false → (getLink t n).st = .quarantined ∧ (getLink t n).reason = if l.ownReason ≠ 0 then l.ownReason else r)
        ∧ (ok = true → (getLink t n).st = if l.ownOk = some true then (if s.power.st = .drawn then .keepalive else .active) else .identify))
    ∧ (∀ r v, Arrives s n 6 wire fec r v u → inBundle l = true → exec (.drawnIntent n wire fec) s
        = .next (setLPort u (portOf n) { getLPort u (portOf n) with intentIn := bitOf (w64 v 0) 0 }))
    ∧ (∀ ty i r k rest, inBundle l = true → l.told = false → l.reps = (ty, i, r, k) :: rest → ∃ t, exec (.linkControlRepeat n) s = .next t
        ∧ Sent s t n ty r l.mseq (toLE 8 i) ∧ (getLink t n).reps = if k ≤ 1 then rest else (ty, i, r, k - 1) :: rest)
    ∧ (l.st = .identify → l.reps = [] → l.peerOk = none → ∃ t, exec (.linkControlRepeat n) s = .next t ∧ Sent s t n 1 0 l.mseq l.chal
        ∧ (getLink t n).chal = l.chal)
    ∧ (∀ m, s.map = some m → isNet (portOf n) = true → l.st ≠ .dark →
        exec (.neighborSolicitation n (ownAddress m n)) s = .next (emit s (.neighborAdvert n))
        ∧ ∀ data, exec (.echoRequest n (ownAddress m n) data) s = .next (emit s (.echoReply n data)))

/-- R7, R268, R270, R271, R274 to R276, R279: MAP_LOAD, MAP_READ, LINK_STATUS and LINK_RETRAIN act on the links and their records as stated of each. -/
def Obligations.LinkChargesMapReadAndRetrain : Prop := Claims.MapLoadRemapsTheLinks ∧ Claims.LinkChargesReadAndRetrainLinks

/-! ## Collectives (R302 to R328) -/

namespace Sys2Proof.Claims

/-- The collective charges of R308 as (opcode, command). -/
def collRows (c q : Nat) : List (Nat × Instr) :=
  [(0x310, .allReduce c q {}), (0x311, .reduceScatter c q {}), (0x312, .allGather c q {}), (0x313, .allToAllV c q {}),
   (0x314, .broadcast c q {}), (0x315, .barrier c q)]

/-- A collective charge of a context runs as `k` in a phase: every item has started on a core that runs, nothing is lasting, no step of
its context is in progress, and what it sends goes to other modules. -/
def CollRuns (s : State) (c q op ph : Nat) (e : Entry) (k : Coll) : Prop :=
  let w := (getGroup s k.group).params
  let r := myRank s w
  let n := groupSize w
  fabricRuns s = true ∧ c < 1024 ∧ Sole s c q op e ∧ e.phase = ph ∧ ph ≠ 0 ∧ collOf s c q = some k ∧ k.opcode = op
    ∧ (∀ l ∈ groupCores w, k.started.contains l = true ∧ coreRuns s l = true) ∧ NoBad s ∧ (s.step.st = .idle ∨ s.step.ctx ≠ c)
    ∧ (∀ q < n, q ≠ r → ∀ d, hopCoord s k w d q ≠ ownCoord s) ∧ ∀ h, k.hop = some h → ∀ x, relayOf s k w x ≠ ownCoord s

/-- A member's running collective has heard both neighbours on every core. -/
def MemberRuns (s : State) (c q op ph : Nat) (e : Entry) (k : Coll) : Prop :=
  CollRuns s c q op ph e k ∧ k.relay = false ∧ collReady k (getGroup s k.group).params = true

/-- Every segment of the collective has landed, been granted, and left, on every core. -/
def AllMoved (s : State) (k : Coll) (e : Entry) : Prop :=
  let w := (getGroup s k.group).params
  ∀ p ∈ (groupCores w).zipIdx, ∀ d < 2, lookD 0 k.landed (2 * p.1 + d) = (inSegs s k w e p.2 d).length
    ∧ lookD 0 k.granted (2 * p.1 + d) = (inSegs s k w e p.2 d).length ∧ lookD 0 k.sent (2 * p.1 + d) = (outSegs s k w e p.2 d).length

/-- The collective has ended on this module with success and RESULT. -/
def CollEnded (s t : State) (c q : Nat) (k : Coll) (result : Nat) : Prop :=
  Reported t c q 0 result ∧ collOf t c q = none
    ∧ ∀ l ∈ groupCores (getGroup s k.group).params, ∀ r, (getCore t l).run = some r → ofCharge c q r.item = false

/-- The RESULT of digest records (R321). -/
def digestsOf (rs : List DigestRec) : Nat := (foldDigests (rs.map (fun r => r.2.2.2.2.1))).toNat

/-- Memory holds these bytes from an address on, and outside them what it held. -/
def MemWritten (s t : State) (a : Nat) (d : List Byte) : Prop :=
  memB t a d.length = d ∧ ∀ i, i < a ∨ a + d.length ≤ i → memB t i 1 = memB s i 1

/-- The shots of a message of the Afiup in the hub, on the mirror queue's way or not. -/
def hubMsg (s : State) (coord : Nat) (mirror : Bool) (head data : List Byte) : List Shot :=
  (afiupShots coord mirror head data).map (fun x => { x with epoch := s.route.epoch })

/-- The hub holds what it held, and then these shots of the Afiup. -/
def HubSent (s t : State) (xs : List Shot) : Prop := (getLPort t 10).inbuf = (getLPort s 10).inbuf ++ xs

/-- A line has landed in a mailbox of the group of the collective `k` that runs on core `l`: its bytes, and the state once the library has
taken it. -/
def Landed (s : State) (l box : Nat) (k : Coll) (b : List Byte) (u : State) : Prop :=
  let w := (getGroup s k.group).params
  let g := coreGroup s l k.group
  let m := lookD 0 g.took box
  let r := getRiser s l (boxRiser w box)
  collOn s l = some k ∧ coreRuns s l = true ∧ NoBad s ∧ r.cur ≠ 0 ∧ b = bytesAt s (winAddr l (boxBase w box + 64 * (m % 128))) 64
    ∧ u = modCore (setRiser s l (boxRiser w box) r.granted) l (fun x =>
        { x with groups := tput x.groups k.group { g with took := tput g.took box (m + 1) } })

/-- The rows that take the next line of a mailbox, by CTYPE. -/
def lineRows (l box : Nat) : List (Nat × Instr) :=
  [(1, .ready l box {}), (2, .grant l box {}), (3, .count l box {}), (4, .digest l box {}), (5, .finish l box {})]

/-- The collective is gone from this member: its group's definition is withdrawn on every core, and its items stop. -/
def Gone (t : State) (k : Coll) : Prop :=
  (∀ x ∈ t.colls, ¬(x.ctx = k.ctx ∧ x.cseq = k.cseq)) ∧ getGroup t k.group = {}
    ∧ ∀ m, coreGroup t m k.group = {} ∧ ∀ y, (getCore t m).run = some y → ofCharge k.ctx k.cseq y.item = true → y.stopping = true

end Sys2Proof.Claims

/-- R304, R305: a valid GROUP_DEFINE places an item on every bound core; the first item to start writes what the hub knows of the group, with sequence
number 0; each item writes the group's entry of its own core, resetting the 32 risers and the working area, or, on a core that the mask does not
name, clears it. R303, R309: a valid collective charge takes the group's next sequence number and places one item on each core of the group; the item
that starts joins the collective. A charge that fails a check reports its status and places nothing. -/
def Obligations.GroupsAreDefinedAndCollectivesPlaced : Prop :=
  ∀ (s : State) (c q : Nat) (e : Entry), fabricRuns s = true →
    (Sole s c q 0x300 e → e.st ≠ .abortPending → e.phase = 0 → inTurn s c q = true →
      if groupStatus s e = 0 then ∃ t, exec (.groupDefine c q) s = .next t
        ∧ Placed s t c (boundCores s) e (fun _ => { kind := .groupDefine, ctx := c, cseq := q, entry := fld (pw e 0x10) 7 0 })
      else exec (.groupDefine c q) s = .next (report s c q (groupStatus s e) 0))
    ∧ (∀ l i, Sole s c q 0x300 e → itemReady s l = some i → i.kind = .groupDefine → ofCharge c q i = true →
      let w := groupWords e
      let named := (namedCores e).contains l
      ∃ t, exec (.workQueueItemStart l) s = .next t ∧ (e.phase = 1 → getGroup t i.entry = newGroup w) ∧ (getCore t l).run = none
        ∧ (∀ g, coreGroup t l g = if g = i.entry then (if named then newGroup w else {}) else coreGroup s l g)
        ∧ (∀ k, getRiser t l k = if named = true ∧ groupRiser w ≤ k ∧ k < groupRiser w + 32 then {} else getRiser s l k)
        ∧ (∀ a, tget 0 (getCore t l).scratch a = if named = true ∧ groupArea w ≤ a ∧ a < groupArea w + 262144 then 0 else tget 0 (getCore s l).scratch a)
        ∧ t.mem = s.mem ∧ ∀ m, m ≠ l → getCore t m = getCore s m)
    ∧ (∀ row ∈ collRows c q, Sole s c q row.1 e → e.st ≠ .abortPending → e.phase = 0 → inTurn s c q = true → c < 1024 →
      if collStatus s c e = 0 then
        (∀ x ∈ s.ends, ¬(x.1 = (getGroup s (cGroup e)).hash ∧ x.2.1 = cSeq e)) →
        ∃ t, exec row.2 s = .next t ∧ Placed s t c (groupCores (getGroup s (cGroup e)).params) e
            (fun _ => { kind := .collective, ctx := c, cseq := q, entry := cGroup e })
          ∧ t.colls = s.colls ++ [newColl c q e] ∧ (getGroup t (cGroup e)).nextSeq = ((getGroup s (cGroup e)).nextSeq + 1) % 2 ^ 32
      else exec row.2 s = .next (report s c q (collStatus s c e) 0))
    ∧ (∀ l i k, itemReady s l = some i → i.kind = .collective → ofCharge c q i = true → collOf s c q = some k → s.mail = [] →
      let w := (getGroup s k.group).params
      (k.relay = true ∨ groupSize w ≤ 1
        ∨ ∀ x ∈ [ringPrev w (myRank s w), ringNext w (myRank s w)], ∀ d, hopCoord s k w d x ≠ ownCoord s) →
      ∃ t, exec (.workQueueItemStart l) s = .next t ∧ { k with started := insNat k.started l } ∈ t.colls
        ∧ (getCore t l).run = some { item := i, cores := (boundCores s).length } ∧ (getCore t l).dirtyColl = false ∧ t.mem = s.mem)

/-- R313, R315, R316, R319, R321, R327: once every segment has landed and left, ALL_GATHER writes every member's block, in the order of the ranks, BROADCAST the
root's bytes, ALL_REDUCE every chunk, formed in canonical order, and REDUCE_SCATTER this member's chunk, which it reports to the other members, to end once
every owner has reported; ALL_TO_ALL_V sends its counts, writes those that it receives, and writes the tokens by source; BARRIER writes nothing. Each ends
with the fold of its digests. A relay ends when both members that it serves have finished. -/
def Obligations.CollectivesWriteTheirResults : Prop :=
  ∀ (s : State) (c q : Nat) (e : Entry) (k : Coll),
    let w := (getGroup s k.group).params
    let n := groupSize w
    let r := myRank s w
    let src := cSrc e
    let dst := cDst e
    let cnt := cCount e
    (MemberRuns s c q 0x312 1 e k → AllMoved s k e →
      let bs := (List.range n).map (fun b =>
        (b, if b = r then memB s src cnt else landedBlock s k w e ((r + 2 * n - 1 - b) % n) ((b + 2 * n - 1 - r) % n)))
      ∃ t, exec (.allGather c q {}) s = .next t ∧ CollEnded s t c q k (digestsOf (gatherRecs s k bs))
        ∧ MemWritten s t dst (bs.flatMap Prod.snd)
        ∧ ((∀ b ∈ bs, b.2.length = cnt) → ∀ b ∈ bs, memB t (dst + b.1 * cnt) cnt = b.2))
    ∧ (MemberRuns s c q 0x314 1 e k → AllMoved s k e →
      let b := if r = cRoot e then memB s src cnt else landedBlock s k w e 0 0
      ∃ t, exec (.broadcast c q {}) s = .next t ∧ CollEnded s t c q k (digestsOf (gatherRecs s k [(cRoot e, b)])) ∧ MemWritten s t dst b)
    ∧ (MemberRuns s c q 0x315 1 e k → AllMoved s k e → ∃ t, exec (.barrier c q) s = .next t ∧ CollEnded s t c q k 0 ∧ t.mem = s.mem)
    ∧ (MemberRuns s c q 0x310 1 e k → AllMoved s k e →
      let cs := (List.range n).map (resultChunk s k w e)
      ∃ t, exec (.allReduce c q {}) s = .next t
        ∧ CollEnded s t c q k (digestsOf (cs.zipIdx.flatMap (fun d => chunkRecs s k e d.2 0 d.1))) ∧ MemWritten s t dst cs.flatten)
    ∧ (MemberRuns s c q 0x311 1 e k → AllMoved s k e →
      let d := resultChunk s k w e r
      ∃ t, exec (.reduceScatter c q {}) s = .next t ∧ MemWritten s t dst d ∧ { e with phase := 2 } ∈ (getCtx t c).entries
        ∧ ∀ x ∈ chunkRecs s k e r 0 d, ∃ y ∈ t.colls, (x.1, x.2.2.1, x.2.2.2.2.1, x.2.2.2.2.2) ∈ y.owners)
    ∧ (∀ rs, MemberRuns s c q 0x311 2 e k → scatterRecs s k w = some rs →
      ∃ t, exec (.reduceScatter c q {}) s = .next t ∧ CollEnded s t c q k (digestsOf rs) ∧ t.mem = s.mem)
    ∧ (MemberRuns s c q 0x313 1 e k →
      let sends := countList (memB s (cSendCounts e) (4 * n)) n
      sends.sum = 0 ∨ inMem s src (cToken e * sends.sum) = true →
      ∃ t, exec (.allToAllV c q {}) s = .next t ∧ t.mem = s.mem ∧ { e with phase := 2 } ∈ (getCtx t c).entries
        ∧ { k with sends := sends, counts := tput k.counts r (sends.getD r 0) } ∈ t.colls)
    ∧ (MemberRuns s c q 0x313 2 e k → (∀ m < n, ∃ x ∈ k.counts, x.1 = m) → (recvCounts k w).sum ≤ cCap e →
      ∃ t, exec (.allToAllV c q {}) s = .next t ∧ MemWritten s t (cRecvCounts e) ((recvCounts k w).flatMap (toLE 4))
        ∧ { e with phase := 3 } ∈ (getCtx t c).entries)
    ∧ (MemberRuns s c q 0x313 3 e k → AllMoved s k e →
      let got := fun m => if m = r then tokensFor s k e r else tokensFrom s k w e m
      ∃ t res, exec (.allToAllV c q {}) s = .next t ∧ CollEnded s t c q k res ∧ MemWritten s t dst ((List.range n).flatMap got))
    ∧ (∀ row ∈ collRows c q, ∀ h, CollRuns s c q row.1 1 e k → k.relay = true → k.hop = some h → h ∈ k.finishes → (h + 1) % n ∈ k.finishes →
      ∃ t, exec row.2 s = .next t ∧ CollEnded s t c q k 0 ∧ t.mem = s.mem)

/-- R310, R316 to R318, R321, R323, R324, R326, R327: the library takes the lines of its mailboxes in order. A READY line that agrees is noted beside its
neighbour, one that differs, or a line of no defined form, ends the collective; grants, counts, digests and finishes of the running
collective are noted, those of another one wait. The first end message of a collective is kept, stops it, withdraws its group, and goes on round the
ring; further copies are dropped. A stalled collective ends itself and tells both neighbours. -/
def Obligations.CollectiveMessagesAndEndsReachTheMember : Prop :=
  ∀ (s : State) (l box : Nat) (k : Coll) (e : Entry) (b : List Byte) (u : State),
    let w := (getGroup s k.group).params
    let h := (getGroup s k.group).hash
    let r := myRank s w
    let line := readLine b
    (∀ row ∈ lineRows l box, collOn s l = none → exec row.2 s = .next s)
    ∧ (Landed s l box k b u →
      (lineDefined b = false → ∀ row ∈ lineRows l box, ∃ t, exec row.2 s = .next t ∧ Gone t k)
      ∧ (lineDefined b = true → lineType b = 1 → collEntry s k = some e →
        let later := decide (line.collSeq ≠ k.collSeq) && k.readyIn.contains (l, box)
        (later = true → exec (.ready l box {}) s = .next { u with mail := u.mail ++ [(l, 8 * box + 1, line)] })
        ∧ (later = false → lineShape line ≠ lineShape (readyLine s k e) → ∃ t, exec (.ready l box {}) s = .next t ∧ Gone t k)
        ∧ (lineShape line = lineShape (readyLine s k e) → line.collSeq = k.collSeq →
          let v := modColl u k (fun x => { x with readyIn := x.readyIn ++ [(l, box)] })
          exec (.ready l box {}) s = .next (if k.relay = true ∧ k.hop.isSome = true then mailTo v k l (relayCoord v k w box) box box 1 line else v)))
      ∧ (lineDefined b = true → ∀ row ∈ lineRows l box, lineType b = row.1 → row.1 ≠ 1 → ofColl s k line = false →
        exec row.2 s = .next { u with mail := u.mail ++ [(l, 8 * box + row.1, line)] })
      ∧ (lineDefined b = true → ofColl s k line = true →
        (lineType b = 2 → exec (.grant l box {}) s
          = .next (modColl u k (fun x => { x with grants := x.grants ++ [(l, line.w10 % 4, line.w10 / 2 ^ 32 % 2 ^ 32)] })))
        ∧ (lineType b = 3 → k.relay = false → exec (.count l box {}) s
          = .next (if line.w10 / 2 ^ 16 % 2 ^ 14 = r
              then modColl u k (fun x => { x with counts := tput x.counts (line.w10 % 2 ^ 14) (line.w10 / 2 ^ 32 % 2 ^ 32) }) else u))
        ∧ (lineType b = 4 → k.relay = false → exec (.digest l box {}) s
          = .next (modColl u k (fun x => { x with owners := x.owners
              ++ [(line.w18 % 2 ^ 14, line.w18 / 2 ^ 14 % 2 ^ 7, BitVec.ofNat 64 line.w10, line.w18 / 2 ^ 21 % 2 ^ 39)] })))
        ∧ (lineType b = 3 → k.relay = true → exec (.count l box {}) s = .next (passOn
            (modColl u k (fun x => { x with counts := tput x.counts (line.w10 % 2 ^ 14) (line.w10 / 2 ^ 32 % 2 ^ 32) })) k l box 3 line))
        ∧ (lineType b = 4 → k.relay = true → exec (.digest l box {}) s = .next (passOn u k l box 4 line))
        ∧ (lineType b = 5 → exec (.finish l box {}) s = .next (modColl u k (fun x => { x with finishes := insNat x.finishes (line.w10 % 2 ^ 14) })))))
    ∧ (∀ st o d, st < 2 ^ 16 → o < 2 ^ 14 → d < 2 → k.group < 256 → k.collSeq < 2 ^ 32 → hubUp s = true →
      let p := endPayload st k.group k.collSeq o d h
      if s.ends.any (fun x => x.1 = h && x.2.1 = k.collSeq) = true then exec (.collEndMessage p) s = .next s
      else ∃ t, exec (.collEndMessage p) s = .next t ∧ (h, k.collSeq, st, o) ∈ t.ends
        ∧ (s.colls.find? (fun x => x.group = k.group && x.collSeq = k.collSeq && (getGroup s x.group).hash = h && x.ctx ≠ replayCtx) = some k → Gone t k)
        ∧ ((getGroup s k.group).defined = true → groupRelay w = false →
          let nx := if d = 0 then ringNext w r else ringPrev w r
          HubSent s t (if nx = o ∨ nx = r then [] else hubMsg s (coordOfRank s w nx) false p [])))
    ∧ (collOf s k.ctx k.cseq = some k → k.started ≠ [] → s.fence.restarting = false → k.ctx ≠ replayCtx →
      let st := if k.portDown then Status.linkLost else Status.collStalled
      ∃ t, exec (.collStalled k.ctx k.cseq) s = .next t ∧ Gone t k
        ∧ (k.relay = false → k.hop = none → 1 < groupSize w → HubSent s t (
            hubMsg s (coordOfRank s w (ringNext w r)) false (endPayload st k.group k.collSeq r 0 h) []
            ++ hubMsg s (coordOfRank s w (ringPrev w r)) false (endPayload st k.group k.collSeq r 1 h) []))
        ∧ (Sole s k.ctx k.cseq k.opcode e → e.st ≠ .abortPending → ∃ y ∈ (getCtx t k.ctx).entries, y.cseq = k.cseq ∧ y.status = st))

/-! ## Shots and routing (R252 to R299) -/

namespace Sys2Proof.Claims

/-- Nothing has changed outside the cores but the journal, and no core but one. -/
def OnlyCore (s t : State) (l : Nat) : Prop :=
  (∀ k, k ≠ l → getCore t k = getCore s k) ∧ t.mem = s.mem ∧ t.ctxs = s.ctxs ∧ t.links = s.links ∧ t.lports = s.lports

/-- A data shot of its type fits the open transfer of its flow at a core that takes shots: context, line and length. -/
def Fits (s : State) (l typ : Nat) (sh : Shot) (x : Flow) : Prop :=
  writerRuns s l = true ∧ (getCore s l).spBad = [] ∧ sh.typ = typ ∧ getFlow s l sh.flow = x ∧ x.st = 1 ∧ shotFits x sh = true

/-- The flow context after a shot has been written (R257). -/
def flowAfter (x : Flow) (sh : Shot) : Flow := if sh.last then {} else { x with got := x.got + 1 }

/-- The shot carries no signal. -/
def NoSignal (sh : Shot) : Prop := sh.last = false ∨ sh.rcarry = false

end Sys2Proof.Claims

/-- R190 to R192, R198, R255 to R257, R259: an OPEN opens its flow context, or is refused while another source holds it; a fitting WRITE stores the bytes of its
line and no others; ATOMIC and ATOMIC_SAT add eight words; ENTRY appends to a remote runner; each advances the flow. A shot that does not fit, or a
region that refuses it, leaves the scratchpad as it was and faults the flow. -/
def Sys2Proof.Claims.ShotsWriteTheirLines : Prop :=
  ∀ (s : State) (l : Nat) (sh : Shot) (x : Flow), getFlow s l sh.flow = x →
    let a := (nextLine x).2.1
    let n := (nextLine x).2.2 - a
    let line := (nextLine x).1
    let r := openRecord sh.payload
    let may : Kind → Nat → Nat → Prop := fun k b m => b + m ≤ spSize ∧ firstRefused (getCore s l).regionL 8 k [(b, m)] = none
    (sh.typ = 0 → writerRuns s l = true → x.st ≠ 1 → ∃ t, exec (.openFlow l sh) s = .next t ∧ getFlow t l sh.flow = r ∧ r.st = 1
        ∧ (getCore t l).scratch = (getCore s l).scratch ∧ OnlyCore s t l)
    ∧ (sh.typ = 0 → writerRuns s l = true → x.st = 1 → (x.srcCoord ≠ r.srcCoord ∨ x.srcCore ≠ r.srcCore ∨ x.srcMover ≠ r.srcMover) →
        ∃ t, exec (.openFlow l sh) s = .next t ∧ getFlow t l sh.flow = x ∧ t.cores = s.cores)
    ∧ (Fits s l 1 sh x → NoSignal sh → may .wr a n → ∃ t, exec (.write l sh {}) s = .next t ∧ getFlow t l sh.flow = flowAfter x sh
        ∧ spB t l a n = slice sh.payload (a - line) n ∧ SameScratchBut (getCore s l) (getCore t l) a n ∧ OnlyCore s t l)
    ∧ (∀ row ∈ ([(2, .atomic l sh {}, fun o b => (o + b) % 2 ^ 64),
          (3, .atomicSat l sh {}, fun o b => ((max (-2 ^ 63) (min (2 ^ 63 - 1) (sext 64 o + sext 64 b))) % 2 ^ 64 : Int).toNat)] :
          List (Nat × Instr × (Nat → Nat → Nat))),
        Fits s l row.1 sh x → NoSignal sh → may .atom line 64 → line % 8 = 0 → ∃ t, exec row.2.1 s = .next t
          ∧ getFlow t l sh.flow = flowAfter x sh ∧ SameScratchBut (getCore s l) (getCore t l) line 64 ∧ OnlyCore s t l
          ∧ ∀ i, i < 8 → leNat (spB t l (line + 8 * i) 8) = row.2.2 (leNat (spB s l (line + 8 * i) 8)) (w64 sh.payload (8 * i)))
    ∧ (Fits s l 4 sh x → NoSignal sh → (getRunner s l x.runner).enabled = true → cfgRemote (getRunner s l x.runner).cfg.toNat = true →
        (getRunner s l x.runner).canPush = true → (getRunner s l x.runner).isSpill = false →
        ∃ t, exec (.entry l sh false) s = .next t ∧ getFlow t l sh.flow = flowAfter x sh ∧ OnlyCore s t l
          ∧ (let q := getRunner s l x.runner
             getRunner t l x.runner = { q with wp := (q.wp + 1) % 2 ^ (q.ptrLog + 1) } ∧ spB t l (q.slot q.wp) 64 = slice sh.payload 0 64))
    ∧ (∀ row ∈ ([(1, .write l sh {}), (2, .atomic l sh {}), (3, .atomicSat l sh {}), (4, .entry l sh false)] : List (Nat × Instr)),
        sh.typ = row.1 → writerRuns s l = true →
        (x.st ≠ 1 → exec row.2 s = .next s)
        ∧ (x.st = 1 → shotFits x sh = false → ∃ t, exec row.2 s = .next t ∧ getFlow t l sh.flow = { x with st := 2 }
            ∧ (getCore t l).scratch = (getCore s l).scratch ∧ t.mem = s.mem))

/-- R229, R259, R325: a negative acknowledgement for a launch that still runs traps its core, at the instruction that dispatched the transfer or
with the descriptor that sends it; one for a collective ends that; once the launch has ended, one record remains and nothing else changes. -/
def Sys2Proof.Claims.NackStopsTheSendingLaunch : Prop :=
  ∀ (s : State) (l : Nat) (sh : Shot),
    let w := w64 sh.payload 0
    let m := w / 2 ^ 24 % 4
    let flow := w / 2 ^ 38 % 2 ^ 10
    let st := w / 2 ^ 48
    let by_ := w / 2 ^ 3 % 2 ^ 14
    let x := getCore s l
    let u := bumpCore s l 28 1
    sh.typ = 8 → writerRuns s l = true →
    (∀ k, collOfFlow s l flow = some k → exec (.nack l sh) s = .next
        (if st = Status.routeUnreachable then originEnd u k Status.linkLost Status.linkLost else collTrap u k l st by_))
    ∧ (collOfFlow s l flow = none →
      (x.run = none → ∃ t, exec (.nack l sh) s = .next t ∧ { t with tel := s.tel } = s ∧ s.tel.eseq < t.tel.eseq)
      ∧ (∀ j r, (getEngine x (m + 3)).job = some j → x.run = some r → mKind j.desc = 2 ∨ mKind j.desc = 3 ∨ mKind j.desc = 4 → mFlow j.desc = flow →
          3 ≤ j.stage → exec (.nack l sh) s = .next (engineTrap u l (m + 3) st by_ false))
      ∧ (∀ r pc c q, x.run = some r → (getEngine x (m + 3)).job = none → tget (0, 0, 0) x.sends (1024 * m + flow) = (pc, c, q) →
          ofCharge c q r.item = true → r.item.kind = .launch → r.stopped = false → c < 1024 →
          (∃ e, Sole s c q 0x210 e) → ∃ t, exec (.nack l sh) s = .next t ∧ s.tel.eseq < t.tel.eseq
            ∧ (∃ e' ∈ (getCtx t c).entries, e'.cseq = q ∧ (l, st, pc) ∈ e'.traps)
            ∧ ∀ k y, (getCore t k).run = some y → ofCharge c q y.item = true → y.stopping = true ∨ (k = l ∧ y.stopped = true)))

/-- R26, R253, R264, R283 to R289, R298: the oldest shot of a lane of an input buffer that may leave it does. One for a core of this module reaches it,
and its credit is owed; it is held with its credit while its core is being rebound, and dropped when no core takes it. One for another module goes
to the queue of the port that the tables name, with the lane of R285, or straight into a frame; a multicast one reaches every core that its tree names. One that
cannot be routed is discarded and counted by reason. -/
def Obligations.RouterMovesTheOldestShot : Prop :=
  ∀ (s : State) (p : Nat) (x : Shot), p < 10 → s.boot.off = false → s.boot.shutdown = false → s.route.old = none →
    (headsOf s p).find? (mayLeave s p) = some x → (∀ h ∈ s.route.heldShots, h.key ≠ s.route.holds + 1) →
    let left : State → Prop := fun t => (getLPort t p).inbuf = (getLPort s p).inbuf.erase x ∧ t.mem = s.mem ∧ t.cores = s.cores
    let took : State → Prop := fun t => left t ∧ lookD 0 (getLPort t p).owed x.vl = lookD 0 (getLPort s p).owed x.vl + 1
    (hopOf s p x = .toDie →
      (x.typ = 9 → ∃ t, exec (.shotForward p) s = .next t ∧ took t ∧ t.out = .local_ x :: s.out)
      ∧ (x.typ ≠ 9 → coreGone s x.core = false → coreHeld s x.core = false →
          ∃ t, exec (.shotForward p) s = .next t ∧ took t ∧ t.out = .local_ x :: s.out)
      ∧ (x.typ ≠ 9 → coreGone s x.core = false → coreHeld s x.core = true →
          ∃ t, exec (.shotForward p) s = .next t ∧ left t ∧ (getLPort t p).owed = (getLPort s p).owed ∧ t.out = s.out
            ∧ t.route.heldShots = s.route.heldShots ++ [{ shot := x, port := p, lane := x.vl, key := s.route.holds + 1 }])
      ∧ (x.typ ≠ 9 → coreGone s x.core = true → ∃ t, exec (.shotForward p) s = .next t ∧ took t ∧ t.out = s.out))
    ∧ (∀ o, hopOf s p x = .out o → o ≠ p → x.replay = false → x.mcast = false → x.mirror = false → x.vl < 4 →
      let y := { x with vl := laneOf s p o x }
      (nextLink s o = none → ∃ t, exec (.shotForward p) s = .next t ∧ took t ∧ (getLPort t o).outq = (getLPort s o).outq ++ [y] ∧ t.out = s.out)
      ∧ (∀ n, nextLink s o = some n → Quiet s o → bseqSpan s o < 1024 → s.power.st ≠ .drawn →
        ∃ t f, exec (.shotForward p) s = .next t ∧ took t ∧ (getLPort t o).outq = [] ∧ t.out = .frame n f :: s.out
          ∧ (getLink t n).kept = (getLink s n).kept ++ [{ fseq := (getLink s n).txFseq, bseq := (getLPort s o).txBseq, shots := [y] }]))
    ∧ (∀ ls, hopOf s p x = .copies [] ls → (∀ l ∈ ls, coreGone s l = false ∧ coreHeld s l = false) →
      ∃ t, exec (.shotForward p) s = .next t ∧ took t ∧ t.out = (ls.map (fun l => Output.local_ { x with core := l })).reverse ++ s.out)
    ∧ (∀ reason st, hopOf s p x = .discard reason st → x.replay = false → x.typ ≠ 0 →
      ∃ t, exec (.shotForward p) s = .next t ∧ took t ∧ t.out = s.out ∧ counterOf t 0 (5 + reason) = (counterOf s 0 (5 + reason)).addN 1)

/-- R290, R291, R293 to R296, R299: a valid table becomes the next one; a switch makes it current under the next epoch, keeps the old one until it is drained,
and reports at once or, when asked to wait, once that is done; a charge out of order, or while an old epoch drains, is refused; DRAIN shots record and
report what is drained; a valid tree entry is written. -/
def Obligations.RouteChargesChangeTheTables : Prop :=
  ∀ (s : State) (c q : Nat) (e : Entry),
    let next := (s.route.epoch + 1) % 4
    (running s c q 0x510 = some e → exec (.routeTableLoad c q) s = .next (
      if routeTabOk s e = false then report s c q Status.routeTableInvalid 0
      else if fld (pw e 0) 33 32 ≠ next then report s c q Status.routeEpochOrder 0
      else if s.route.old ≠ none then report s c q Status.routeEpochBusy 0
      else report { s with route := { s.route with next := some (routeTabOf e) } } c q 0 0))
    ∧ (∀ tab, running s c q 0x511 = some e → e.phase = 0 → s.route.old = none → s.route.waitDrain = none → s.route.next = some tab →
      tailZero e 8 = true → tab.version < 2 ^ 32 →
      let switched : State → Prop := fun t => t.route.epoch = next ∧ t.route.cur = tab ∧ t.route.next = none
        ∧ (t.route.old = some (s.route.epoch, s.route.cur) ∨ t.route.old = none) ∧ ∀ p, p < 10 → (getLPort t p).steady = portUp s p
      (pw e 0 = tab.version → ∃ t, exec (.routeEpochSwitch c q) s = .next t ∧ switched t ∧ Reports s t c q 0 next)
      ∧ (pw e 0 = tab.version + 2 ^ 32 → Sole s c q 0x511 e → c < 1024 → ∃ t, exec (.routeEpochSwitch c q) s = .next t ∧ switched t
        ∧ (t.route.old = none → Reported t c q 0 next)
        ∧ (t.route.old ≠ none → { e with phase := 1 } ∈ (getCtx t c).entries ∧ t.route.waitDrain = some (c, q))))
    ∧ (∀ tab, running s c q 0x511 = some e → e.phase = 0 → tailZero e 8 = true → pw e 0 < 2 ^ 32 → s.route.next = some tab →
      (tab.version ≠ pw e 0 → exec (.routeEpochSwitch c q) s = .next (report s c q Status.routeEpochOrder 0))
      ∧ (tab.version = pw e 0 → s.route.old ≠ none → exec (.routeEpochSwitch c q) s = .next (report s c q Status.routeEpochBusy 0)))
    ∧ (running s c q 0x520 = some e →
      if mcastOk s e then ∃ t, exec (.mcastTreeLoad c q) s = .next t ∧ Reports s t c q 0 0 ∧ { t with route := s.route, ctxs := s.ctxs } = s
        ∧ (t.route.mcast.find? (fun m => m.1 = pw e 0 % 256)) = (if bitOf (pw e 0) 8 then none
            else some (pw e 0 % 256, { inPort := fld (pw e 8) 3 0, outs := fld (pw e 8) 25 16, cores := pw e 0x10 + pw e 0x18 * 2 ^ 64 }))
        ∧ ∀ k, k ≠ pw e 0 % 256 → t.route.mcast.find? (fun m => m.1 = k) = s.route.mcast.find? (fun m => m.1 = k)
      else exec (.mcastTreeLoad c q) s = .next (report s c q Status.mcastTreeInvalid 0))
    ∧ (∀ p (x : Shot), p < 10 → x.typ = 10 → x ∈ (getLPort s p).inbuf → s.route.old = none →
      let b := (x.payload.headD 0).toNat
      ∃ t, exec (.drain p x) s = .next t ∧ (getLPort t p).inbuf = (getLPort s p).inbuf.erase x
        ∧ ∀ v, v < 4 → bitOf b v = true → 64 * (b / 16 % 4) + 4 * p + v ∈ t.route.drainIn)
    ∧ (∀ p ep tab, p < 10 → s.route.old = some (ep, tab) → drainDue s ep p ≠ [] → allDrained s ep = false →
      ∃ t, exec (.drainEmit p) s = .next t ∧ t.route.drainSent = s.route.drainSent ++ (drainDue s ep p).map (fun v => 4 * p + v)
        ∧ (nextLink s p = none → ∃ x, (getLPort t p).outq = (getLPort s p).outq ++ [x] ∧ x.typ = 10 ∧ x.epoch = ep ∧ x.dest = neighbor s p
            ∧ x.payload = toLE 1 (((drainDue s ep p).map (fun v => 2 ^ v)).sum + 16 * ep) ++ List.replicate 63 0))

/-- R26, R190 to R192, R198, R229, R255 to R259, R325: shots open flows and write their lines at the core that they reach; a negative acknowledgement
stops the launch or the collective that sent. -/
def Obligations.ShotsArriveOrAreRefused : Prop := Claims.ShotsWriteTheirLines ∧ Claims.NackStopsTheSendingLaunch

/-! ## Steps, seals, rollbacks, replay and twins (R340 to R403) -/

namespace Sys2Proof.Claims

/-- A phase mark of a phase runs. -/
def Marks (s : State) (c q ph : Nat) (e : Entry) : Prop := Sole s c q 0x400 e ∧ mkPhase e = ph ∧ c < 1024

/-- Memory reads zero in a range. -/
def Zeroed (t : State) (a n : Nat) : Prop := ∀ i, a ≤ i → i < a + n → memB t i 1 = [0]

/-- The update items of a mark have one core, which runs its item, and no unit is lasting. -/
def OneCore (s : State) (c q l : Nat) : Prop := s.step.updCores = [l] ∧ runsItem s l c q = true ∧ s.poison = []

/-- The address of a chunk's ledger word. -/
def ledgerAddr (s : State) (i : Nat) : Nat := planLedger s s.step.updPlan + 8 * i

/-- A ledger word of the step. -/
def ledgerWord (s : State) (slot st : Nat) : Nat := s.step.step % 2 ^ 48 * 2 ^ 16 + slot * 2 ^ 4 + st

/-- A chunk-sized range meets neither the header of the update plan nor a ledger word. -/
def ClearOf (s : State) (a i : Nat) : Prop := overlaps a 65536 s.step.updPlan 64 = false ∧ overlaps a 65536 (ledgerAddr s i) 8 = false

/-- A SEAL has decided on a combined record: a full log, a divergence with its lowest group, or a sealed step, which is IDLE and becomes
the last sealed step. -/
def Decided (s t : State) (c q : Nat) (r : SealRec) : Prop :=
  (r.ovf = true → Reported t c q Status.digestLogFull 0 ∧ t.step.sealing = none ∧ t.mem = s.mem)
  ∧ (r.ovf = false → faultMask r ≠ 0 → Reported t c q Status.digestDiverged (lowestBit (faultMask r))
      ∧ t.step.st = .diverged ∧ t.step.divMask = faultMask r ∧ t.step.lastSealed = s.step.lastSealed ∧ t.mem = s.mem)
  ∧ (r.ovf = false → faultMask r = 0 → Reported t c q (if s.step.attempts = 1 then 0 else Status.stepRolledBack) s.step.attempts
      ∧ t.step.st = .idle ∧ t.step.lastSealed = some s.step.step)

/-- The shots of a mirror message in the hub. -/
def mirrorShots (s : State) (coord : Nat) (m : MirrorMsg) (data : List Byte) : List Shot := hubMsg s coord true (mirrorHead m) data

/-- The messages between Afiups, by `MKIND`: command, sender's coordinate, data. -/
def afiupRows (co : Nat) (head data : List Byte) : List (Nat × Instr × Nat × List Byte) :=
  [(1, .piece co head data, co, data), (2, .commit co head, co, []), (3, .ack co head, co, []), (4, .restoreReq co head, co, []),
   (5, .restoreEnd co head, co, []), (6, .fold head, 0, []), (7, .sealStage head data, 0, data)]

end Sys2Proof.Claims

/-- R340, R350, R351, R356 to R358, R400: an accepted FORWARD mark opens its step, loads the arithmetic registers that it carries and clears the statistics and
the stash reports; BACKWARD and EXCHANGE follow it in order, and report a spilled or an exhausted stash; a mark that fails a check, or has a
reserved phase, changes nothing. -/
def Obligations.PhaseMarksMoveTheStep : Prop :=
  ∀ (s : State) (c q : Nat) (e : Entry),
    let w := planWords s (mkPlan e)
    let fwd := firstFail (markChecks s c e [(mkPlan e, 64)] ++ [(planOk s (mkPlan e), Status.stashPlanInvalid)])
    let other := firstFail (markChecks s c e [(gw s.step.plan 7, 88 * 32)])
    (Marks s c q 0 e → libraryMoves s = false → if fwd = 0 then ∃ t, exec (.phaseMarkForward c q) s = .next t ∧ Reports s t c q 0 0 ∧ t.step.st = .forward
          ∧ t.step.ctx = c ∧ t.step.step = pw e 8 ∧ t.step.attempts = 1 ∧ t.step.plan = w ∧ t.step.log = [] ∧ t.step.lastSealed = s.step.lastSealed
          ∧ (if bitOf (pw e 0) 3 then t.seed = BitVec.ofNat 64 (pw e 0x10) ∧ t.astep = BitVec.ofNat 64 (pw e 8) ∧ t.thr = pw e 0x18 % 2 ^ 13
              else t.seed = s.seed ∧ t.astep = s.astep ∧ t.thr = s.thr)
          ∧ Zeroed t (gw w 5) (88 * 32768) ∧ Zeroed t (gw w 7) (88 * 32)
          ∧ (∀ i, (i < gw w 5 ∨ gw w 5 + 88 * 32768 ≤ i) → (i < gw w 7 ∨ gw w 7 + 88 * 32 ≤ i) → memB t i 1 = memB s i 1) ∧ t.cores = s.cores
        else exec (.phaseMarkForward c q) s = .next (report s c q fwd 0))
    ∧ (∀ ph, 3 < ph → Marks s c q ph e → libraryMoves s = false → exec (.phaseMarkForward c q) s = .next (report s c q Status.fieldReserved 0))
    ∧ ∀ row ∈ ([(1, .phaseMarkBackward c q, .backward), (2, .phaseMarkExchange c q, .exchange)] : List (Nat × Instr × StepSt)), Marks s c q row.1 e →
      (other ≠ 0 → exec row.2.1 s = .next (report s c q other 0))
      ∧ (other = 0 → reportAny s 2 = true → ∃ t, exec row.2.1 s = .next t ∧ Reports s t c q Status.stashExhausted 0
          ∧ t.step = { s.step with shortSeen := true } ∧ t.mem = s.mem)
      ∧ (other = 0 → reportAny s 2 = false → ∃ t, exec row.2.1 s = .next t ∧ t.mem = s.mem
          ∧ Reports s t c q (if reportAny s 1 = true ∧ s.step.spillSeen = false then Status.stashSpilled else 0) 0
          ∧ t.step = { s.step with st := row.2.2, spillSeen := s.step.spillSeen || reportAny s 1 })

/-- R365, R366, R368 to R370: an accepted UPDATE mark places an item on every bound core, at once or when the twin has acknowledged the last sealed
step; a twin that does not ends it before anything is written. Each core takes its chunks in order, a frozen one straight to FROZEN, and for
each: the chunk and its gradient are read, the chunk goes to an undo slot, its ledger entry becomes WRITING, the buffer is updated, then written, and the entry
becomes DONE; a chunk that is WRITING already is first brought back from its slot. With no item left the step is UPDATED and RESULT counts. -/
def Obligations.UpdateMarksRewriteTheStateChunkByChunk : Prop :=
  ∀ (s : State) (c q : Nat) (e : Entry), Marks s c q 3 e →
    let placed : State → Prop := fun t => t.mem = s.mem ∧ { e with items := boundCores s, phase := 1 } ∈ (getCtx t c).entries
        ∧ t.step.st = s.step.st ∧ t.step.updCores = boundCores s ∧ t.step.work = []
        ∧ ∀ l ∈ boundCores s, (getCore t l).queue ++ (getCore t l).hubItems
            = (getCore s l).queue ++ (getCore s l).hubItems ++ [{ kind := .update, ctx := c, cseq := q }]
    (e.phase = 0 → updStatus s c e ≠ 0 → exec (.phaseMarkUpdate c q) s = .next (report s c q (updStatus s c e) 0))
    ∧ (e.phase = 0 → updStatus s c e = 0 → ∃ t, exec (.phaseMarkUpdate c q) s = .next t ∧ t.mem = s.mem ∧ t.step.updPlan = pw e 0x20
        ∧ t.step.planHash = some (updHash s (pw e 0x20) (mkGs e)) ∧ t.step.updCtx = (c, q)
        ∧ if twinReady s = true then placed t else { e with phase := 3 } ∈ (getCtx t c).entries ∧ t.cores = s.cores)
    ∧ (e.phase = 3 → twinReady s = true → ∃ t, exec (.phaseMarkUpdate c q) s = .next t ∧ placed t)
    ∧ (e.phase = 3 → s.step.updCtx = (c, q) → exec .twinMirrorLagging s = .next (report s c q Status.twinMirrorLagging 0))
    ∧ (e.phase = 1 → e.items ≠ [] → ∀ l, OneCore s c q l →
      (s.step.work = [] → ∀ i x, nextChunk s 0 1 = some i → chunkAt (updRegions s) i = some x →
        let b := gradBytes (rgGfmt x.1)
        let grads := memB s (rgGrad x.1 + rgElems x.1 * x.2 * b) (chunkElems x * b)
        if frozenGroup s s.step.updPlan (rgGroup x.1) then
          ∃ t, exec (.phaseMarkUpdate c q) s = .next t ∧ MemWritten s t (ledgerAddr s i) (toLE 8 (ledgerWord s 0 3)) ∧ t.step = s.step
        else if (ledger s i).1 = 1 then
          let old := memB s (undoAddr s (ledger s i).2) 65536
          ∃ t, exec (.phaseMarkUpdate c q) s = .next t ∧ MemWritten s t (chunkAddr x) old
            ∧ t.step = { s.step with work := [{ chunk := i, buf := old, grads := grads }], wrote := true, touched := true }
        else ∃ t, exec (.phaseMarkUpdate c q) s = .next t ∧ t.mem = s.mem
            ∧ t.step = { s.step with work := [{ chunk := i, buf := memB s (chunkAddr x) 65536, grads := grads }] })
      ∧ (s.step.work = [] → nextChunk s 0 1 = none → ∃ t, exec (.phaseMarkUpdate c q) s = .next t ∧ (getCore t l).run = none ∧ t.mem = s.mem)
      ∧ (∀ y x, s.step.work = [y] → nextChunk s 0 1 = none → chunkAt (updRegions s) y.chunk = some x →
        ∃ t, exec (.phaseMarkUpdate c q) s = .next t
          ∧ (y.stage = 1 → ∃ slot, 8 * l ≤ slot ∧ slot < 8 * l + 8 ∧ MemWritten s t (undoAddr s slot) y.buf
              ∧ t.step = { s.step with work := [{ y with stage := 2, slot := slot }] })
          ∧ (y.stage = 2 → MemWritten s t (ledgerAddr s y.chunk) (toLE 8 (ledgerWord s y.slot 1)) ∧ t.step = { s.step with work := [{ y with stage := 3 }] })
          ∧ (y.stage = 3 →
            let b := gradBytes (rgGfmt x.1)
            let u := updateChunk (preparedRow s x.1) y.buf
              ((List.range (chunkElems x)).map (fun j => decodeNum (gradCode (rgGfmt x.1)) (wordAt y.grads (b * j) b)))
            t.mem = s.mem ∧ t.step = { s.step with work := [{ y with stage := 4, buf := u.1 }], nonfinite := s.step.nonfinite + u.2 })
          ∧ (y.stage = 4 → MemWritten s t (chunkAddr x) y.buf
              ∧ t.step = { s.step with work := [{ y with stage := 5 }], wrote := true, touched := true })
          ∧ (y.stage = 5 → MemWritten s t (ledgerAddr s y.chunk) (toLE 8 (ledgerWord s y.slot 2)) ∧ t.step = { s.step with work := [] })))
    ∧ (e.phase = 1 → e.items = [] → e.status = 0 → (∀ l ∈ s.step.updCores, runsItem s l c q = false) →
      let frozen := ((List.range (updChunks s)).filter (fun i => (ledger s i).1 = 3)).length
      ∃ t, exec (.phaseMarkUpdate c q) s = .next t ∧ t.step = { s.step with st := .updated } ∧ t.mem = s.mem
        ∧ Reports s t c q (if frozen = 0 then 0 else Status.frozenSkipped) (min frozen (2 ^ 32 - 1) * 2 ^ 32 + min s.step.nonfinite (2 ^ 32 - 1)))

/-- R371 to R375: a SEAL sends its folds to the successors of their rings; then its record begins the combination, which decides, on a group of one member at
once, and on a group of one axis when the record of every other member has been heard. Folds and records of other members are kept, each once, and a record
goes on round its ring; a seal that stalls reports the members counted. -/
def Obligations.SealsCombineTheMembersRecords : Prop :=
  ∀ (s : State) (c q : Nat) (e : Entry) (head data : List Byte),
    let g := getGroup s (fld (pw e 8) 7 0)
    let r := ownRecord s
    let m := readSeal head
    let h := getGroup s m.group
    (Sole s c q 0x401 e → e.phase = 0 → if sealStatus s c e = 0 then ∃ t, exec (.seal c q) s = .next t ∧ { e with phase := 1 } ∈ (getCtx t c).entries
          ∧ t.mem = s.mem ∧ t.step = s.step ∧ ∀ x ∈ foldedColls s, (getGroup s x.1).defined = true → 1 < groupSize (getGroup s x.1).params →
            let w := (getGroup s x.1).params
            ∀ z ∈ hubMsg s (coordOfRank s w (ringNext w (myRank s w))) false
              (sealHead { kind := 6, group := x.1, opcode := x.2.2, step := s.step.step, value := (ownFold s x.1 x.2.1).toNat
                          ghash := (getGroup s x.1).hash, collSeq := x.2.1, origin := myRank s w }) [], z ∈ (getLPort t 10).inbuf
        else exec (.seal c q) s = .next (report s c q (sealStatus s c e) 0))
    ∧ (Sole s c q 0x401 e → e.phase = 1 →
      (groupAxes g.params = [] → ∃ t, exec (.seal c q) s = .next t ∧ Decided s t c q r)
      ∧ ∀ a, groupAxes g.params = [a] → (heardRecs s g.params a s.step.step).all Option.isSome = true →
        ∃ t, exec (.seal c q) s = .next t ∧ Decided s t c q (((heardRecs s g.params a s.step.step).filterMap id).foldl combine r))
    ∧ (msgKind head = 6 → hubUp s = true → s.fence.restarting = false → h.defined = true → h.hash = m.ghash → m.opcode ≠ opAllToAllV →
      m.origin = ringPrev h.params (myRank s h.params) → s.step.step ≤ m.step →
      ∃ t, exec (.fold head) s = .next t ∧ { t with step := s.step } = s
        ∧ t.step.folds.filter (fun f => f.1 = m.step && f.2.1 = m.group && f.2.2.1 = m.collSeq) = [(m.step, m.group, m.collSeq, BitVec.ofNat 64 m.value)])
    ∧ (msgKind head = 7 → hubUp s = true → s.fence.restarting = false → h.defined = true → h.hash = m.ghash →
      (groupAxes h.params).contains m.axis = true → s.step.step ≤ m.step → s.step.sealing = none →
      let x := readRecord m data
      ∃ t, exec (.sealStage head data) s = .next t ∧ { t with step := s.step, lports := s.lports } = s
        ∧ t.step.stages.filter (fun y => y.1 = m.step && y.2.1 = m.axis && y.2.2.1 = m.origin) = [(m.step, m.axis, m.origin, x)]
        ∧ HubSent s t (if m.hops + 1 < (groupSpan h.params m.axis).2.1
            then hubMsg s (coordOfRank s h.params (axisNext s h.params m.axis)) false
              (sealHead { kind := 7, axis := m.axis, ovf := x.ovf, group := m.group, hops := m.hops + 1, step := m.step, value := x.members
                          ghash := h.hash, origin := m.origin, layers := x.layers.length }) (recordData x) else []))
    ∧ (∀ x, s.step.sealing = some x → x.done = false → ∃ n t, exec .sealStalled s = .next t ∧ Reports s t x.ctx x.cseq Status.sealStalled n ∧ x.own.members ≤ n
        ∧ t.step = { s.step with sealing := none } ∧ t.mem = s.mem)

/-- R376: REDO restores the collectively exchanged chunks from the mirror and returns to EXCHANGE with one more attempt; it needs a divergence that the exchange
covers and a twin. ABANDON of a step without an accepted UPDATE mark drops its log and is IDLE again. -/
def Obligations.RollbacksReturnToAnEarlierState : Prop :=
  ∀ (s : State) (c q : Nat) (e : Entry) (m : List Piece), running s c q 0x402 = some e →
    let xg := planXgroups s s.step.updPlan
    let cs := (allChunks s).filter (fun x => rgColl x.2.1)
    (bitOf (pw e 8) 0 = false →
      (rollbackStatus s c e ≠ 0 → exec (.rollbackRedo c q m) s = .next (report s c q (rollbackStatus s c e) 0))
      ∧ (rollbackStatus s c e = 0 → s.step.divMask &&& xg ≠ s.step.divMask → exec (.rollbackRedo c q m) s = .next (report s c q Status.rollbackNotCovered 0))
      ∧ (rollbackStatus s c e = 0 → s.step.divMask &&& xg = s.step.divMask →
          twinOf s = none ∨ (∃ x ∈ cs, mirrorOf m (chunkAddr x.2) = none) →
          exec (.rollbackRedo c q m) s = .next (report s c q Status.twinUnreachable 0))
      ∧ (rollbackStatus s c e = 0 → s.step.divMask &&& xg = s.step.divMask → (twinOf s).isSome = true →
          (∀ x ∈ cs, (mirrorOf m (chunkAddr x.2)).isSome = true) →
          ∃ t, exec (.rollbackRedo c q m) s = .next t ∧ Reports s t c q 0 (cs.length * 2 ^ 32) ∧ t.step.st = .exchange
            ∧ t.step.attempts = s.step.attempts + 1 ∧ t.step.divMask = 0 ∧ t.step.lastSealed = s.step.lastSealed ∧ t.step.wrote = false
            ∧ (cs = [] → t.mem = s.mem)
            ∧ ∀ x d, cs = [x] → mirrorOf m (chunkAddr x.2) = some d → s.poison = [] → ClearOf s (chunkAddr x.2) x.1 →
                memB t (chunkAddr x.2) 65536 = d ∧ memB t (ledgerAddr s x.1) 8 = toLE 8 (ledgerWord s 0 0)))
    ∧ (bitOf (pw e 8) 0 = true →
      (rollbackStatus s c e ≠ 0 → exec (.rollbackAbandon c q m) s = .next (report s c q (rollbackStatus s c e) 0))
      ∧ (rollbackStatus s c e = 0 → updateRuns s = false → s.step.planHash = none → s.step.sealing = none →
          ∃ t, exec (.rollbackAbandon c q m) s = .next t ∧ Reports s t c q 0 0 ∧ t.step.st = .idle ∧ t.step.log = [] ∧ t.step.logOvf = false
            ∧ t.step.lastSealed = s.step.lastSealed ∧ t.mem = s.mem ∧ t.cores = s.cores))

/-- R397, R401 to R403: a RUN loads the journalled registers and holds the journalled charges in its private context; it ends, when none is left on a core,
with its report written and the step state as it was; CAPTURE sets the next step's selection, and answers a reserved action; RESTORE asks the holder, or
finds none. -/
def Obligations.ReplayRunsCapturesAndRestores : Prop :=
  ∀ (s : State) (c q : Nat) (e : Entry) (n : Option (Nat × Nat)), Sole s c q 0x403 e → c < 1024 →
    (pw e 0 % 4 = 0 → e.phase = 0 → replaying s = false → ∀ j, journalOf s (pw e 8) = some j →
      if replayStatus s c e = 0 then ∃ t, exec (.replayRun c q n) s = .next t ∧ t.seed = j.seed ∧ t.astep = j.astep ∧ t.thr = j.thr
          ∧ t.journal.running = some (c, q) ∧ t.journal.saved = some s.step ∧ { e with phase := 1 } ∈ (getCtx t c).entries
          ∧ (getCtx t 1024).st = .opened ∧ (getCtx t 1024).entries = (replayed j).map asAccepted ∧ t.mem = s.mem ∧ t.cores = s.cores ∧ t.step = s.step
        else exec (.replayRun c q n) s = .next (report s c q (replayStatus s c e) 0))
    ∧ (pw e 0 % 4 = 0 → 2 ≤ e.phase → replayQuiet s = true → e.staged.length = 64 → s.poison = [] →
      let k := (e.staged.getD 12 0).toNat
      ∃ t, exec (.replayRun c q n) s = .next t ∧ MemWritten s t (pw e 0x10) e.staged ∧ t.journal.running = none
        ∧ t.step.st = (s.journal.saved.getD {}).st ∧ t.step.lastSealed = s.step.lastSealed
        ∧ Reports s t c q (if k = 0 then 0 else if k = 5 then Status.replayIncomplete else Status.replayDiverged)
            (if k = 0 then 0 else leNat ((e.staged.drop 8).take 4)))
    ∧ (pw e 0 % 4 = 1 → exec (.replayCapture c q) s = .next (if replayStatus s c e = 0 then
          report { s with journal := { s.journal with nextGroups := bitsOf 256 (leNat (slice e.params 0x20 32)), nextSends := bitOf (pw e 0) 2 } } c q 0 0
        else report s c q (replayStatus s c e) 0))
    ∧ (pw e 0 % 4 = 3 → exec (.replayCapture c q) s = .next (report s c q Status.fieldReserved 0))
    ∧ (pw e 0 % 4 = 2 → e.phase = 0 →
      (replayStatus s c e ≠ 0 → exec (.replayRestore c q) s = .next (report s c q (replayStatus s c e) 0))
      ∧ (replayStatus s c e = 0 → twinOf s = none → exec (.replayRestore c q) s = .next (report s c q Status.twinUnreachable 0))
      ∧ ∀ x, replayStatus s c e = 0 → twinOf s = some x → ∃ t, exec (.replayRestore c q) s = .next t
          ∧ HubSent s t (mirrorShots s x.2 { kind := 4, step := pw e 8, serial := s.ident.serial } [])
          ∧ t.twin.restore = some (c, q) ∧ t.twin.restored = [] ∧ { e with phase := 1 } ∈ (getCtx t c).entries ∧ t.mem = s.mem)

/-- R391 to R398: the holder of a mirror writes a right piece into its deep tier and commits a whole delta; it asks again for a wrong piece, answers a delta
that it has no image for with NO_IMAGE and discards its pieces, and turns another partner away, with a record at each end (how it tells a delta that needs an image,
and the form of its refusal, are the model's choice, log 44); an acknowledgement frees the sender; a restore request is answered with every piece of the
committed image, or with NO_IMAGE; a restore that has every piece ends with the committed step as the last sealed one, an incomplete one with
TWIN_MIRROR_CORRUPT, a silent holder with TWIN_UNREACHABLE. Messages that come during an Afiup restart are held. -/
def Obligations.TwinsMirrorAndRestore : Prop :=
  ∀ (s : State) (co : Nat) (head data : List Byte), hubUp s = true →
    let m := readMirror head
    let n := m.serial
    let kind := msgKind head
    let send : MirrorMsg → List Shot := fun x => mirrorShots s co x []
    let noImage := send { kind := 3, noImage := true, serial := n }
    let mine := s.twin.discarding = false ∧ (s.twin.committed.isSome = true ∨ s.twin.asked = true)
    (∀ row ∈ afiupRows co head data, kind = row.1 → s.fence.restarting = true →
      exec row.2.1 s = .next { s with fence := { s.fence with heldMsgs := s.fence.heldMsgs ++ [(row.2.2.1, head, row.2.2.2)] } })
    ∧ (s.fence.restarting = false → s.map.isSome = true →
      (kind = 1 → s.twin.restore = none → s.twin.bound = none ∨ s.twin.bound = some (co, n) →
        let ok := pieceOk s n m.step m.addr (BitVec.ofNat 64 m.value) data
        ∃ t, exec (.piece co head data) s = .next t ∧ t.twin.bound = some (co, n) ∧ t.twin.committed = s.twin.committed
          ∧ (mine → ok = true → MemWritten s t (0x10000000000 + m.addr) data ∧ t.twin.newPieces = s.twin.newPieces + 1
              ∧ { addr := m.addr, step := m.step, digest := BitVec.ofNat 64 m.value, serial := n } ∈ t.twin.pieces ∧ HubSent s t [])
          ∧ (mine → ok = false → t.mem = s.mem ∧ t.twin.pieces = s.twin.pieces
              ∧ HubSent s t (send { kind := 3, resend := true, addr := m.addr, step := m.step, serial := n }))
          ∧ (s.twin.discarding = true → t.mem = s.mem ∧ t.twin.pieces = s.twin.pieces ∧ HubSent s t [])
          ∧ (s.twin.discarding = false → s.twin.committed = none → s.twin.asked = false → t.mem = s.mem ∧ t.twin.pieces = s.twin.pieces
              ∧ t.twin.asked = true ∧ t.twin.discarding = true ∧ HubSent s t noImage))
      ∧ (kind = 1 → s.twin.restore.isSome = true → fromTwin s co = true →
        if pieceOk s n m.step m.addr (BitVec.ofNat 64 m.value) data then
          ∃ t, exec (.piece co head data) s = .next t ∧ MemWritten s t m.addr data ∧ t.twin = { s.twin with restored := s.twin.restored ++ [m.addr] }
        else exec (.piece co head data) s = .next { s with twin := { s.twin with corrupt := true } })
      ∧ (kind = 2 → s.twin.bound = some (co, n) →
        (s.twin.discarding = true → exec (.commit co head) s = .next { s with twin := { s.twin with discarding := false } })
        ∧ (mine → s.twin.committed = none → m.full = false → ∃ t, exec (.commit co head) s = .next t ∧ HubSent s t noImage
            ∧ t.twin.pieces = [] ∧ t.mem = s.mem)
        ∧ (mine → s.twin.committed.isSome = true ∨ m.full = true → s.twin.newPieces = m.value → ∃ t, exec (.commit co head) s = .next t
            ∧ t.twin = { s.twin with committed := some m.step, newPieces := 0, asked := false } ∧ { t with twin := s.twin, lports := s.lports } = s
            ∧ HubSent s t (send { kind := 3, step := m.step, serial := n }))
        ∧ (mine → s.twin.committed.isSome = true ∨ m.full = true → s.twin.newPieces ≠ m.value → exec (.commit co head) s = .next s))
      ∧ (kind = 2 → ∀ b k, s.twin.bound = some (b, k) → b ≠ co → ∃ t, exec (.commit co head) s = .next t
          ∧ { t with tel := s.tel, lports := s.lports } = s ∧ s.tel.eseq < t.tel.eseq ∧ HubSent s t (send { kind := 3, serial := k }))
      ∧ (kind = 3 → fromTwin s co = true →
        (n ≠ s.ident.serial → ∃ t, exec (.ack co head) s = .next t ∧ { t with tel := s.tel } = s ∧ s.tel.eseq < t.tel.eseq)
        ∧ (n = s.ident.serial → m.noImage = true → s.twin.restore = none → exec (.ack co head) s
            = .next (fullDelta { s with twin := { s.twin with acked := none, sending := none, queued := none } }))
        ∧ (n = s.ident.serial → m.noImage = false → m.resend = true → ∀ t full k, s.twin.sending = some (t, full, k) →
            exec (.ack co head) s = .next (sendCommit (sendPiece t co s (m.addr / 65536 * 65536)) co t k full))
        ∧ (n = s.ident.serial → m.noImage = false → m.resend = false → s.twin.queued = none →
            exec (.ack co head) s = .next { s with twin := { s.twin with acked := some m.step, sending := none, queued := none } }))
      ∧ (kind = 4 → ∀ k, s.twin.bound = some (co, k) → ∃ t, exec (.restoreReq co head) s = .next t
          ∧ { t with twin := s.twin, lports := s.lports } = s ∧ t.twin = { s.twin with bound := some (co, n) }
          ∧ HubSent s t (match imageFor s m.step with
            | some v => s.twin.pieces.flatMap (fun p =>
                mirrorShots s co { kind := 1, addr := p.addr, step := p.step, value := p.digest.toNat, serial := p.serial }
                  (memB s (0x10000000000 + p.addr) 65536)) ++ send { kind := 5, step := v, value := s.twin.pieces.length, serial := n }
            | none => noImage))
      ∧ (kind = 5 → fromTwin s co = true → ∀ c q, s.twin.restore = some (c, q) →
        (s.twin.corrupt = false → s.twin.restored.dedup.length = m.value → ∃ t, exec (.restoreEnd co head) s = .next t ∧ t.step.lastSealed = some m.step
            ∧ t.boot.stepLost = false ∧ t.twin.restore = none ∧ Reports s t c q 0 m.step ∧ t.mem = s.mem)
        ∧ (s.twin.corrupt = true ∨ s.twin.restored.dedup.length ≠ m.value → ∃ t, exec (.restoreEnd co head) s = .next t
            ∧ t.step.lastSealed = s.step.lastSealed ∧ t.twin.restore = none ∧ Reports s t c q Status.twinMirrorCorrupt 0)))
    ∧ ∀ c q, s.twin.restore = some (c, q) →
      ∃ t, exec .twinUnreachable s = .next t ∧ t.twin.restore = none ∧ Reports s t c q Status.twinUnreachable 0 ∧ t.mem = s.mem

/-! ## Fences (R380 to R390, R464) -/

/-- R26, R102, R135, R380 to R389, R464: a waiting request begins its die's fence; at the stop a reserve is taken, or with none the core is withdrawn; the transplant takes
stores and microcode from the Afiup's copies, marks the words that its own reads find bad and leaves all else as it is; a failed one leaves zeros and ends a
held descriptor; the binding writes its record, ends the charges with the new site and delivers the held shots in order. A store word is corrected and
counted, or reloaded from the image. -/
def Obligations.FencesReplaceAndWithdrawCores : Prop :=
  ∀ (s : State) (die ns : Nat) (x : Fence),
    (s.fence.waiting.find? (fun y => dieOf y.core = die) = some x → fenceOn s die = none → s.fence.restarting = false → hubUp s = true →
      isBound s x.core = true → runsUpdate s x.core = false →
      ∃ t, exec (.fenceStart die) s = .next t ∧ t.fence.active = s.fence.active ++ [(die, { x with stage := 1, item := itemCode s x.core })]
        ∧ t.fence.waiting = s.fence.waiting.erase x ∧ t.tel = (bump s 0 13 1).tel ∧ { t with fence := s.fence, tel := s.tel } = s)
    ∧ (fenceOn s die = some x →
      (x.stage = 1 → runsUpdate s x.core = false → (spareSites s die).any (fun y => !s.fence.testing.any (fun t => t.1 = y)) = true →
        ∃ t site, exec (.fenceStopComplete die ns) s = .next t ∧ site ∈ spareSites s die ∧ (∀ y ∈ s.fence.testing, y.1 ≠ site)
          ∧ fenceOn t die = some { x with stage := 2, newSite := some site, stopNs := ns } ∧ OnlyCore s t x.core ∧ t.mem = s.mem
          ∧ { getCore t x.core with run := (getCore s x.core).run, risers := (getCore s x.core).risers } = getCore s x.core
          ∧ (getCore t x.core).run = (getCore s x.core).run.map (fun r => { r with holding := false, waiting := false }))
      ∧ (x.stage = 1 → (getCore s x.core).run = none → (getCore s x.core).queue = [] → spareSites s die = [] →
        (getCore s x.core).hubItems = [] → s.route.heldShots.filter (fun y => y.shot.core = x.core) = [] →
        ∃ t, exec (.fenceStopComplete die ns) s = .next t ∧ isBound t x.core = false ∧ t.fence.withdrawn = insNat s.fence.withdrawn x.core
          ∧ t.fence.fenced = insNat s.fence.fenced (siteOf s x.core) ∧ getCore t x.core = {}
          ∧ (∀ c q, x.charges = [(c, q)] → Reports s t c q 0 0xFF)
          ∧ ∀ g, (groupCores (getGroup s g).params).contains x.core = true → (getGroup t g).defined = false)
      ∧ (x.stage = 2 → ∀ f : Finds, ∃ t, exec (.transplantComplete die ns f) s = .next t
          ∧ { t with cores := s.cores, fence := s.fence, tel := s.tel } = s
          ∧ fenceOn t die = some { x with stage := 3, moveNs := ns,
                                          badWords := (getCore t x.core).spBad.length + (getCore t x.core).accBad.length }
          ∧ { getCore t x.core with spBad := (getCore s x.core).spBad, accBad := (getCore s x.core).accBad }
              = { getCore s x.core with instr := (getCore s x.core).imgInstr, tables := (getCore s x.core).imgTables,
                                        ucode := s.sec.version.getD 5 0 }
          ∧ (∀ w, w ∈ (getCore t x.core).accBad ↔ w ∈ (getCore s x.core).accBad ∨ w ∈ f.acc)
          ∧ (∀ w, w ∈ (getCore t x.core).spBad ↔ w ∈ (getCore s x.core).spBad
              ∨ ∃ y ∈ f.sp, y.2 = true ∧ w = if winBase0 ≤ y.1 then y.1 - winAddr x.core 0 else y.1)
          ∧ ∀ k, k ≠ x.core → getCore t k = getCore s k)
      ∧ (x.stage = 2 → (getCore s x.core).run = none → ∃ t, exec (.transplantFailed die ns) s = .next t
          ∧ fenceOn t die = some { x with stage := 5, moveNs := ns }
          ∧ (getCore t x.core).scratch = [] ∧ (getCore t x.core).acc = [] ∧ (getCore t x.core).risers = []
          ∧ (getCore t x.core).instr = (getCore s x.core).imgInstr
          ∧ (∀ a < 2, ∀ j, (getEngine (getCore t x.core) a).job = some j → j.stage ≠ 6)
          ∧ ((∀ a < 2, ∀ j, (getEngine (getCore s x.core) a).job = some j → j.stage ≠ 6) →
              { t with cores := s.cores, fence := s.fence } = s ∧ ∀ k, k ≠ x.core → getCore t k = getCore s k))
      ∧ (∀ site, x.newSite = some site → (x.stage = 3 ∨ x.stage = 5) → x.core < 88 → s.fence.withdrawn.contains x.core = false →
        (getCore s x.core).run = none →
        ∃ t, exec (.fenceBindComplete die) s = .next t ∧ fenceOn t die = none ∧ s.mem = t.mem
          ∧ bindOf t x.core = { bound := true, fromReserve := s.ident.reserves.contains site, site := site }
          ∧ siteOf s x.core ∈ t.fence.fenced ∧ (∀ c q, x.charges = [(c, q)] → Reports s t c q 0 site)
          ∧ (s.tel.lostNow = 0 → s.tel.buffer.length < 4096 → ∃ v, t.tel.buffer = s.tel.buffer ++ [v]
              ∧ v.status = (if x.stage = 5 then Status.transplantFailed else Status.coreFenced) ∧ v.valA = x.badWords
              ∧ v.valB = x.stopNs % 2 ^ 32 + x.moveNs % 2 ^ 32 * 2 ^ 32)
          ∧ (dieLost s (dieOf x.core) = false → (∀ y ∈ s.fence.active, y.2.core = x.core → y.1 = die) →
              t.out = ((s.route.heldShots.filter (fun h => h.shot.core = x.core)).map (fun h => Output.local_ h.shot)).reverse ++ s.out
                ∧ t.route.heldShots = s.route.heldShots.filter (fun h => h.shot.core ≠ x.core))))
    ∧ (∀ c q e, Sole s c q 0x903 e → e.phase = 0 → fld (pw e 0) 7 7 = 0 → fld (pw e 0) 63 9 = 0 → tailZero e 8 = true →
      let l := fld (pw e 0) 6 0
      (isBound s l = false → exec (.coreFence c q) s = .next (report s c q Status.coreWithdrawn 0))
      ∧ (isBound s l = true → spareSites s (dieOf l) = [] → bitOf (pw e 0) 8 = false →
          exec (.coreFence c q) s = .next (report s c q Status.fenceNoReserve 0))
      ∧ (isBound s l = true → (spareSites s (dieOf l) ≠ [] ∨ bitOf (pw e 0) 8 = true) → s.fence.waiting = [] → s.fence.active = [] →
          ∃ t, exec (.coreFence c q) s = .next t ∧ t.fence.waiting = [{ core := l, cause := 5, charges := [(c, q)] }]
            ∧ { e with phase := 1 } ∈ (getCtx t c).entries ∧ { t with fence := s.fence, ctxs := s.ctxs } = s))
    ∧ (∀ l st i, isBound s l = true → i < 32768 → exec (.storeReloaded l st i true) s = .next (bumpCore s l 23 1))
    ∧ (∀ l st i, isBound s l = true → s.fence.restarting = false → hubUp s = true → i < 32768 →
      ∃ t, exec (.storeReloaded l st i false) s = .next t ∧ { t with cores := s.cores, tel := s.tel, fence := s.fence } = s
        ∧ (∀ k, k ≠ l → getCore t k = getCore s k)
        ∧ (st = 0 → getInstr (getCore t l) i = tget (instrDefault (getCore s l) i) (getCore s l).imgInstr i
            ∧ (∀ j, j ≠ i → getInstr (getCore t l) j = getInstr (getCore s l) j) ∧ (getCore t l).tables = (getCore s l).tables)
        ∧ (st ≠ 0 → readB (getCore t l).tables (8 * i) 8 = readB (getCore s l).imgTables (8 * i) 8 ∧ (getCore t l).instr = (getCore s l).instr
            ∧ ∀ j, (j < 8 * i ∨ 8 * i + 8 ≤ j) → tget 0 (getCore t l).tables j = tget 0 (getCore s l).tables j))
    ∧ (∀ site cls, exec (.faultWindowExpiry site cls) s
        = .next { s with fence := { s.fence with faults := s.fence.faults.filter (fun f => !(f.1 = site && f.2.1 = cls)) } })

/-! ## Power and temperature (R40, R405 to R417) -/

/-- R39, R40, R405, R414, R415, R417: the input voltage outside 36 V to 44 V is marked, lost it turns the module OFF; measurements reach the registers; an
overdraw cuts the pool by one step, with a record when it is a new one, and a restoration takes a step back; the hottest junction throttles at 105 and shuts
down at 110; a core rail below its threshold halts the fabric, one back at it ends the halt outside DRAWN (log 51). Voltages above the
absolute maximum are not spoken of here. -/
def Obligations.InputAndSensorsSteerThePower : Prop :=
  ∀ (s : State) (mv : Nat), mv ≤ 54000 →
    (s.boot.off = false →
      (∀ row ∈ ([(.inputLow mv, 32000, 35999, true, false), (.inputHigh mv, 44001, 48000, false, true),
          (.inputInOperatingRange mv, 36000, 44000, false, false)] : List (Instr × Nat × Nat × Bool × Bool)), row.2.1 ≤ mv → mv ≤ row.2.2.1 →
        ∃ t, exec row.1 s = .next t ∧ t.power.vinNow = mv ∧ t.power.low = row.2.2.2.1 ∧ t.power.high = row.2.2.2.2 ∧ t.mem = s.mem
          ∧ t.ctxs = s.ctxs ∧ t.power.limitW = s.power.limitW ∧ { t with power := s.power, cores := s.cores, tel := s.tel } = s)
      ∧ ((mv < 32000 ∨ 48000 < mv) → ∃ t, exec (.inputLost mv) s = .next t ∧ t.boot.off = true ∧ t.mem = [] ∧ t.cores = [] ∧ t.ctxs = []
          ∧ t.fence.withdrawn = s.fence.withdrawn ∧ t.fence.bound = s.fence.bound ∧ t.fence.fenced = s.fence.fenced
          ∧ t.step.lastSealed = s.step.lastSealed ∧ t.sec.lifecycle = s.sec.lifecycle ∧ t.ident = s.ident))
    ∧ (s.boot.off = false → s.boot.shutdown = false →
      (∀ w peak avg, ∃ t, exec (.inputPowerMeasurement mv w peak avg) s = .next t ∧ { t with power := s.power } = s
          ∧ pwrInput t = peak % 2 ^ 16 + w % 2 ^ 16 * 2 ^ 16 + mv % 2 ^ 16 * 2 ^ 32 ∧ t.power.avgW = avg
          ∧ t.power.limitW = s.power.limitW ∧ t.power.cuts = s.power.cuts)
      ∧ (∀ h, (110 ≤ h → ∃ t, exec (.junctionSensorRead h) s = .next t ∧ t.boot.shutdown = true ∧ t.mem = []
            ∧ (∀ l, ∃ v, getCore t l = { timeCopy := v }) ∧ fabricRuns t = false)
        ∧ (105 ≤ h → h < 110 → s.power.throttle = false → ∃ t, exec (.junctionSensorRead h) s = .next t ∧ t.power.throttle = true
            ∧ t.power.tjMax = h ∧ railCode t = 0 ∧ t.power.heat = 10 ∧ { t with power := s.power, cores := s.cores, tel := s.tel } = s)
        ∧ (h < 100 → s.power.throttle = true → ∃ t, exec (.junctionSensorRead h) s = .next t ∧ t.power.throttle = false
            ∧ t.power.tjMax = h ∧ t.power.heat = s.power.heat ∧ { t with power := s.power, cores := s.cores } = s)
        ∧ (h < 110 → (h < 105 ∨ s.power.throttle = true) → (100 ≤ h ∨ s.power.throttle = false) →
            exec (.junctionSensorRead h) s = .next { s with power := { s.power with tjMax := h } }))
      ∧ (∀ rail, 5 ≤ s.boot.stage →
          (rail < s.power.threshold → s.power.railLow = false → running s s.step.updCtx.1 s.step.updCtx.2 0x400 = none →
            ∃ t, exec (.coreRailLow rail) s = .next t ∧ t.power = { s.power with railLow := true, lowDrawn := decide (s.power.st = .drawn) }
              ∧ fabricRuns t = false ∧ { t with power := s.power, tel := s.tel } = s)
          ∧ (s.power.threshold ≤ rail → exec (.coreRailLow rail) s
              = .next (if s.power.st = .drawn ∨ s.power.lowDrawn = true then s else { s with power := { s.power with railLow := false } }))))
    ∧ (effLimit s s.power.limitW < s.power.avgW → s.power.cuts < 20 → ∃ t, exec .powerOverdraw s = .next t
        ∧ t.power = { s.power with cuts := s.power.cuts + 1, excess := true } ∧ { t with power := s.power, tel := s.tel } = s
        ∧ (s.power.excess = true → t.tel = s.tel)
        ∧ (s.power.excess = false → s.tel.lostNow = 0 → s.tel.buffer.length < 4096 → ∃ v, t.tel.buffer = s.tel.buffer ++ [v]
            ∧ v.status = Status.powerOverdraw))
    ∧ (s.power.avgW * 100 ≤ effLimit s s.power.limitW * 95 → ∃ t, exec .poolRestore s = .next t
        ∧ t.power.cuts = s.power.cuts - 1 ∧ t.power.heat = (if s.power.throttle = true then s.power.heat else s.power.heat - 1)
        ∧ { t with power := s.power, cores := s.cores } = s)
    ∧ (∀ a b, a < 65536 → b < 65536 → exec (.fabRateWindow a b) s = .next { s with fabA := a, fabB := b, fabWin := (s.fabWin + 1) % 65536 })

/-- R39, R408 to R411, R413, R416: POWER_STATE_SET begins a transition, ends at once in the state that it names, and is refused while another is in progress; a transition's
completion reports module time and moves threshold and links with it, an unmet draw times out with the state as it was; POWER_LIMIT_SET sets limit and rail
and reports the granted watts; LADLE_STATUS writes one snapshot; quiescence under AUTO_IDLE leaves ACTIVE. -/
def Obligations.PowerChargesMoveTheModule : Prop :=
  ∀ (s : State) (c q : Nat) (e : Entry),
    (Sole s c q 0x600 e → e.phase = 0 →
      let w := pw e 0
      let fine : Prop := fld w 1 0 ≠ 3 ∧ fld w 15 3 = 0 ∧ fld w 63 32 = 0 ∧ tailZero e 8 = true
      (¬ fine → exec (.powerStateSet c q) s = .next (report s c q Status.fieldReserved 0))
      ∧ (fine → s.power.target.isSome = true → exec (.powerStateSet c q) s = .next (report s c q Status.powerStateBusy 0))
      ∧ (fine → s.power.target = none → s.power.st = pwrOf (fld w 1 0) → ∃ t, exec (.powerStateSet c q) s = .next t
          ∧ Reported t c q 0 s.time ∧ t.power.target = none ∧ t.power.autoIdle = bitOf w 2 ∧ t.power.st = s.power.st ∧ t.mem = s.mem)
      ∧ (fine → s.power.target = none → s.power.st ≠ pwrOf (fld w 1 0) → ∃ t, exec (.powerStateSet c q) s = .next t
          ∧ t.power.target = some (pwrOf (fld w 1 0)) ∧ t.power.charge = some (c, q) ∧ t.power.st = s.power.st
          ∧ t.power.drawMs = (if fld w 31 16 = 0 then 1000 else fld w 31 16) ∧ { e with phase := 1 } ∈ (getCtx t c).entries ∧ t.mem = s.mem
          ∧ t.cores = s.cores))
    ∧ (Sole s c q 0x600 e → s.power.charge = some (c, q) → s.boot.off = false → s.boot.shutdown = false → s.power.wake = false →
      (s.power.target = some .active → s.power.st = .idleLit → ∃ t, exec .powerTransitionComplete s = .next t ∧ Reports s t c q 0 s.time
          ∧ t.power.st = .active ∧ t.power.target = none ∧ t.power.autoIdle = bitOf (pw e 0) 2 ∧ { t with power := s.power, ctxs := s.ctxs } = s)
      ∧ (s.power.target = some .idleLit → s.power.st = .active →
          if quiescent s then ∃ t, exec .powerTransitionComplete s = .next t ∧ Reports s t c q 0 s.time
            ∧ t.power.st = .idleLit ∧ t.power.target = none ∧ { t with power := s.power, ctxs := s.ctxs } = s
          else exec .powerTransitionComplete s = .next s)
      ∧ (s.power.target = some .drawn → s.power.st ≠ .drawn → drawReady s = true → s.power.intent = true → intentsMet s = true →
          ∃ t, exec .powerTransitionComplete s = .next t ∧ Reports s t c q 0 s.time ∧ t.power.st = .drawn ∧ t.power.threshold = 560
            ∧ (∀ n, (getLink s n).st = .active → (getLink t n).st = .keepalive) ∧ bitOf t.sec.scopes 0 = false ∧ bitOf t.sec.scopes 2 = false
            ∧ t.mem = s.mem)
      ∧ (∀ to_, to_ ≠ .drawn → s.power.target = some to_ → s.power.st = .drawn →
          ∃ t, exec .powerTransitionComplete s = .next t ∧ Reports s t c q 0 s.time ∧ t.power.st = to_ ∧ t.power.target = none
            ∧ t.power.threshold = 660 ∧ (∀ n, (getLink s n).st = .keepalive → (getLink t n).st = .active) ∧ t.mem = s.mem
            ∧ (s.power.lowDrawn = false → t.cores = s.cores)
            ∧ (s.power.lowDrawn = true → t.power.railLow = false
                ∧ ∀ l, (getCore t l).scratch = [] ∧ (getCore t l).acc = [] ∧ (getCore t l).risers = []
                    ∧ (getCore t l).instr = (getCore s l).imgInstr ∧ (getCore t l).tables = (getCore s l).imgTables))
      ∧ (s.power.target = some .drawn → s.power.st ≠ .drawn → ∃ t, exec .powerDrawTimeout s = .next t
          ∧ Reports s t c q Status.powerDrawTimeout 0 ∧ t.power.st = s.power.st ∧ t.power.target = none ∧ t.power.intent = false
          ∧ (∀ p < 8, (getLPort t p).intentOut = false) ∧ t.mem = s.mem ∧ t.cores = s.cores))
    ∧ (s.power.wake = true → s.power.st = .idleLit → s.power.target = none → s.boot.off = false → s.boot.shutdown = false →
        exec .powerTransitionComplete s = .next { s with power := { s.power with st := .active, wake := false } })
    ∧ (Sole s c q 0x601 e → fld (pw e 0) 63 19 = 0 → tailZero e 8 = true →
      let n := fld (pw e 0) 15 0
      let r := fld (pw e 0) 18 16
      if 1000 ≤ n ∧ n ≤ 2200 ∧ r ≤ 4 then ∃ t, exec (.powerLimitSet c q) s = .next t ∧ t.power.limitW = n ∧ t.power.rail = r
          ∧ Reports s t c q 0 (grantedW t) ∧ { t with power := s.power, cores := s.cores, ctxs := s.ctxs } = s
        else exec (.powerLimitSet c q) s = .next (report s c q Status.powerLimitInvalid 0))
    ∧ (Sole s c q 0x602 e → pw e 0 % 64 = 0 → tailZero e 8 = true → s.poison = [] →
      if inFast s (pw e 0) 768 then ∃ t, exec (.ladleStatus c q) s = .next t ∧ Reports s t c q 0 0 ∧ MemWritten s t (pw e 0) (ladleBytes s)
          ∧ { t with mem := s.mem, poison := s.poison, ctxs := s.ctxs } = s
        else exec (.ladleStatus c q) s = .next (report s c q Status.addressUnpopulated 0))
    ∧ exec .autoIdle s = .next (if s.power.st = .active ∧ s.power.autoIdle = true ∧ quiescent s = true
        then { s with power := { s.power with st := .idleLit } } else s)

/-! ## Security and debug (R420 to R437) -/

/-- R398, R399, R424, R427 to R433, R436: charges of class 0x7xx run one at a time in order of dispatch; a quote is one snapshot with its signature; a checked
firmware image becomes its subsystem's active copy, is applied as its subsystem asks, and raises the security version when the charge reports; an Afiup that has restarted ends its update and then takes the messages that it held; the two stages of DEBUG_OPEN give a challenge and open a token's scopes; closing resumes every halted core; the lifecycle moves on in order. The DBG_CORE commands
act only with FABRIC open. -/
def Obligations.SecurityAndDebugFollowTheCrucible : Prop :=
  ∀ (s : State) (c q : Nat) (e : Entry), s.poison = [] → s.sec.fw.length = 8 → s.sec.svn.length = 8 →
    let tok := memB s (pw e 8) 178
    (Sole s c q 0x700 e → secTurn s c q = true → pw e 0 % 64 = 0 → fld (pw e 8) 63 9 = 0 → tailZero e 0x30 = true →
      let b := quoteBytes s (fld (pw e 8) 7 0) (bitOf (pw e 8) 8) (slice e.params 0x10 32)
      if inFast s (pw e 0) b.length then ∃ t, exec (.attestQuote c q) s = .next t ∧ Reports s t c q 0 b.length
          ∧ MemWritten s t (pw e 0) b ∧ t.sec = s.sec
        else exec (.attestQuote c q) s = .next (report s c q Status.addressUnpopulated 0))
    ∧ (Sole s c q 0x701 e → secTurn s c q = true → e.phase = 0 → otherUpdate s c q = false → fwFieldStatus s e = 0 →
      let b := memB s (pw e 0) (fld (pw e 8) 31 0)
      let k := imageSub b
      if fwImageStatus s b ≠ 0 then exec (.fwUpdate c q {}) s = .next (report s c q (fwImageStatus s b) 0)
      else ∃ t, exec (.fwUpdate c q {}) s = .next t ∧ (t.sec.fw.getD k ({}, {})) = (parseImage b, (s.sec.fw.getD k ({}, {})).1)
        ∧ (Reported t c q 0 (parseImage b).version → t.sec.svn.getD k 0 = max (s.sec.svn.getD k 0) (parseImage b).svn)
        ∧ (k = 2 ∨ (5 ≤ k ∧ s.step.st ≠ .idle) → t.sec.svn = s.sec.svn)
        ∧ (k < 2 ∨ k = 3 → Reported t c q 0 (parseImage b).version ∧ t.sec.applying = none ∧ t.mem = s.mem ∧ t.cores = s.cores)
        ∧ (k = 2 → t.fence.restarting = true ∧ t.sec.applying = some (c, q, 2) ∧ bitOf t.sec.scopes 1 = false ∧ t.mem = s.mem)
        ∧ (k = 4 → t.mem = s.mem ∧ t.cores = s.cores ∧ (nextLitPort s 0 = none → Reported t c q 0 (parseImage b).version))
        ∧ (k = 5 → s.step.st = .idle → (∀ l ∈ boundCores s, (getCore s l).run = none) → Reported t c q 0 (parseImage b).version ∧ t.mem = s.mem
            ∧ ∀ l ∈ boundCores s, (getCore t l).ucode = t.sec.version.getD 5 0)
        ∧ (6 ≤ k → s.step.st = .idle → Reported t c q 0 (parseImage b).version ∧ t.mem = s.mem
            ∧ ∀ l ∈ boundCores s, if k = 6 then (getCore t l).dirtyColl = true else (getCore t l).dirtyUpd = true)
        ∧ (5 ≤ k → s.step.st ≠ .idle → { e with phase := 1, result := k } ∈ (getCtx t c).entries ∧ t.mem = s.mem ∧ t.cores = s.cores))
    ∧ (Sole s c q 0x701 e → secTurn s c q = true → s.step.st = .idle →
      (e.phase = 1 → 6 ≤ e.result → ∃ t, exec (.fwUpdate c q {}) s = .next t ∧ Reported t c q 0 (activeImage s e.result).version)
      ∧ (e.phase = 2 → (∀ l ∈ boundCores s, (getCore s l).run = none) → ∃ t, exec (.fwUpdate c q {}) s = .next t
          ∧ Reported t c q 0 (activeImage s 5).version ∧ ∀ l ∈ boundCores s, (getCore t l).ucode = s.sec.version.getD 5 0))
    ∧ (s.fence.restarting = true → ∃ t, exec .afiupRestartComplete { s with fence := { s.fence with heldMsgs := [] } } = .next t
        ∧ exec .afiupRestartComplete s = .next (s.fence.heldMsgs.foldl (fun s m => takeMessage s m.1 m.2.1 m.2.2) t))
    ∧ (s.fence.restarting = true → s.fence.heldMsgs = [] → s.sec.applying = some (c, q, 2) → ∃ t, exec .afiupRestartComplete s = .next t ∧ t.fence.restarting = false
        ∧ t.sec.applying = none ∧ t.sec.svn.getD 2 0 = max (s.sec.svn.getD 2 0) (activeImage s 2).svn ∧ Reports s t c q 0 (activeImage s 2).version ∧ t.sec.version = s.sec.version.set 2 (activeImage s 2).version
        ∧ t.mem = s.mem ∧ t.cores = s.cores)
    ∧ (Sole s c q 0x702 e → secTurn s c q = true → debugFieldsOk e = true → s.power.st ≠ .drawn →
      (∀ burns f, bitOf (pw e 0) 0 = false → inMem s (pw e 0x10) 64 = true → ∃ t, exec (.debugOpen c q burns f) s = .next t ∧ Reports s t c q 0 0
          ∧ MemWritten s t (pw e 0x10) (challengeBytes s s.sec.nonces)
          ∧ t.sec = { s.sec with nonce := some s.sec.nonces, nonces := s.sec.nonces + 1 })
      ∧ (∀ burns, bitOf (pw e 0) 0 = true → fld (pw e 0x18) 31 0 = 178 → inMem s (pw e 8) 178 = true →
        (tokenOk s tok 1 2 = false → exec (.debugOpen c q burns {}) s = .next (report s c q Status.debugTokenInvalid 0))
        ∧ (tokenOk s tok 1 2 = true → nonceOk s tok = false → exec (.debugOpen c q burns {}) s = .next (report s c q Status.debugNonceInvalid 0))
        ∧ (tokenOk s tok 1 2 = true → nonceOk s tok = true → s.sec.lifecycle ≠ 3 → (s.sec.lifecycle = 2 → s.sec.fieldOpens < 32 ∧ burns = true) →
          ∃ t, exec (.debugOpen c q burns {}) s = .next t ∧ Reports s t c q 0 0 ∧ t.sec.nonce = none ∧ t.sec.scopes = wordAt tok 4 1
            ∧ t.sec.sincePor = true ∧ t.sec.fieldOpens = s.sec.fieldOpens + (if s.sec.lifecycle = 2 then 1 else 0) ∧ t.mem = s.mem))
      ∧ (∀ burns f, bitOf (pw e 0) 0 = true → s.sec.lifecycle = 3 → fld (pw e 0x18) 31 0 = 0 → ∃ t, exec (.debugOpen c q burns f) s = .next t
          ∧ Reports s t c q 0 0 ∧ t.sec.scopes = 7 ∧ t.sec.debug = 2 ∧ t.mem = s.mem ∧ t.cores = s.cores))
    ∧ (Sole s c q 0x703 e → secTurn s c q = true → tailZero e 0 = true → ∃ t, exec (.debugClose c q) s = .next t ∧ Reports s t c q 0 0 ∧ t.sec.scopes = 0
        ∧ t.sec.debug = 0 ∧ (∀ l, (getCore t l).halt = false ∧ (getCore t l).bpEn = false ∧ (getCore t l).pc = (getCore s l).pc) ∧ t.mem = s.mem)
    ∧ (Sole s c q 0x704 e → secTurn s c q = true → fld (pw e 0) 63 3 = 0 → fld (pw e 0x18) 63 32 = 0 → tailZero e 0x20 = true → s.step.st = .idle → fabricBusy s = false →
      let ok := lifecycleOrderOk s (fld (pw e 0) 1 0) (bitOf (pw e 0) 2)
      (ok = false → exec (.lifecycleAdvance c q {}) s = .next (report s c q Status.lifecycleOrder 0))
      ∧ (ok = true → s.sec.lifecycle = 0 → s.sec.staged = false → inMem s (pw e 0x10) 57 = true →
          ∃ t, exec (.lifecycleAdvance c q {}) s = .next t ∧ Reports s t c q 0 0 ∧ t.sec = { s.sec with key := true, staged := true }
            ∧ MemWritten s t (pw e 0x10) (slice (Config.publicKey s.ident.serial) 0 57))
      ∧ (ok = true → s.sec.lifecycle = 0 → s.sec.staged = true → inMem s (pw e 8) (fld (pw e 0x18) 31 0) = true →
          let n := fld (pw e 0x18) 31 0
          let cert := memB s (pw e 8) n
          if n ≤ 2048 ∧ Config.chainValid cert s.ident.serial (Config.publicKey s.ident.serial) = true
          then ∃ t, exec (.lifecycleAdvance c q {}) s = .next t ∧ Reports s t c q 0 0 ∧ t.sec = { s.sec with cert := cert, lifecycle := 1 }
            ∧ t.mem = s.mem ∧ t.cores = s.cores
          else exec (.lifecycleAdvance c q {}) s = .next (report s c q Status.lifecycleOrder 0))
      ∧ (ok = true → s.sec.lifecycle = 1 → ∃ t, exec (.lifecycleAdvance c q {}) s = .next t ∧ Reports s t c q 0 0
          ∧ t.sec = { s.sec with lifecycle := 2 } ∧ t.mem = s.mem ∧ t.cores = s.cores)
      ∧ (ok = true → s.sec.lifecycle = 2 → inMem s (pw e 8) 178 = true → tokenOk s tok 2 3 = true → nonceOk s tok = true →
          ∃ t, exec (.lifecycleAdvance c q {}) s = .next t ∧ Reports s t c q 0 0 ∧ t.sec.lifecycle = 3 ∧ t.sec.nonce = none ∧ t.sec.scopes = 0
            ∧ (∀ a n, memB t a n = List.replicate n 0)
            ∧ ∀ l, (getCore t l).scratch = [] ∧ (getCore t l).acc = [] ∧ (getCore t l).instr = [] ∧ (getCore t l).tables = []))
    ∧ (secTurn s c q = false → ∀ burns f, exec (.attestQuote c q) s = .next s ∧ exec (.fwUpdate c q f) s = .next s
        ∧ exec (.debugOpen c q burns f) s = .next s ∧ exec (.debugClose c q) s = .next s ∧ exec (.lifecycleAdvance c q f) s = .next s)
    ∧ (s.sec.timed = true → ∃ t, exec .debugTokenExpiry s = .next t ∧ t.sec.scopes = 0 ∧ t.sec.debug = 0 ∧ t.mem = s.mem ∧ t.ctxs = s.ctxs)
    ∧ exec .nonceExpiry s = .next { s with sec := { s.sec with nonce := none } }
    ∧ (fabricOpen s = false → ∀ l h en pc, exec (.dbgCoreHalt l h) s = .next s ∧ exec (.dbgCoreBpEn l en pc) s = .next s
        ∧ ∀ m f, exec (.dbgCoreStep l m f) s = .next s)
    ∧ (fabricOpen s = true → ∀ l,
      (∀ h, ∃ t, exec (.dbgCoreHalt l h) s = .next t ∧ (getCore t l).halt = h ∧ { t with cores := s.cores } = s ∧ ∀ k, k ≠ l → getCore t k = getCore s k)
      ∧ (∀ en pc, ∃ t, exec (.dbgCoreBpEn l en pc) s = .next t ∧ getCore t l = { getCore s l with bpEn := en, bpPc := pc % 2 ^ 15 }
          ∧ { t with cores := s.cores } = s ∧ ∀ k, k ≠ l → getCore t k = getCore s k)
      ∧ (∀ m f, (getCore s l).halt = true → ∀ row ∈ aluRows, iOp (instrAt s l) = row.1 →
          ∃ u, exec (row.2.1 l) (modCore s l (fun x => { x with halt := false, bpSkip := true })) = .next u
            ∧ exec (.dbgCoreStep l m f) s = .next (modCore u l (fun x => { x with halt := true }))))

/-! ## Counters, phase records, the event ring (R439 to R452) -/

/-- R441 to R443, R447, R451, R452: COUNTERS_READ writes one snapshot and clears the overflow marks it is asked to; PHASE_RECORDS_READ writes the kept records in increasing
step, and refuses a COUNT outside 1 to 64 with FIELD_RESERVED (the model's choice, log 90); EVENT_RING_SET moves or disables the ring; the oldest buffered record goes to the next slot with its phase, and a full ring holds it. -/
def Obligations.CountersRecordsAndEventsReachTheHost : Prop :=
  ∀ (s : State) (c q : Nat) (e : Entry),
    (Sole s c q 0x800 e → pw e 0 % 64 = 0 → fld (pw e 8) 63 3 = 0 → tailZero e 0x10 = true → s.poison = [] →
      let set := fld (pw e 8) 1 0
      let n := 64 + 8 * setSize set
      if inFast s (pw e 0) n then ∃ t, exec (.countersRead c q) s = .next t ∧ Reports s t c q 0 (setSize set) ∧ MemWritten s t (pw e 0) (counterBytes s set)
          ∧ (∀ k i, i < 4096 → (counterOf t k i).count = (counterOf s k i).count
              ∧ (counterOf t k i).ovf = if bitOf (pw e 8) 2 = true ∧ k = set then false else (counterOf s k i).ovf)
          ∧ { t with mem := s.mem, poison := s.poison, ctxs := s.ctxs, tel := s.tel } = s
        else exec (.countersRead c q) s = .next (report s c q Status.addressUnpopulated 0))
    ∧ (Sole s c q 0x801 e → pw e 0 % 64 = 0 → fld (pw e 0x10) 63 7 = 0 → tailZero e 0x18 = true → s.poison = [] →
      let n := fld (pw e 0x10) 6 0
      let rs := keptPhases s (pw e 8) n
      ((n = 0 ∨ 64 < n) → exec (.phaseRecordsRead c q) s = .next (report s c q Status.fieldReserved 0))
      ∧ (1 ≤ n → n ≤ 64 → inFast s (pw e 0) (192 * n) = true → ∃ t, exec (.phaseRecordsRead c q) s = .next t ∧ Reports s t c q 0 rs.length
        ∧ MemWritten s t (pw e 0) (rs.flatMap phaseBytes)
        ∧ { t with mem := s.mem, poison := s.poison, ctxs := s.ctxs } = s))
    ∧ (Sole s c q 0x802 e → pw e 0 % 4096 = 0 → pw e 8 % 8 = 0 → fld (pw e 0x10) 15 7 = 0 → fld (pw e 0x10) 63 26 = 0 → tailZero e 0x18 = true →
      let w := pw e 0x10
      (bitOf w 6 = false → 6 ≤ fld w 4 0 → fld w 4 0 ≤ 16 → ∃ t, exec (.eventRingSet c q) s = .next t ∧ Reports s t c q 0 0
          ∧ t.tel = { s.tel with ring := some { ctx := c, base := pw e 0, consAddr := pw e 8, log2 := fld w 4 0, msixEn := bitOf w 5, msixVec := fld w 25 16 } }
          ∧ { t with tel := s.tel, ctxs := s.ctxs } = s)
      ∧ (w = 64 → pw e 0 = 0 → pw e 8 = 0 → ∃ t, exec (.eventRingSet c q) s = .next t ∧ Reports s t c q 0 0 ∧ t.tel = { s.tel with ring := none }
          ∧ { t with tel := s.tel, ctxs := s.ctxs } = s)
      ∧ (bitOf w 6 = false → (fld w 4 0 < 6 ∨ 16 < fld w 4 0) → exec (.eventRingSet c q) s = .next (report s c q Status.eventRingInvalid 0)))
    ∧ (∀ r v rest n, s.tel.ring = some r → s.tel.buffer = v :: rest → ringUsable s r = true → s.tel.lostNow = 0 →
      let p := (getCtx s r.ctx).owner
      (r.written - r.consumed < 2 ^ r.log2 → ∃ t o, exec (.eventRingWrite n) s = .next t ∧ t.tel.ring = some { r with written := r.written + 1 }
          ∧ t.tel.buffer = rest ∧ t.out = o ++ .hostWrite p (r.base + 64 * (r.written % 2 ^ r.log2)) (eventBytes v (lapPhase r.written r.log2)) :: s.out
          ∧ (∀ m ∈ o, m = .msix p r.msixVec ∧ r.msixEn = true) ∧ t.mem = s.mem ∧ t.ctxs = s.ctxs)
      ∧ (2 ^ r.log2 ≤ r.written - r.consumed → r.pollTime ≤ s.time → 2 ^ r.log2 ≤ r.written - n % 2 ^ 64 →
          exec (.eventRingWrite n) s = .next { s with tel := { s.tel with
            ring := some { r with consumed := n % 2 ^ 64, pollTime := s.time + 1000 } } }))

/-! ## Tests and repair (R244 to R247, R462, R463, R465) -/

/-- R245 to R247, R462, R463, R465: a memory test zeroes what it tests, a fast-tier test poisons the rows that fail and counts them, a margin test writes its figures, a
loopback test puts links into loopback until they end it; a repair takes the bank group's spare and changes no byte; MBIST_READ writes the records; a site test starts when
the pool has room for its 20 W beside the grants held, and ends with the unit that failed. -/
def Obligations.TestsAndRepairsReportWhatTheyFind : Prop :=
  ∀ (s : State) (c q : Nat) (e : Entry), s.poison = [] →
    (Sole s c q 0x900 e → e.phase = 0 → ∀ found : BistFound,
      (bistStatus s c e ≠ 0 → exec (.bistRun c q found) s = .next (report s c q (bistStatus s c e) 0))
      ∧ (bistStatus s c e = 0 → bTest e = 0 →
        let sel := fun a => inFast s a 1 && (bUnits e).contains (fastPlace s a).1
        let rows := found.rows.filter (fun k => (bUnits e).contains (rowStack k))
        ∃ t, exec (.bistRun c q found) s = .next t ∧ Reports s t c q 0 rows.length ∧ (∀ a, memB t a 1 = if sel a then [0] else memB s a 1)
          ∧ (∀ k ∈ rows, ∀ u ∈ rowUnits s k, u ∈ t.poison) ∧ (rows = [] → t.poison = [] ∧ t.repair.cands = s.repair.cands)
          ∧ { t with mem := s.mem, poison := s.poison, repair := s.repair, ctxs := s.ctxs } = s)
      ∧ (bistStatus s c e = 0 → bTest e = 1 → found.units = [] →
        let sel := fun a => inDeep s a 1 && (bUnits e).contains (channelOf s a)
        let n := 8 * (bUnits e).length
        ∃ t, exec (.bistRun c q found) s = .next t ∧ Reports s t c q 0 0 ∧ memB t (bDst e) n = List.replicate n 0
          ∧ (∀ a, a < bDst e ∨ bDst e + n ≤ a → memB t a 1 = if sel a then [0] else memB s a 1) ∧ t.poison = [])
      ∧ (bistStatus s c e = 0 → bTest e = 2 →
        let n := 16 * (bUnits e).length
        ∃ t, exec (.bistRun c q found) s = .next t ∧ Reports s t c q 0 (bUnits e).length ∧ (∃ d, d.length = n ∧ MemWritten s t (bDst e) d) ∧ t.links = s.links
          ∧ ∀ k x, (bUnits e)[k]? = some x → ∀ y, found.links.find? (fun y => y.1 = x) = some y →
              memB t (bDst e + 16 * k) 16 = toLE 16 (y.2.1 % 2 ^ 16 + y.2.2.1 % 2 ^ 16 * 2 ^ 16 + y.2.2.2 % 2 ^ 8 * 2 ^ 32))
      ∧ (bistStatus s c e = 0 → bTest e = 3 → bUnits e ≠ [] → ∃ t, exec (.bistRun c q found) s = .next t
          ∧ (∀ k n, (bUnits e)[k]? = some n → getLink t n = { getLink s n with loopback := some (getLink s n).st, loopDst := bDst e + 16 * k })
          ∧ (∀ n, n ∉ bUnits e → getLink t n = getLink s n) ∧ { e with phase := 1, items := bUnits e } ∈ (getCtx t c).entries ∧ t.mem = s.mem))
    ∧ (∀ n errs, (getLink s n).loopback.isSome = true → ∃ t, exec (.loopbackTestEnd n errs) s = .next t
        ∧ getLink t n = { getLink s n with loopback := none } ∧ OnlyLink s t n
        ∧ MemWritten s t (getLink s n).loopDst (toLE 16 (errs % 2 ^ 48))
        ∧ (loopTest s n = some (c, q) → Sole s c q 0x900 e → e.items = [n] → Reported t c q 0 (e.result + 1)))
    ∧ (Sole s c q 0x901 e → fld (pw e 0) 34 0 = 0 → fld (pw e 8) 63 1 = 0 → tailZero e 0x10 = true → ∀ f : Finds,
      let k := pw e 0 / 2 ^ 35
      let hard := bitOf (pw e 8) 0
      let ok := rowOk s k && s.repair.cands.any (fun x => x.1 = k)
      let used := if hard then s.repair.hardUsed else s.repair.softUsed
      (ok = false → exec (.hbmRepair c q f) s = .next (report s c q Status.repairTargetInvalid 0))
      ∧ (ok = true → rowGroup k ∈ used → exec (.hbmRepair c q f) s = .next (report s c q Status.repairNoSpare 0))
      ∧ (ok = true → rowGroup k ∉ used → ∃ t, exec (.hbmRepair c q f) s = .next t ∧ Reports s t c q 0 (if hard then 2 else 1)
          ∧ rowGroup k ∈ (if hard then t.repair.hardUsed else t.repair.softUsed)
          ∧ t.mem = s.mem ∧ (f = {} → t.tel = (bump s 3 (8 * rowStack k + (if hard then 6 else 5)) 1).tel
              ∧ { t with repair := s.repair, ctxs := s.ctxs, tel := s.tel } = s)))
    ∧ (Sole s c q 0x902 e → fld (pw e 8) 63 1 = 0 → tailZero e 0x10 = true →
      let b := mbistBytes s (bitOf (pw e 8) 0)
      if inMem s (pw e 0) b.length then ∃ t, exec (.mbistRead c q) s = .next t ∧ Reports s t c q 0 (64 * (fittedStacks s).length)
          ∧ MemWritten s t (pw e 0) b ∧ { t with mem := s.mem, poison := s.poison, ctxs := s.ctxs } = s
        else exec (.mbistRead c q) s = .next (report s c q Status.addressUnpopulated 0))
    ∧ (Sole s c q 0x904 e → ∀ unit,
      let x := fld (pw e 0) 7 0
      (e.phase = 0 → siteStatus s e ≠ 0 → exec (.siteTest c q unit) s = .next (report s c q (siteStatus s e) 0))
      ∧ (e.phase = 0 → siteStatus s e = 0 → raisePending s = false → s.power.waiting = [] → heldW s + watts 20 s.power.applied ≤ poolW s →
          ∃ t, exec (.siteTest c q unit) s = .next t ∧ t.fence.testing = s.fence.testing ++ [(x, c, q)]
            ∧ { e with phase := 1 } ∈ (getCtx t c).entries ∧ t.mem = s.mem
            ∧ (grantedW s + watts 20 s.power.applied ≤ poolW s → grantedW t = grantedW s + watts 20 s.power.applied
                ∧ { t with fence := s.fence, ctxs := s.ctxs } = s))
      ∧ (e.phase ≠ 0 → ∃ t, exec (.siteTest c q unit) s = .next t ∧ (∀ y ∈ t.fence.testing, y.1 ≠ x)
          ∧ Reports s t c q (if unit = 0 then 0 else Status.siteTestFailed) (unit % 256)
          ∧ t.fence.fenced = (if unit = 0 ∧ bitOf (pw e 0) 8 = true then s.fence.fenced.filter (· ≠ x) else s.fence.fenced) ∧ t.mem = s.mem))

/-! ## Resets, boot, boundary scan, sideband (R455 to R461, R466 to R472) -/

/-- R426, R455 to R460, R466, R469, R470, R472: each reset keeps what its kind keeps and leaves its cause; a boot stage verifies its images, applies them and comes next, or
fails where both copies or the memory do; boundary-scan instructions and the sideband act only while the module is powered, driving ones only under
reset. -/
def Obligations.ResetsBootAndScanFollowThePins : Prop :=
  ∀ (s : State) (mv : Nat),
    (s.boot.off = true → 34000 ≤ mv → mv ≤ 48000 → ∃ t, exec (.powerOnReset mv) s = .next t ∧ t.power.vinNow = mv
        ∧ t.fence.bound = s.fence.bound ∧ t.sec.lifecycle = s.sec.lifecycle ∧ t.step.lastSealed = s.step.lastSealed ∧ t.ident = s.ident
        ∧ t.boot.off = !s.pins.modEn ∧ (s.pins.modEn = true → t.boot = {} ∧ t.mem = [] ∧ t.cores = [] ∧ t.time = 0))
    ∧ (∃ t, exec (.modEn false) s = .next t ∧ t.pins.modEn = false ∧ t.boot.off = true ∧ (s.boot.off = false → t.mem = [] ∧ t.cores = []))
    ∧ (s.boot.off = true → inputPresent s.power.vinNow = true → ∃ t, exec (.modEn true) s = .next t ∧ t.pins.modEn = true ∧ t.boot = {}
        ∧ t.mem = [] ∧ t.power.vinNow = s.power.vinNow ∧ t.sec.fw = s.sec.fw)
    ∧ (s.boot.off = false → s.pins.modReset = false → ∃ t, exec .modResetN s = .next t ∧ t.pins.modReset = true ∧ t.time = s.time
        ∧ t.boot.cause = (if s.boot.shutdown = true then 3 else 1) ∧ t.boot.held = true ∧ t.boot.stage = 0 ∧ (∀ l, ∃ v, getCore t l = { timeCopy := v })
        ∧ t.ctxs = []
        ∧ t.mem = (if s.boot.shutdown = true then [] else s.mem) ∧ t.sec.meas = s.sec.meas ∧ t.repair = s.repair)
    ∧ (sidebandUp s = true → s.boot.shutdown = false → ∃ t, exec .sidebandResetRequest s = .next t ∧ t.boot.cause = 2 ∧ t.mem = s.mem
        ∧ t.boot.stage = 0 ∧ (∀ l, ∃ v, getCore t l = { timeCopy := v }) ∧ t.time = s.time ∧ t.boot.held = s.pins.modReset)
    ∧ exec .modResetNRelease s = .next { s with pins := { s.pins with modReset := false }, boot := { s.boot with held := false } }
    ∧ (s.boot.off = false → s.boot.shutdown = false → s.boot.held = false → s.boot.failed = false → s.boot.ready = false → s.pins.modReset = false →
      s.sec.fw.length = 8 → s.sec.version.length = 8 →
      let n := nextStage s
      let ks := stageSubs n
      let img := fun (k : Nat) => (s.sec.fw.getD k ({}, {})).1
      (∀ bad other ok, (∀ k ∈ ks, copyPasses s k (img k) bad = true) → (ok = true ∨ ¬ (n = 4 ∨ n = 7 ∨ n = 9)) →
        ∃ t, exec (.bootStageComplete bad other ok) s = .next t ∧ t.boot.stage = n ∧ t.boot.failed = false ∧ t.sec.fw = s.sec.fw
          ∧ (∀ k ∈ ks, t.sec.version.getD k 0 = (img k).version) ∧ (n = 10 → t.boot.ready = true ∧ t.power.st = .idleLit ∧ t.power.autoIdle = true)
          ∧ (n = 7 → ∀ a, memB t a 1 = if inFast s a 1 then [0] else memB s a 1)
          ∧ (n = 8 → ∀ l ∈ boundCores s, (getCore t l).ucode = (img 5).version ∧ (getCore t l).libs = (some (img 6).version, some (img 7).version)))
      ∧ (∀ bad other ok k rest, ks = k :: rest → copyPasses s k (img k) bad = false → copyPasses s k (s.sec.fw.getD k ({}, {})).2 other = false →
        ∃ t, exec (.bootStageComplete bad other ok) s = .next t ∧ t.boot.failed = true ∧ t.boot.stage = n
          ∧ t.boot.failKind = (if k ≤ 2 then 3 else 1) ∧ t.sec = s.sec ∧ t.mem = s.mem)
      ∧ (∀ bad other k, ks = [k] → copyPasses s k (img k) bad = false → copyPasses s k (s.sec.fw.getD k ({}, {})).2 other = true →
        ∃ t, exec (.bootStageComplete bad other true) s = .next t ∧ t.boot.stage = n ∧ t.boot.failed = false
          ∧ t.sec.fw.getD k ({}, {}) = ((s.sec.fw.getD k ({}, {})).2, img k) ∧ t.sec.version.getD k 0 = (s.sec.fw.getD k ({}, {})).2.version)
      ∧ (∀ bad other, (∀ k ∈ ks, copyPasses s k (img k) bad = true) → (n = 4 ∨ n = 7 ∨ n = 9) →
        ∃ t, exec (.bootStageComplete bad other false) s = .next t ∧ t.boot.failed = true ∧ t.boot.stage = 4 ∧ t.boot.failKind = 2 ∧ t.mem = s.mem))
    ∧ (∀ row ∈ ([(.bypass, 0, 0), (.samplePreload, 2, 2), (.extest, 3, 0), (.clamp, 4, 0), (.highz, 5, 0)] : List (Instr × Nat × Nat)),
        exec row.1 s = .next (if s.boot.off = true then s
          else { s with pins := { s.pins with tap := if s.pins.modReset = true then row.2.1 else row.2.2 } }))
    ∧ (s.boot.off = false →
      (∃ t, exec .idcode s = .next t ∧ t.pins = { s.pins with tap := 1 } ∧ t.out = .tdo (idcodeWord s) :: s.out ∧ { t with pins := s.pins, out := s.out } = s)
      ∧ ∀ k, ∃ t, exec (.tapPrivateInstruction k) s = .next t ∧ { t with pins := s.pins, out := s.out, free := s.free } = s
          ∧ if bitOf s.sec.scopes 2 = true then t.pins.tap = 6 ∧ ∃ v, t.out = .tdo v :: s.out else t.pins.tap = 0 ∧ t.out = s.out)
    ∧ (sidebandUp s = true →
      (∀ a, exec (.entdaa a) s = .next { s with pins := { s.pins with i3cAddr := some (a % 128) }, out := .sideband (provisionedId s) [] :: s.out })
      ∧ (s.pins.i3cAddr.isSome = true → s.boot.failKind ≠ 3 → ∀ k < 5, exec (.mctpMessage k) s = .next { s with out := .sideband (sensor s k) [] :: s.out })
      ∧ (s.pins.i3cAddr.isSome = true → s.boot.failKind ≠ 3 → bitOf s.sec.scopes 1 = true → ∀ k, 5 ≤ k →
          ∃ t v, exec (.mctpMessage k) s = .next t ∧ t.out = .sideband v [] :: s.out ∧ { t with out := s.out, free := s.free } = s))

/-! ## Rules stated whole -/

/-- R78: after a completion record that has `NOTIFY` set or `SEVERITY` 2, the context's vector is raised when `MSIX_EN` is set: its message follows the record, or stays
pending at a masked vector; after any other record none is raised. -/
def Obligations.TheVectorFollowsTheRecord : Prop :=
  ∀ (s : State) (c : Nat) (r : Rec),
    let x := getCtx s c
    let due := x.msixEn && (r.notify || severity r.status = 2)
    let masked : Bool := (msixByte (getPort s x.owner) (16 * x.msixVec + 12)).toNat % 2 = 1
    let w := Output.hostWrite x.owner (x.ringBase + 32 * (x.written % 2 ^ x.ringLog2)) (recBytes c r (lapPhase x.written x.ringLog2))
    canMaster s x.owner = true →
    (due = true → masked = false → (writeRec s c r).out = .msix x.owner x.msixVec :: w :: s.out)
    ∧ (due = true → masked = true → (writeRec s c r).out = w :: s.out ∧ x.msixVec ∈ (getPort (writeRec s c r) x.owner).pba)
    ∧ (due = false → (writeRec s c r).out = w :: s.out ∧ (getPort (writeRec s c r) x.owner).pba = (getPort s x.owner).pba)

/-- R411: in DRAWN, a charge of class 4, 5 or 9 that passes the earlier checks is refused with `POWER_STATE_DRAWN`; one of class 0, 6, 7 or 8 is not refused for the
power state, and runs when the other checks pass. -/
def Obligations.DrawnRefusesByClass : Prop :=
  ∀ (s : State) (c : Nat) (before : List Entry) (e : Entry),
    let x := getCtx s c
    s.power.st = .drawn → nextQueued x = some (before, e) → bootGate s e.opcode = some 0 → held s c x e = false → mayDispatch x before e = true →
    e.reserved = false → definedOp e.opcode = true → (needsAdmin e.opcode = true → x.admin = true) →
    (opClass e.opcode ∈ [4, 5, 9] → ∃ t, exec (.chargeDispatch c {}) s = .next t
      ∧ { e with dispatched := true, port := chargePort s c, report := some (Status.powerStateDrawn, 0) } ∈ (getCtx t c).entries)
    ∧ (opClass e.opcode ∈ [0, 6, 7, 8] → lifecycleGate s e.opcode = 0 → e.opcode ≠ 0x001 → e.opcode ≠ 0x003 →
      ∃ t, exec (.chargeDispatch c {}) s = .next t
        ∧ { e with dispatched := true, port := chargePort s c, report := none } ∈ (getCtx t c).entries)

/-- R446: an addition that takes an accumulator of the open record to 2⁴⁰ − 1 holds it there and sets its `SAT` bit; the first such raises one event record for the
field; no other field of the record, and nothing else of the step, changes. -/
def Obligations.AccumulatorsHoldAtTheirLimit : Prop :=
  ∀ (s : State) (u k n : Nat) (r : PhaseRec) (rest : List PhaseRec), phasePeriod s = some u → s.tel.phases = r :: rest → r.fin = 0 → k < 3 →
    r.accs.length = 12 → u < 4 → 0 < n → 2 ^ 40 - 1 ≤ r.accs.getD (3 * u + k) 0 + n →
    let f := 3 * u + k
    let t := phaseAdd s k n
    ∃ y, t.tel.phases = y :: rest ∧ y.accs.getD f 0 = 2 ^ 40 - 1 ∧ bitOf y.sat f = true
      ∧ (∀ i, i ≠ f → y.accs.getD i 0 = r.accs.getD i 0 ∧ bitOf y.sat i = bitOf r.sat i)
      ∧ { y with accs := r.accs, sat := r.sat } = r ∧ { t with tel := s.tel } = s
      ∧ (bitOf r.sat f = true → t.tel.buffer = s.tel.buffer ∧ t.tel.eseq = s.tel.eseq)
      ∧ (bitOf r.sat f = false → s.tel.lostNow = 0 → s.tel.buffer.length < 4096 → ∃ v, t.tel.buffer = s.tel.buffer ++ [v]
          ∧ v.status = Status.phaseTimerSaturated ∧ v.valA = f ∧ v.where_ = r.step)

/-- R85: when a launch starts on a core, g1 to g8 hold its arguments, every other general register 0, every predicate but p0 false, and the program counter the entry
index; the scratchpad, the risers, both stores, and every runner for which no change of registers waits, are as they were. -/
def Obligations.LaunchesStartWithTheirArguments : Prop :=
  ∀ (s : State) (l : Nat) (i : Item), itemReady s l = some i → i.kind = .launch → i.args.length = 8 →
    let x := getCore s l
    ∃ t, exec (.workQueueItemStart l) s = .next t
      ∧ (∀ k, gReg (getCore t l) k = if 1 ≤ k ∧ k ≤ 8 then i.args.getD (k - 1) 0 else 0)
      ∧ (∀ k, pReg (getCore t l) k = decide (k = 0)) ∧ (getCore t l).pc = i.entry
      ∧ (getCore t l).scratch = x.scratch ∧ (getCore t l).risers = x.risers ∧ (getCore t l).instr = x.instr ∧ (getCore t l).tables = x.tables
      ∧ ∀ n < 32, (getRunner s l n).cfgNew = none → (getRunner s l n).spillNew = none →
          ((getRunner s l n).enabled = true → (getRunner s l n).isSpill = true) →
          getRunner t l n = getRunner s l n

namespace Sys2Proof.Claims

/-- The status tables of R110, R139, R166, R183, R201, R220, R248, R301, R328, R354, R454, R467: the values of a chapter from its first on, each a failure (true) or
a warning. -/
def statusRows : List (Nat × List (Nat × Bool)) :=
  [(0x0100, [(Status.salfelIllegal, true), (Status.salfelAlign, true), (Status.salfelAddress, true), (Status.salfelTrap, true),
      (Status.coreWithdrawn, true), (Status.coreMaskEmpty, true), (Status.progLoadRange, true)]),
   (0x0200, [(Status.arrayCheckTransient, false), (Status.arrayCheckLasting, true), (Status.arrayCheckRounding, false), (Status.arrayDescInvalid, true),
      (Status.arrayFormatPair, true), (Status.arrayAccRange, true), (Status.arrayOperandRange, true), (Status.accUncorrectable, true)]),
   (0x0300, [(Status.arithSettingInvalid, true)]),
   (0x0400, [(Status.vecDescInvalid, true), (Status.vecFormat, true), (Status.vecOperandRange, true), (Status.vecTableInvalid, true)]),
   (0x0500, [(Status.scratchRegion, true), (Status.scratchUncorrectable, true), (Status.scratchAtomicSaturated, false)]),
   (0x0600, [(Status.runnerPointerFault, true), (Status.runnerDisabled, true), (Status.runnerConfigInvalid, true), (Status.runnerRemoteRefused, true),
      (Status.runnerRemoteFull, true), (Status.riserLap, true), (Status.riserSaturated, true), (Status.riserSignalInvalid, true)]),
   (0x0700, [(Status.moveDescInvalid, true), (Status.moveTargetInvalid, true), (Status.moveOverlap, true), (Status.memLasting, true),
      (Status.memRetryTransient, false), (Status.gatherIndexRange, false), (Status.repairNoSpare, true), (Status.repairTargetInvalid, true)]),
   (0x0900, [(Status.routeUnreachable, true), (Status.routeEpochStale, true), (Status.routeTableInvalid, true), (Status.routeEpochOrder, true),
      (Status.routeEpochBusy, true), (Status.mcastTreeInvalid, true), (Status.mcastTreeMismatch, true), (Status.shotFencedDrop, true)]),
   (0x0A00, [(Status.collGroupUndefined, true), (Status.collGroupInvalid, true), (Status.collGroupBusy, true), (Status.collNotMember, true),
      (Status.collDescInvalid, true), (Status.collSequence, true), (Status.collShapeMismatch, true), (Status.collA2aOverflow, true),
      (Status.collStalled, true), (Status.linkLost, true)]),
   (0x0B00, [(Status.stashSpilled, false), (Status.stashExhausted, true), (Status.stashPlanInvalid, true), (Status.gradFormatChanged, false),
      (Status.gradFp16Saturated, false)]),
   (0x1000, [(Status.phaseTimerSaturated, false), (Status.drossRecorded, false), (Status.eventRingOverflow, false), (Status.eventRingInvalid, true)]),
   (0x1100, [(Status.memTrainFailed, true), (Status.testBusy, true), (Status.testTargetInvalid, true), (Status.testPreempted, true),
      (Status.siteTestFailed, true), (Status.fenceNoReserve, true), (Status.stepStateLost, false)])]

end Sys2Proof.Claims

/-- R110, R139, R166, R183, R201, R220, R248, R301, R328, R354, R454, R467: the values of these status tables follow one another in the table's order, and each has the
severity of its kind: 1 for a warning, 2 for a failure. -/
def Obligations.StatusesHaveTheirValuesAndKinds : Prop :=
  ∀ row ∈ statusRows, ∀ k v bad, row.2[k]? = some (v, bad) → v = row.1 + k ∧ severity v = if bad = true then 2 else 1
end

