-- ==== Sys2Proof/Laws/Tab.lean ====
section
/-! SUPPORT. Sparse tables: reading after writing, and the canonical form that every write keeps. -/

namespace Sys2Proof.Machine

variable {β : Type}

theorem tget_tput_same (d : β) (t : Tab β) (i : Nat) (v : β) : tget d (tput t i v) i = v := by
  induction t with
  | nil => simp [tput, tget]
  | cons e r ih =>
    obtain ⟨k, w⟩ := e
    by_cases h : i < k
    · simp [tput, tget, h]
    · by_cases h2 : k = i
      · simp [tput, tget, h2]
      · simp [tput, tget, h, h2, ih]

theorem tget_tput_ne (d : β) (t : Tab β) {i j : Nat} (h : j ≠ i) (v : β) : tget d (tput t i v) j = tget d t j := by
  have h' : i ≠ j := fun e => h e.symm
  induction t with
  | nil => simp [tput, tget, h']
  | cons e r ih =>
    obtain ⟨k, w⟩ := e
    by_cases h1 : i < k
    · simp [tput, tget, h1, h']
    · by_cases h2 : k = i
      · subst h2; simp [tput, tget, h']
      · simp [tput, tget, h1, h2, ih]

theorem tput_tput (t : Tab β) (i : Nat) (v w : β) : tput (tput t i v) i w = tput t i w := by
  induction t with
  | nil => simp [tput]
  | cons e r ih =>
    obtain ⟨k, u⟩ := e
    by_cases h1 : i < k
    · simp [tput, h1]
    · by_cases h2 : k = i
      · subst h2; simp [tput]
      · simp [tput, h1, h2, ih]

theorem tget_filter_ne (d : β) (t : Tab β) (i : Nat) : tget d (t.filter (fun e => e.1 != i)) i = d := by
  induction t with
  | nil => rfl
  | cons e r ih =>
    obtain ⟨k, u⟩ := e
    by_cases h : k = i
    · simp [h, ih]
    · rw [List.filter_cons_of_pos (by simp [h])]; simp [tget, h, ih]

theorem tget_filter_other (d : β) (t : Tab β) {i j : Nat} (h : j ≠ i) :
    tget d (t.filter (fun e => e.1 != i)) j = tget d t j := by
  induction t with
  | nil => rfl
  | cons e r ih =>
    obtain ⟨k, u⟩ := e
    by_cases h1 : k = i
    · subst h1; simp [tget, ih, Ne.symm h]
    · rw [List.filter_cons_of_pos (by simp [h1])]; simp only [tget, ih]

theorem tget_tset_same [DecidableEq β] (d : β) (t : Tab β) (i : Nat) (v : β) : tget d (tset d t i v) i = v := by
  by_cases h : v = d
  · simp [tset, h, tget_filter_ne]
  · simp [tset, h, tget_tput_same]

theorem tget_tset_ne [DecidableEq β] (d : β) (t : Tab β) {i j : Nat} (h : j ≠ i) (v : β) :
    tget d (tset d t i v) j = tget d t j := by
  by_cases h1 : v = d
  · simp [tset, h1, tget_filter_other d t h]
  · simp [tset, h1, tget_tput_ne d t h]

/-! ## The canonical form -/

theorem mem_keys_tput (t : Tab β) (i : Nat) (v : β) (k : Nat) :
    k ∈ (tput t i v).map Prod.fst → k = i ∨ k ∈ t.map Prod.fst := by
  induction t with
  | nil => simp [tput]
  | cons e r ih =>
    obtain ⟨j, u⟩ := e
    by_cases h1 : i < j
    · simp [tput, h1]
    · by_cases h2 : j = i
      · subst h2; simp [tput]
      · simp only [tput, h1, h2, if_false, List.map_cons, List.mem_cons]
        rintro (rfl | h)
        · exact .inr (.inl rfl)
        · rcases ih h with h | h
          · exact .inl h
          · exact .inr (.inr h)

theorem keys_rise_tput (t : Tab β) (i : Nat) (v : β) (h : (t.map Prod.fst).Pairwise (· < ·)) :
    ((tput t i v).map Prod.fst).Pairwise (· < ·) := by
  induction t with
  | nil => simp [tput]
  | cons e r ih =>
    obtain ⟨j, u⟩ := e
    simp only [List.map_cons, List.pairwise_cons] at h
    by_cases h1 : i < j
    · simp only [tput, h1, if_true, List.map_cons, List.pairwise_cons, List.mem_cons]
      refine ⟨?_, h⟩
      rintro k (rfl | hk)
      · exact h1
      · exact Nat.lt_trans h1 (h.1 k hk)
    · by_cases h2 : j = i
      · subst h2; simpa [tput] using h
      · simp only [tput, h1, h2, if_false, List.map_cons, List.pairwise_cons]
        refine ⟨fun k hk => ?_, ih h.2⟩
        rcases mem_keys_tput r i v k hk with rfl | hk
        · omega
        · exact h.1 k hk

theorem tabWf_tset [DecidableEq β] (d : β) (t : Tab β) (i : Nat) (v : β) (h : tabWf d t = true) : tabWf d (tset d t i v) = true := by
  simp only [tabWf, Bool.and_eq_true, decide_eq_true_eq, List.all_eq_true] at h ⊢
  by_cases hv : v = d
  · simp only [tset, hv, if_true]
    refine ⟨?_, fun e he => h.2 e (List.mem_of_mem_filter he)⟩
    exact List.Pairwise.sublist (List.Sublist.map _ List.filter_sublist) h.1
  · simp only [tset, hv, if_false]
    refine ⟨keys_rise_tput t i v h.1, ?_⟩
    have hd := h.2
    clear h
    induction t with
    | nil => simp [tput, hv]
    | cons e r ih =>
      obtain ⟨j, u⟩ := e
      simp only [List.mem_cons, forall_eq_or_imp] at hd
      by_cases h1 : i < j
      · simp only [tput, h1, if_true, List.mem_cons, forall_eq_or_imp]
        exact ⟨by simp [hv], hd.1, hd.2⟩
      · by_cases h2 : j = i
        · subst h2
          simp only [tput, Nat.lt_irrefl, if_false, if_true, List.mem_cons, forall_eq_or_imp]
          exact ⟨by simp [hv], hd.2⟩
        · simp only [tput, h1, h2, if_false, List.mem_cons, forall_eq_or_imp]
          exact ⟨hd.1, ih hd.2⟩

theorem tabWf_filter [DecidableEq β] (d : β) (t : Tab β) (p : Nat × β → Bool) (h : tabWf d t = true) :
    tabWf d (t.filter p) = true := by
  simp only [tabWf, Bool.and_eq_true, decide_eq_true_eq, List.all_eq_true] at h ⊢
  exact ⟨List.Pairwise.sublist (List.Sublist.map _ List.filter_sublist) h.1, fun e he => h.2 e (List.mem_of_mem_filter he)⟩

/-! ## Bytes -/

theorem tabWf_writeB (t : Tab Byte) (a : Nat) (d : List Byte) (h : tabWf 0 t = true) : tabWf 0 (writeB t a d) = true := by
  induction d generalizing t a with
  | nil => exact h
  | cons b r ih => exact ih _ _ (tabWf_tset 0 t a b h)

theorem tget_writeB_outside (t : Tab Byte) (a : Nat) (d : List Byte) (i : Nat) (h : i < a ∨ a + d.length ≤ i) :
    tget 0 (writeB t a d) i = tget 0 t i := by
  induction d generalizing t a with
  | nil => rfl
  | cons b r ih =>
    simp only [List.length_cons] at h
    rw [writeB, ih _ _ (by omega), tget_tset_ne _ _ (by omega)]

theorem tget_writeB_inside (t : Tab Byte) (a : Nat) (d : List Byte) (k : Nat) (h : k < d.length) :
    tget 0 (writeB t a d) (a + k) = d.getD k 0 := by
  induction d generalizing t a k with
  | nil => simp at h
  | cons b r ih =>
    cases k with
    | zero =>
      have := tget_tset_same 0 t a b
      rw [writeB, tget_writeB_outside _ _ _ _ (by omega)]; simpa using this
    | succ k =>
      simp only [List.length_cons] at h
      have := ih (tset 0 t a b) (a + 1) k (by omega)
      rw [writeB, show a + (k + 1) = a + 1 + k by omega, this]; rfl

theorem length_readB (t : Tab Byte) (a n : Nat) : (readB t a n).length = n := by simp [readB]

/-- What was written is read back. -/
theorem readB_writeB (t : Tab Byte) (a : Nat) (d : List Byte) : readB (writeB t a d) a d.length = d := by
  apply List.ext_getElem (by simp [readB])
  intro i h1 h2
  have h3 : i < d.length := by simpa [readB] using h1
  simp only [readB, List.getElem_map, List.getElem_range]
  rw [tget_writeB_inside t a d i h3]
  simp [List.getD, List.getElem?_eq_getElem h3]

theorem readB_writeB_disjoint (t : Tab Byte) (a b n : Nat) (d : List Byte) (h : b + n ≤ a ∨ a + d.length ≤ b) :
    readB (writeB t a d) b n = readB t b n := by
  simp only [readB]
  apply List.map_congr_left
  intro i hi
  have := List.mem_range.mp hi
  exact tget_writeB_outside t a d (b + i) (by omega)

theorem length_toLE (n w : Nat) : (toLE n w).length = n := by
  induction n generalizing w with
  | zero => rfl
  | succ n ih => simp [toLE, ih]

theorem leNat_toLE (n w : Nat) : leNat (toLE n w) = w % 256 ^ n := by
  induction n generalizing w with
  | zero => simp [toLE, leNat, Nat.mod_one]
  | succ n ih =>
    simp only [toLE, leNat, ih, BitVec.toNat_ofNat]
    have h := Nat.mod_mul (x := w) (a := 256) (b := 256 ^ n)
    rw [show 256 ^ (n + 1) = 256 * 256 ^ n by ring]
    exact h.symm

end Sys2Proof.Machine
end

