-- ==== Sys2Proof/Laws/State.lean ====
section
/-! SUPPORT. The named updates of the state, field by field: what each leaves as it was, and what reads back. -/

namespace Sys2Proof.Machine

/-! ## Read back -/

@[simp] theorem getCtx_setCtx (s : State) (c : Nat) (x : Ctx) : getCtx (setCtx s c x) c = x := tget_tput_same _ _ _ _
theorem getCtx_setCtx_ne (s : State) {c d : Nat} (h : d ≠ c) (x : Ctx) : getCtx (setCtx s c x) d = getCtx s d := tget_tput_ne _ _ h _
@[simp] theorem getCore_setCore (s : State) (l : Nat) (x : Core) : getCore (setCore s l x) l = x := tget_tput_same _ _ _ _
theorem getCore_setCore_ne (s : State) {l m : Nat} (h : m ≠ l) (x : Core) : getCore (setCore s l x) m = getCore s m := tget_tput_ne _ _ h _
@[simp] theorem getLink_setLink (s : State) (n : Nat) (x : Link) : getLink (setLink s n x) n = x := tget_tput_same _ _ _ _
theorem getLink_setLink_ne (s : State) {n m : Nat} (h : m ≠ n) (x : Link) : getLink (setLink s n x) m = getLink s m := tget_tput_ne _ _ h _
@[simp] theorem getLPort_setLPort (s : State) (p : Nat) (x : LPort) : getLPort (setLPort s p x) p = x := tget_tput_same _ _ _ _
theorem getLPort_setLPort_ne (s : State) {p q : Nat} (h : q ≠ p) (x : LPort) : getLPort (setLPort s p x) q = getLPort s q :=
  tget_tput_ne _ _ h _
@[simp] theorem getPort_setPort (s : State) (p : HostPort) (x : Port) : getPort (setPort s p x) p = x := by cases p <;> rfl
@[simp] theorem setCore_setCore (s : State) (l : Nat) (x y : Core) : setCore (setCore s l x) l y = setCore s l y := by
  simp [setCore, tput_tput]
@[simp] theorem setCtx_setCtx (s : State) (c : Nat) (x y : Ctx) : setCtx (setCtx s c x) c y = setCtx s c y := by
  simp [setCtx, tput_tput]
@[simp] theorem getCore_modCore (s : State) (l : Nat) (f : Core → Core) : getCore (modCore s l f) l = f (getCore s l) := getCore_setCore _ _ _
theorem getCore_modCore_ne (s : State) {l m : Nat} (h : m ≠ l) (f : Core → Core) : getCore (modCore s l f) m = getCore s m :=
  getCore_setCore_ne _ h _
@[simp] theorem getCtx_modCtx (s : State) (c : Nat) (f : Ctx → Ctx) : getCtx (modCtx s c f) c = f (getCtx s c) := getCtx_setCtx _ _ _
@[simp] theorem emit_out (s : State) (o : Output) : (emit s o).out = o :: s.out := rfl
@[simp] theorem bumpFree_free (s : State) : (bumpFree s).free = s.free + 1 := rfl

/-! ## Fields that stay -/

@[simp] theorem setCtx_pending (s : State) (c : Nat) (x : Ctx) : (setCtx s c x).pending = s.pending := rfl
@[simp] theorem setCtx_ident (s : State) (c : Nat) (x : Ctx) : (setCtx s c x).ident = s.ident := rfl
@[simp] theorem setCtx_boot (s : State) (c : Nat) (x : Ctx) : (setCtx s c x).boot = s.boot := rfl
@[simp] theorem setCtx_pins (s : State) (c : Nat) (x : Ctx) : (setCtx s c x).pins = s.pins := rfl
@[simp] theorem setCtx_time (s : State) (c : Nat) (x : Ctx) : (setCtx s c x).time = s.time := rfl
@[simp] theorem setCtx_osc (s : State) (c : Nat) (x : Ctx) : (setCtx s c x).osc = s.osc := rfl
@[simp] theorem setCtx_oscPs (s : State) (c : Nat) (x : Ctx) : (setCtx s c x).oscPs = s.oscPs := rfl
@[simp] theorem setCtx_fabA (s : State) (c : Nat) (x : Ctx) : (setCtx s c x).fabA = s.fabA := rfl
@[simp] theorem setCtx_fabB (s : State) (c : Nat) (x : Ctx) : (setCtx s c x).fabB = s.fabB := rfl
@[simp] theorem setCtx_fabWin (s : State) (c : Nat) (x : Ctx) : (setCtx s c x).fabWin = s.fabWin := rfl
@[simp] theorem setCtx_portA (s : State) (c : Nat) (x : Ctx) : (setCtx s c x).portA = s.portA := rfl
@[simp] theorem setCtx_portB (s : State) (c : Nat) (x : Ctx) : (setCtx s c x).portB = s.portB := rfl
@[simp] theorem setCtx_cores (s : State) (c : Nat) (x : Ctx) : (setCtx s c x).cores = s.cores := rfl
@[simp] theorem setCtx_mem (s : State) (c : Nat) (x : Ctx) : (setCtx s c x).mem = s.mem := rfl
@[simp] theorem setCtx_poison (s : State) (c : Nat) (x : Ctx) : (setCtx s c x).poison = s.poison := rfl
@[simp] theorem setCtx_seed (s : State) (c : Nat) (x : Ctx) : (setCtx s c x).seed = s.seed := rfl
@[simp] theorem setCtx_astep (s : State) (c : Nat) (x : Ctx) : (setCtx s c x).astep = s.astep := rfl
@[simp] theorem setCtx_thr (s : State) (c : Nat) (x : Ctx) : (setCtx s c x).thr = s.thr := rfl
@[simp] theorem setCtx_links (s : State) (c : Nat) (x : Ctx) : (setCtx s c x).links = s.links := rfl
@[simp] theorem setCtx_lports (s : State) (c : Nat) (x : Ctx) : (setCtx s c x).lports = s.lports := rfl
@[simp] theorem setCtx_protoLevel (s : State) (c : Nat) (x : Ctx) : (setCtx s c x).protoLevel = s.protoLevel := rfl
@[simp] theorem setCtx_protoMin (s : State) (c : Nat) (x : Ctx) : (setCtx s c x).protoMin = s.protoMin := rfl
@[simp] theorem setCtx_protoVer (s : State) (c : Nat) (x : Ctx) : (setCtx s c x).protoVer = s.protoVer := rfl
@[simp] theorem setCtx_map (s : State) (c : Nat) (x : Ctx) : (setCtx s c x).map = s.map := rfl
@[simp] theorem setCtx_route (s : State) (c : Nat) (x : Ctx) : (setCtx s c x).route = s.route := rfl
@[simp] theorem setCtx_groups (s : State) (c : Nat) (x : Ctx) : (setCtx s c x).groups = s.groups := rfl
@[simp] theorem setCtx_colls (s : State) (c : Nat) (x : Ctx) : (setCtx s c x).colls = s.colls := rfl
@[simp] theorem setCtx_ends (s : State) (c : Nat) (x : Ctx) : (setCtx s c x).ends = s.ends := rfl
@[simp] theorem setCtx_rings (s : State) (c : Nat) (x : Ctx) : (setCtx s c x).rings = s.rings := rfl
@[simp] theorem setCtx_mail (s : State) (c : Nat) (x : Ctx) : (setCtx s c x).mail = s.mail := rfl
@[simp] theorem setCtx_step (s : State) (c : Nat) (x : Ctx) : (setCtx s c x).step = s.step := rfl
@[simp] theorem setCtx_twin (s : State) (c : Nat) (x : Ctx) : (setCtx s c x).twin = s.twin := rfl
@[simp] theorem setCtx_journal (s : State) (c : Nat) (x : Ctx) : (setCtx s c x).journal = s.journal := rfl
@[simp] theorem setCtx_fence (s : State) (c : Nat) (x : Ctx) : (setCtx s c x).fence = s.fence := rfl
@[simp] theorem setCtx_power (s : State) (c : Nat) (x : Ctx) : (setCtx s c x).power = s.power := rfl
@[simp] theorem setCtx_sec (s : State) (c : Nat) (x : Ctx) : (setCtx s c x).sec = s.sec := rfl
@[simp] theorem setCtx_tel (s : State) (c : Nat) (x : Ctx) : (setCtx s c x).tel = s.tel := rfl
@[simp] theorem setCtx_repair (s : State) (c : Nat) (x : Ctx) : (setCtx s c x).repair = s.repair := rfl
@[simp] theorem setCtx_bridgeA (s : State) (c : Nat) (x : Ctx) : (setCtx s c x).bridgeA = s.bridgeA := rfl
@[simp] theorem setCtx_bridgeB (s : State) (c : Nat) (x : Ctx) : (setCtx s c x).bridgeB = s.bridgeB := rfl
@[simp] theorem setCtx_out (s : State) (c : Nat) (x : Ctx) : (setCtx s c x).out = s.out := rfl
@[simp] theorem setCtx_free (s : State) (c : Nat) (x : Ctx) : (setCtx s c x).free = s.free := rfl

@[simp] theorem modCtx_pending (s : State) (c : Nat) (f : Ctx → Ctx) : (modCtx s c f).pending = s.pending := rfl
@[simp] theorem modCtx_ident (s : State) (c : Nat) (f : Ctx → Ctx) : (modCtx s c f).ident = s.ident := rfl
@[simp] theorem modCtx_boot (s : State) (c : Nat) (f : Ctx → Ctx) : (modCtx s c f).boot = s.boot := rfl
@[simp] theorem modCtx_pins (s : State) (c : Nat) (f : Ctx → Ctx) : (modCtx s c f).pins = s.pins := rfl
@[simp] theorem modCtx_time (s : State) (c : Nat) (f : Ctx → Ctx) : (modCtx s c f).time = s.time := rfl
@[simp] theorem modCtx_osc (s : State) (c : Nat) (f : Ctx → Ctx) : (modCtx s c f).osc = s.osc := rfl
@[simp] theorem modCtx_oscPs (s : State) (c : Nat) (f : Ctx → Ctx) : (modCtx s c f).oscPs = s.oscPs := rfl
@[simp] theorem modCtx_fabA (s : State) (c : Nat) (f : Ctx → Ctx) : (modCtx s c f).fabA = s.fabA := rfl
@[simp] theorem modCtx_fabB (s : State) (c : Nat) (f : Ctx → Ctx) : (modCtx s c f).fabB = s.fabB := rfl
@[simp] theorem modCtx_fabWin (s : State) (c : Nat) (f : Ctx → Ctx) : (modCtx s c f).fabWin = s.fabWin := rfl
@[simp] theorem modCtx_portA (s : State) (c : Nat) (f : Ctx → Ctx) : (modCtx s c f).portA = s.portA := rfl
@[simp] theorem modCtx_portB (s : State) (c : Nat) (f : Ctx → Ctx) : (modCtx s c f).portB = s.portB := rfl
@[simp] theorem modCtx_cores (s : State) (c : Nat) (f : Ctx → Ctx) : (modCtx s c f).cores = s.cores := rfl
@[simp] theorem modCtx_mem (s : State) (c : Nat) (f : Ctx → Ctx) : (modCtx s c f).mem = s.mem := rfl
@[simp] theorem modCtx_poison (s : State) (c : Nat) (f : Ctx → Ctx) : (modCtx s c f).poison = s.poison := rfl
@[simp] theorem modCtx_seed (s : State) (c : Nat) (f : Ctx → Ctx) : (modCtx s c f).seed = s.seed := rfl
@[simp] theorem modCtx_astep (s : State) (c : Nat) (f : Ctx → Ctx) : (modCtx s c f).astep = s.astep := rfl
@[simp] theorem modCtx_thr (s : State) (c : Nat) (f : Ctx → Ctx) : (modCtx s c f).thr = s.thr := rfl
@[simp] theorem modCtx_links (s : State) (c : Nat) (f : Ctx → Ctx) : (modCtx s c f).links = s.links := rfl
@[simp] theorem modCtx_lports (s : State) (c : Nat) (f : Ctx → Ctx) : (modCtx s c f).lports = s.lports := rfl
@[simp] theorem modCtx_protoLevel (s : State) (c : Nat) (f : Ctx → Ctx) : (modCtx s c f).protoLevel = s.protoLevel := rfl
@[simp] theorem modCtx_protoMin (s : State) (c : Nat) (f : Ctx → Ctx) : (modCtx s c f).protoMin = s.protoMin := rfl
@[simp] theorem modCtx_protoVer (s : State) (c : Nat) (f : Ctx → Ctx) : (modCtx s c f).protoVer = s.protoVer := rfl
@[simp] theorem modCtx_map (s : State) (c : Nat) (f : Ctx → Ctx) : (modCtx s c f).map = s.map := rfl
@[simp] theorem modCtx_route (s : State) (c : Nat) (f : Ctx → Ctx) : (modCtx s c f).route = s.route := rfl
@[simp] theorem modCtx_groups (s : State) (c : Nat) (f : Ctx → Ctx) : (modCtx s c f).groups = s.groups := rfl
@[simp] theorem modCtx_colls (s : State) (c : Nat) (f : Ctx → Ctx) : (modCtx s c f).colls = s.colls := rfl
@[simp] theorem modCtx_ends (s : State) (c : Nat) (f : Ctx → Ctx) : (modCtx s c f).ends = s.ends := rfl
@[simp] theorem modCtx_rings (s : State) (c : Nat) (f : Ctx → Ctx) : (modCtx s c f).rings = s.rings := rfl
@[simp] theorem modCtx_mail (s : State) (c : Nat) (f : Ctx → Ctx) : (modCtx s c f).mail = s.mail := rfl
@[simp] theorem modCtx_step (s : State) (c : Nat) (f : Ctx → Ctx) : (modCtx s c f).step = s.step := rfl
@[simp] theorem modCtx_twin (s : State) (c : Nat) (f : Ctx → Ctx) : (modCtx s c f).twin = s.twin := rfl
@[simp] theorem modCtx_journal (s : State) (c : Nat) (f : Ctx → Ctx) : (modCtx s c f).journal = s.journal := rfl
@[simp] theorem modCtx_fence (s : State) (c : Nat) (f : Ctx → Ctx) : (modCtx s c f).fence = s.fence := rfl
@[simp] theorem modCtx_power (s : State) (c : Nat) (f : Ctx → Ctx) : (modCtx s c f).power = s.power := rfl
@[simp] theorem modCtx_sec (s : State) (c : Nat) (f : Ctx → Ctx) : (modCtx s c f).sec = s.sec := rfl
@[simp] theorem modCtx_tel (s : State) (c : Nat) (f : Ctx → Ctx) : (modCtx s c f).tel = s.tel := rfl
@[simp] theorem modCtx_repair (s : State) (c : Nat) (f : Ctx → Ctx) : (modCtx s c f).repair = s.repair := rfl
@[simp] theorem modCtx_bridgeA (s : State) (c : Nat) (f : Ctx → Ctx) : (modCtx s c f).bridgeA = s.bridgeA := rfl
@[simp] theorem modCtx_bridgeB (s : State) (c : Nat) (f : Ctx → Ctx) : (modCtx s c f).bridgeB = s.bridgeB := rfl
@[simp] theorem modCtx_out (s : State) (c : Nat) (f : Ctx → Ctx) : (modCtx s c f).out = s.out := rfl
@[simp] theorem modCtx_free (s : State) (c : Nat) (f : Ctx → Ctx) : (modCtx s c f).free = s.free := rfl

@[simp] theorem setCore_pending (s : State) (l : Nat) (x : Core) : (setCore s l x).pending = s.pending := rfl
@[simp] theorem setCore_ident (s : State) (l : Nat) (x : Core) : (setCore s l x).ident = s.ident := rfl
@[simp] theorem setCore_boot (s : State) (l : Nat) (x : Core) : (setCore s l x).boot = s.boot := rfl
@[simp] theorem setCore_pins (s : State) (l : Nat) (x : Core) : (setCore s l x).pins = s.pins := rfl
@[simp] theorem setCore_time (s : State) (l : Nat) (x : Core) : (setCore s l x).time = s.time := rfl
@[simp] theorem setCore_osc (s : State) (l : Nat) (x : Core) : (setCore s l x).osc = s.osc := rfl
@[simp] theorem setCore_oscPs (s : State) (l : Nat) (x : Core) : (setCore s l x).oscPs = s.oscPs := rfl
@[simp] theorem setCore_fabA (s : State) (l : Nat) (x : Core) : (setCore s l x).fabA = s.fabA := rfl
@[simp] theorem setCore_fabB (s : State) (l : Nat) (x : Core) : (setCore s l x).fabB = s.fabB := rfl
@[simp] theorem setCore_fabWin (s : State) (l : Nat) (x : Core) : (setCore s l x).fabWin = s.fabWin := rfl
@[simp] theorem setCore_portA (s : State) (l : Nat) (x : Core) : (setCore s l x).portA = s.portA := rfl
@[simp] theorem setCore_portB (s : State) (l : Nat) (x : Core) : (setCore s l x).portB = s.portB := rfl
@[simp] theorem setCore_ctxs (s : State) (l : Nat) (x : Core) : (setCore s l x).ctxs = s.ctxs := rfl
@[simp] theorem setCore_mem (s : State) (l : Nat) (x : Core) : (setCore s l x).mem = s.mem := rfl
@[simp] theorem setCore_poison (s : State) (l : Nat) (x : Core) : (setCore s l x).poison = s.poison := rfl
@[simp] theorem setCore_seed (s : State) (l : Nat) (x : Core) : (setCore s l x).seed = s.seed := rfl
@[simp] theorem setCore_astep (s : State) (l : Nat) (x : Core) : (setCore s l x).astep = s.astep := rfl
@[simp] theorem setCore_thr (s : State) (l : Nat) (x : Core) : (setCore s l x).thr = s.thr := rfl
@[simp] theorem setCore_links (s : State) (l : Nat) (x : Core) : (setCore s l x).links = s.links := rfl
@[simp] theorem setCore_lports (s : State) (l : Nat) (x : Core) : (setCore s l x).lports = s.lports := rfl
@[simp] theorem setCore_protoLevel (s : State) (l : Nat) (x : Core) : (setCore s l x).protoLevel = s.protoLevel := rfl
@[simp] theorem setCore_protoMin (s : State) (l : Nat) (x : Core) : (setCore s l x).protoMin = s.protoMin := rfl
@[simp] theorem setCore_protoVer (s : State) (l : Nat) (x : Core) : (setCore s l x).protoVer = s.protoVer := rfl
@[simp] theorem setCore_map (s : State) (l : Nat) (x : Core) : (setCore s l x).map = s.map := rfl
@[simp] theorem setCore_route (s : State) (l : Nat) (x : Core) : (setCore s l x).route = s.route := rfl
@[simp] theorem setCore_groups (s : State) (l : Nat) (x : Core) : (setCore s l x).groups = s.groups := rfl
@[simp] theorem setCore_colls (s : State) (l : Nat) (x : Core) : (setCore s l x).colls = s.colls := rfl
@[simp] theorem setCore_ends (s : State) (l : Nat) (x : Core) : (setCore s l x).ends = s.ends := rfl
@[simp] theorem setCore_rings (s : State) (l : Nat) (x : Core) : (setCore s l x).rings = s.rings := rfl
@[simp] theorem setCore_mail (s : State) (l : Nat) (x : Core) : (setCore s l x).mail = s.mail := rfl
@[simp] theorem setCore_step (s : State) (l : Nat) (x : Core) : (setCore s l x).step = s.step := rfl
@[simp] theorem setCore_twin (s : State) (l : Nat) (x : Core) : (setCore s l x).twin = s.twin := rfl
@[simp] theorem setCore_journal (s : State) (l : Nat) (x : Core) : (setCore s l x).journal = s.journal := rfl
@[simp] theorem setCore_fence (s : State) (l : Nat) (x : Core) : (setCore s l x).fence = s.fence := rfl
@[simp] theorem setCore_power (s : State) (l : Nat) (x : Core) : (setCore s l x).power = s.power := rfl
@[simp] theorem setCore_sec (s : State) (l : Nat) (x : Core) : (setCore s l x).sec = s.sec := rfl
@[simp] theorem setCore_tel (s : State) (l : Nat) (x : Core) : (setCore s l x).tel = s.tel := rfl
@[simp] theorem setCore_repair (s : State) (l : Nat) (x : Core) : (setCore s l x).repair = s.repair := rfl
@[simp] theorem setCore_bridgeA (s : State) (l : Nat) (x : Core) : (setCore s l x).bridgeA = s.bridgeA := rfl
@[simp] theorem setCore_bridgeB (s : State) (l : Nat) (x : Core) : (setCore s l x).bridgeB = s.bridgeB := rfl
@[simp] theorem setCore_out (s : State) (l : Nat) (x : Core) : (setCore s l x).out = s.out := rfl
@[simp] theorem setCore_free (s : State) (l : Nat) (x : Core) : (setCore s l x).free = s.free := rfl

@[simp] theorem modCore_pending (s : State) (l : Nat) (f : Core → Core) : (modCore s l f).pending = s.pending := rfl
@[simp] theorem modCore_ident (s : State) (l : Nat) (f : Core → Core) : (modCore s l f).ident = s.ident := rfl
@[simp] theorem modCore_boot (s : State) (l : Nat) (f : Core → Core) : (modCore s l f).boot = s.boot := rfl
@[simp] theorem modCore_pins (s : State) (l : Nat) (f : Core → Core) : (modCore s l f).pins = s.pins := rfl
@[simp] theorem modCore_time (s : State) (l : Nat) (f : Core → Core) : (modCore s l f).time = s.time := rfl
@[simp] theorem modCore_osc (s : State) (l : Nat) (f : Core → Core) : (modCore s l f).osc = s.osc := rfl
@[simp] theorem modCore_oscPs (s : State) (l : Nat) (f : Core → Core) : (modCore s l f).oscPs = s.oscPs := rfl
@[simp] theorem modCore_fabA (s : State) (l : Nat) (f : Core → Core) : (modCore s l f).fabA = s.fabA := rfl
@[simp] theorem modCore_fabB (s : State) (l : Nat) (f : Core → Core) : (modCore s l f).fabB = s.fabB := rfl
@[simp] theorem modCore_fabWin (s : State) (l : Nat) (f : Core → Core) : (modCore s l f).fabWin = s.fabWin := rfl
@[simp] theorem modCore_portA (s : State) (l : Nat) (f : Core → Core) : (modCore s l f).portA = s.portA := rfl
@[simp] theorem modCore_portB (s : State) (l : Nat) (f : Core → Core) : (modCore s l f).portB = s.portB := rfl
@[simp] theorem modCore_ctxs (s : State) (l : Nat) (f : Core → Core) : (modCore s l f).ctxs = s.ctxs := rfl
@[simp] theorem modCore_mem (s : State) (l : Nat) (f : Core → Core) : (modCore s l f).mem = s.mem := rfl
@[simp] theorem modCore_poison (s : State) (l : Nat) (f : Core → Core) : (modCore s l f).poison = s.poison := rfl
@[simp] theorem modCore_seed (s : State) (l : Nat) (f : Core → Core) : (modCore s l f).seed = s.seed := rfl
@[simp] theorem modCore_astep (s : State) (l : Nat) (f : Core → Core) : (modCore s l f).astep = s.astep := rfl
@[simp] theorem modCore_thr (s : State) (l : Nat) (f : Core → Core) : (modCore s l f).thr = s.thr := rfl
@[simp] theorem modCore_links (s : State) (l : Nat) (f : Core → Core) : (modCore s l f).links = s.links := rfl
@[simp] theorem modCore_lports (s : State) (l : Nat) (f : Core → Core) : (modCore s l f).lports = s.lports := rfl
@[simp] theorem modCore_protoLevel (s : State) (l : Nat) (f : Core → Core) : (modCore s l f).protoLevel = s.protoLevel := rfl
@[simp] theorem modCore_protoMin (s : State) (l : Nat) (f : Core → Core) : (modCore s l f).protoMin = s.protoMin := rfl
@[simp] theorem modCore_protoVer (s : State) (l : Nat) (f : Core → Core) : (modCore s l f).protoVer = s.protoVer := rfl
@[simp] theorem modCore_map (s : State) (l : Nat) (f : Core → Core) : (modCore s l f).map = s.map := rfl
@[simp] theorem modCore_route (s : State) (l : Nat) (f : Core → Core) : (modCore s l f).route = s.route := rfl
@[simp] theorem modCore_groups (s : State) (l : Nat) (f : Core → Core) : (modCore s l f).groups = s.groups := rfl
@[simp] theorem modCore_colls (s : State) (l : Nat) (f : Core → Core) : (modCore s l f).colls = s.colls := rfl
@[simp] theorem modCore_ends (s : State) (l : Nat) (f : Core → Core) : (modCore s l f).ends = s.ends := rfl
@[simp] theorem modCore_rings (s : State) (l : Nat) (f : Core → Core) : (modCore s l f).rings = s.rings := rfl
@[simp] theorem modCore_mail (s : State) (l : Nat) (f : Core → Core) : (modCore s l f).mail = s.mail := rfl
@[simp] theorem modCore_step (s : State) (l : Nat) (f : Core → Core) : (modCore s l f).step = s.step := rfl
@[simp] theorem modCore_twin (s : State) (l : Nat) (f : Core → Core) : (modCore s l f).twin = s.twin := rfl
@[simp] theorem modCore_journal (s : State) (l : Nat) (f : Core → Core) : (modCore s l f).journal = s.journal := rfl
@[simp] theorem modCore_fence (s : State) (l : Nat) (f : Core → Core) : (modCore s l f).fence = s.fence := rfl
@[simp] theorem modCore_power (s : State) (l : Nat) (f : Core → Core) : (modCore s l f).power = s.power := rfl
@[simp] theorem modCore_sec (s : State) (l : Nat) (f : Core → Core) : (modCore s l f).sec = s.sec := rfl
@[simp] theorem modCore_tel (s : State) (l : Nat) (f : Core → Core) : (modCore s l f).tel = s.tel := rfl
@[simp] theorem modCore_repair (s : State) (l : Nat) (f : Core → Core) : (modCore s l f).repair = s.repair := rfl
@[simp] theorem modCore_bridgeA (s : State) (l : Nat) (f : Core → Core) : (modCore s l f).bridgeA = s.bridgeA := rfl
@[simp] theorem modCore_bridgeB (s : State) (l : Nat) (f : Core → Core) : (modCore s l f).bridgeB = s.bridgeB := rfl
@[simp] theorem modCore_out (s : State) (l : Nat) (f : Core → Core) : (modCore s l f).out = s.out := rfl
@[simp] theorem modCore_free (s : State) (l : Nat) (f : Core → Core) : (modCore s l f).free = s.free := rfl

@[simp] theorem setLink_pending (s : State) (n : Nat) (x : Link) : (setLink s n x).pending = s.pending := rfl
@[simp] theorem setLink_ident (s : State) (n : Nat) (x : Link) : (setLink s n x).ident = s.ident := rfl
@[simp] theorem setLink_boot (s : State) (n : Nat) (x : Link) : (setLink s n x).boot = s.boot := rfl
@[simp] theorem setLink_pins (s : State) (n : Nat) (x : Link) : (setLink s n x).pins = s.pins := rfl
@[simp] theorem setLink_time (s : State) (n : Nat) (x : Link) : (setLink s n x).time = s.time := rfl
@[simp] theorem setLink_osc (s : State) (n : Nat) (x : Link) : (setLink s n x).osc = s.osc := rfl
@[simp] theorem setLink_oscPs (s : State) (n : Nat) (x : Link) : (setLink s n x).oscPs = s.oscPs := rfl
@[simp] theorem setLink_fabA (s : State) (n : Nat) (x : Link) : (setLink s n x).fabA = s.fabA := rfl
@[simp] theorem setLink_fabB (s : State) (n : Nat) (x : Link) : (setLink s n x).fabB = s.fabB := rfl
@[simp] theorem setLink_fabWin (s : State) (n : Nat) (x : Link) : (setLink s n x).fabWin = s.fabWin := rfl
@[simp] theorem setLink_portA (s : State) (n : Nat) (x : Link) : (setLink s n x).portA = s.portA := rfl
@[simp] theorem setLink_portB (s : State) (n : Nat) (x : Link) : (setLink s n x).portB = s.portB := rfl
@[simp] theorem setLink_ctxs (s : State) (n : Nat) (x : Link) : (setLink s n x).ctxs = s.ctxs := rfl
@[simp] theorem setLink_cores (s : State) (n : Nat) (x : Link) : (setLink s n x).cores = s.cores := rfl
@[simp] theorem setLink_mem (s : State) (n : Nat) (x : Link) : (setLink s n x).mem = s.mem := rfl
@[simp] theorem setLink_poison (s : State) (n : Nat) (x : Link) : (setLink s n x).poison = s.poison := rfl
@[simp] theorem setLink_seed (s : State) (n : Nat) (x : Link) : (setLink s n x).seed = s.seed := rfl
@[simp] theorem setLink_astep (s : State) (n : Nat) (x : Link) : (setLink s n x).astep = s.astep := rfl
@[simp] theorem setLink_thr (s : State) (n : Nat) (x : Link) : (setLink s n x).thr = s.thr := rfl
@[simp] theorem setLink_lports (s : State) (n : Nat) (x : Link) : (setLink s n x).lports = s.lports := rfl
@[simp] theorem setLink_protoLevel (s : State) (n : Nat) (x : Link) : (setLink s n x).protoLevel = s.protoLevel := rfl
@[simp] theorem setLink_protoMin (s : State) (n : Nat) (x : Link) : (setLink s n x).protoMin = s.protoMin := rfl
@[simp] theorem setLink_protoVer (s : State) (n : Nat) (x : Link) : (setLink s n x).protoVer = s.protoVer := rfl
@[simp] theorem setLink_map (s : State) (n : Nat) (x : Link) : (setLink s n x).map = s.map := rfl
@[simp] theorem setLink_route (s : State) (n : Nat) (x : Link) : (setLink s n x).route = s.route := rfl
@[simp] theorem setLink_groups (s : State) (n : Nat) (x : Link) : (setLink s n x).groups = s.groups := rfl
@[simp] theorem setLink_colls (s : State) (n : Nat) (x : Link) : (setLink s n x).colls = s.colls := rfl
@[simp] theorem setLink_ends (s : State) (n : Nat) (x : Link) : (setLink s n x).ends = s.ends := rfl
@[simp] theorem setLink_rings (s : State) (n : Nat) (x : Link) : (setLink s n x).rings = s.rings := rfl
@[simp] theorem setLink_mail (s : State) (n : Nat) (x : Link) : (setLink s n x).mail = s.mail := rfl
@[simp] theorem setLink_step (s : State) (n : Nat) (x : Link) : (setLink s n x).step = s.step := rfl
@[simp] theorem setLink_twin (s : State) (n : Nat) (x : Link) : (setLink s n x).twin = s.twin := rfl
@[simp] theorem setLink_journal (s : State) (n : Nat) (x : Link) : (setLink s n x).journal = s.journal := rfl
@[simp] theorem setLink_fence (s : State) (n : Nat) (x : Link) : (setLink s n x).fence = s.fence := rfl
@[simp] theorem setLink_power (s : State) (n : Nat) (x : Link) : (setLink s n x).power = s.power := rfl
@[simp] theorem setLink_sec (s : State) (n : Nat) (x : Link) : (setLink s n x).sec = s.sec := rfl
@[simp] theorem setLink_tel (s : State) (n : Nat) (x : Link) : (setLink s n x).tel = s.tel := rfl
@[simp] theorem setLink_repair (s : State) (n : Nat) (x : Link) : (setLink s n x).repair = s.repair := rfl
@[simp] theorem setLink_bridgeA (s : State) (n : Nat) (x : Link) : (setLink s n x).bridgeA = s.bridgeA := rfl
@[simp] theorem setLink_bridgeB (s : State) (n : Nat) (x : Link) : (setLink s n x).bridgeB = s.bridgeB := rfl
@[simp] theorem setLink_out (s : State) (n : Nat) (x : Link) : (setLink s n x).out = s.out := rfl
@[simp] theorem setLink_free (s : State) (n : Nat) (x : Link) : (setLink s n x).free = s.free := rfl

@[simp] theorem modLink_pending (s : State) (n : Nat) (f : Link → Link) : (modLink s n f).pending = s.pending := rfl
@[simp] theorem modLink_ident (s : State) (n : Nat) (f : Link → Link) : (modLink s n f).ident = s.ident := rfl
@[simp] theorem modLink_boot (s : State) (n : Nat) (f : Link → Link) : (modLink s n f).boot = s.boot := rfl
@[simp] theorem modLink_pins (s : State) (n : Nat) (f : Link → Link) : (modLink s n f).pins = s.pins := rfl
@[simp] theorem modLink_time (s : State) (n : Nat) (f : Link → Link) : (modLink s n f).time = s.time := rfl
@[simp] theorem modLink_osc (s : State) (n : Nat) (f : Link → Link) : (modLink s n f).osc = s.osc := rfl
@[simp] theorem modLink_oscPs (s : State) (n : Nat) (f : Link → Link) : (modLink s n f).oscPs = s.oscPs := rfl
@[simp] theorem modLink_fabA (s : State) (n : Nat) (f : Link → Link) : (modLink s n f).fabA = s.fabA := rfl
@[simp] theorem modLink_fabB (s : State) (n : Nat) (f : Link → Link) : (modLink s n f).fabB = s.fabB := rfl
@[simp] theorem modLink_fabWin (s : State) (n : Nat) (f : Link → Link) : (modLink s n f).fabWin = s.fabWin := rfl
@[simp] theorem modLink_portA (s : State) (n : Nat) (f : Link → Link) : (modLink s n f).portA = s.portA := rfl
@[simp] theorem modLink_portB (s : State) (n : Nat) (f : Link → Link) : (modLink s n f).portB = s.portB := rfl
@[simp] theorem modLink_ctxs (s : State) (n : Nat) (f : Link → Link) : (modLink s n f).ctxs = s.ctxs := rfl
@[simp] theorem modLink_cores (s : State) (n : Nat) (f : Link → Link) : (modLink s n f).cores = s.cores := rfl
@[simp] theorem modLink_mem (s : State) (n : Nat) (f : Link → Link) : (modLink s n f).mem = s.mem := rfl
@[simp] theorem modLink_poison (s : State) (n : Nat) (f : Link → Link) : (modLink s n f).poison = s.poison := rfl
@[simp] theorem modLink_seed (s : State) (n : Nat) (f : Link → Link) : (modLink s n f).seed = s.seed := rfl
@[simp] theorem modLink_astep (s : State) (n : Nat) (f : Link → Link) : (modLink s n f).astep = s.astep := rfl
@[simp] theorem modLink_thr (s : State) (n : Nat) (f : Link → Link) : (modLink s n f).thr = s.thr := rfl
@[simp] theorem modLink_lports (s : State) (n : Nat) (f : Link → Link) : (modLink s n f).lports = s.lports := rfl
@[simp] theorem modLink_protoLevel (s : State) (n : Nat) (f : Link → Link) : (modLink s n f).protoLevel = s.protoLevel := rfl
@[simp] theorem modLink_protoMin (s : State) (n : Nat) (f : Link → Link) : (modLink s n f).protoMin = s.protoMin := rfl
@[simp] theorem modLink_protoVer (s : State) (n : Nat) (f : Link → Link) : (modLink s n f).protoVer = s.protoVer := rfl
@[simp] theorem modLink_map (s : State) (n : Nat) (f : Link → Link) : (modLink s n f).map = s.map := rfl
@[simp] theorem modLink_route (s : State) (n : Nat) (f : Link → Link) : (modLink s n f).route = s.route := rfl
@[simp] theorem modLink_groups (s : State) (n : Nat) (f : Link → Link) : (modLink s n f).groups = s.groups := rfl
@[simp] theorem modLink_colls (s : State) (n : Nat) (f : Link → Link) : (modLink s n f).colls = s.colls := rfl
@[simp] theorem modLink_ends (s : State) (n : Nat) (f : Link → Link) : (modLink s n f).ends = s.ends := rfl
@[simp] theorem modLink_rings (s : State) (n : Nat) (f : Link → Link) : (modLink s n f).rings = s.rings := rfl
@[simp] theorem modLink_mail (s : State) (n : Nat) (f : Link → Link) : (modLink s n f).mail = s.mail := rfl
@[simp] theorem modLink_step (s : State) (n : Nat) (f : Link → Link) : (modLink s n f).step = s.step := rfl
@[simp] theorem modLink_twin (s : State) (n : Nat) (f : Link → Link) : (modLink s n f).twin = s.twin := rfl
@[simp] theorem modLink_journal (s : State) (n : Nat) (f : Link → Link) : (modLink s n f).journal = s.journal := rfl
@[simp] theorem modLink_fence (s : State) (n : Nat) (f : Link → Link) : (modLink s n f).fence = s.fence := rfl
@[simp] theorem modLink_power (s : State) (n : Nat) (f : Link → Link) : (modLink s n f).power = s.power := rfl
@[simp] theorem modLink_sec (s : State) (n : Nat) (f : Link → Link) : (modLink s n f).sec = s.sec := rfl
@[simp] theorem modLink_tel (s : State) (n : Nat) (f : Link → Link) : (modLink s n f).tel = s.tel := rfl
@[simp] theorem modLink_repair (s : State) (n : Nat) (f : Link → Link) : (modLink s n f).repair = s.repair := rfl
@[simp] theorem modLink_bridgeA (s : State) (n : Nat) (f : Link → Link) : (modLink s n f).bridgeA = s.bridgeA := rfl
@[simp] theorem modLink_bridgeB (s : State) (n : Nat) (f : Link → Link) : (modLink s n f).bridgeB = s.bridgeB := rfl
@[simp] theorem modLink_out (s : State) (n : Nat) (f : Link → Link) : (modLink s n f).out = s.out := rfl
@[simp] theorem modLink_free (s : State) (n : Nat) (f : Link → Link) : (modLink s n f).free = s.free := rfl

@[simp] theorem setLPort_pending (s : State) (p : Nat) (x : LPort) : (setLPort s p x).pending = s.pending := rfl
@[simp] theorem setLPort_ident (s : State) (p : Nat) (x : LPort) : (setLPort s p x).ident = s.ident := rfl
@[simp] theorem setLPort_boot (s : State) (p : Nat) (x : LPort) : (setLPort s p x).boot = s.boot := rfl
@[simp] theorem setLPort_pins (s : State) (p : Nat) (x : LPort) : (setLPort s p x).pins = s.pins := rfl
@[simp] theorem setLPort_time (s : State) (p : Nat) (x : LPort) : (setLPort s p x).time = s.time := rfl
@[simp] theorem setLPort_osc (s : State) (p : Nat) (x : LPort) : (setLPort s p x).osc = s.osc := rfl
@[simp] theorem setLPort_oscPs (s : State) (p : Nat) (x : LPort) : (setLPort s p x).oscPs = s.oscPs := rfl
@[simp] theorem setLPort_fabA (s : State) (p : Nat) (x : LPort) : (setLPort s p x).fabA = s.fabA := rfl
@[simp] theorem setLPort_fabB (s : State) (p : Nat) (x : LPort) : (setLPort s p x).fabB = s.fabB := rfl
@[simp] theorem setLPort_fabWin (s : State) (p : Nat) (x : LPort) : (setLPort s p x).fabWin = s.fabWin := rfl
@[simp] theorem setLPort_portA (s : State) (p : Nat) (x : LPort) : (setLPort s p x).portA = s.portA := rfl
@[simp] theorem setLPort_portB (s : State) (p : Nat) (x : LPort) : (setLPort s p x).portB = s.portB := rfl
@[simp] theorem setLPort_ctxs (s : State) (p : Nat) (x : LPort) : (setLPort s p x).ctxs = s.ctxs := rfl
@[simp] theorem setLPort_cores (s : State) (p : Nat) (x : LPort) : (setLPort s p x).cores = s.cores := rfl
@[simp] theorem setLPort_mem (s : State) (p : Nat) (x : LPort) : (setLPort s p x).mem = s.mem := rfl
@[simp] theorem setLPort_poison (s : State) (p : Nat) (x : LPort) : (setLPort s p x).poison = s.poison := rfl
@[simp] theorem setLPort_seed (s : State) (p : Nat) (x : LPort) : (setLPort s p x).seed = s.seed := rfl
@[simp] theorem setLPort_astep (s : State) (p : Nat) (x : LPort) : (setLPort s p x).astep = s.astep := rfl
@[simp] theorem setLPort_thr (s : State) (p : Nat) (x : LPort) : (setLPort s p x).thr = s.thr := rfl
@[simp] theorem setLPort_links (s : State) (p : Nat) (x : LPort) : (setLPort s p x).links = s.links := rfl
@[simp] theorem setLPort_protoLevel (s : State) (p : Nat) (x : LPort) : (setLPort s p x).protoLevel = s.protoLevel := rfl
@[simp] theorem setLPort_protoMin (s : State) (p : Nat) (x : LPort) : (setLPort s p x).protoMin = s.protoMin := rfl
@[simp] theorem setLPort_protoVer (s : State) (p : Nat) (x : LPort) : (setLPort s p x).protoVer = s.protoVer := rfl
@[simp] theorem setLPort_map (s : State) (p : Nat) (x : LPort) : (setLPort s p x).map = s.map := rfl
@[simp] theorem setLPort_route (s : State) (p : Nat) (x : LPort) : (setLPort s p x).route = s.route := rfl
@[simp] theorem setLPort_groups (s : State) (p : Nat) (x : LPort) : (setLPort s p x).groups = s.groups := rfl
@[simp] theorem setLPort_colls (s : State) (p : Nat) (x : LPort) : (setLPort s p x).colls = s.colls := rfl
@[simp] theorem setLPort_ends (s : State) (p : Nat) (x : LPort) : (setLPort s p x).ends = s.ends := rfl
@[simp] theorem setLPort_rings (s : State) (p : Nat) (x : LPort) : (setLPort s p x).rings = s.rings := rfl
@[simp] theorem setLPort_mail (s : State) (p : Nat) (x : LPort) : (setLPort s p x).mail = s.mail := rfl
@[simp] theorem setLPort_step (s : State) (p : Nat) (x : LPort) : (setLPort s p x).step = s.step := rfl
@[simp] theorem setLPort_twin (s : State) (p : Nat) (x : LPort) : (setLPort s p x).twin = s.twin := rfl
@[simp] theorem setLPort_journal (s : State) (p : Nat) (x : LPort) : (setLPort s p x).journal = s.journal := rfl
@[simp] theorem setLPort_fence (s : State) (p : Nat) (x : LPort) : (setLPort s p x).fence = s.fence := rfl
@[simp] theorem setLPort_power (s : State) (p : Nat) (x : LPort) : (setLPort s p x).power = s.power := rfl
@[simp] theorem setLPort_sec (s : State) (p : Nat) (x : LPort) : (setLPort s p x).sec = s.sec := rfl
@[simp] theorem setLPort_tel (s : State) (p : Nat) (x : LPort) : (setLPort s p x).tel = s.tel := rfl
@[simp] theorem setLPort_repair (s : State) (p : Nat) (x : LPort) : (setLPort s p x).repair = s.repair := rfl
@[simp] theorem setLPort_bridgeA (s : State) (p : Nat) (x : LPort) : (setLPort s p x).bridgeA = s.bridgeA := rfl
@[simp] theorem setLPort_bridgeB (s : State) (p : Nat) (x : LPort) : (setLPort s p x).bridgeB = s.bridgeB := rfl
@[simp] theorem setLPort_out (s : State) (p : Nat) (x : LPort) : (setLPort s p x).out = s.out := rfl
@[simp] theorem setLPort_free (s : State) (p : Nat) (x : LPort) : (setLPort s p x).free = s.free := rfl

@[simp] theorem modLPort_pending (s : State) (p : Nat) (f : LPort → LPort) : (modLPort s p f).pending = s.pending := rfl
@[simp] theorem modLPort_ident (s : State) (p : Nat) (f : LPort → LPort) : (modLPort s p f).ident = s.ident := rfl
@[simp] theorem modLPort_boot (s : State) (p : Nat) (f : LPort → LPort) : (modLPort s p f).boot = s.boot := rfl
@[simp] theorem modLPort_pins (s : State) (p : Nat) (f : LPort → LPort) : (modLPort s p f).pins = s.pins := rfl
@[simp] theorem modLPort_time (s : State) (p : Nat) (f : LPort → LPort) : (modLPort s p f).time = s.time := rfl
@[simp] theorem modLPort_osc (s : State) (p : Nat) (f : LPort → LPort) : (modLPort s p f).osc = s.osc := rfl
@[simp] theorem modLPort_oscPs (s : State) (p : Nat) (f : LPort → LPort) : (modLPort s p f).oscPs = s.oscPs := rfl
@[simp] theorem modLPort_fabA (s : State) (p : Nat) (f : LPort → LPort) : (modLPort s p f).fabA = s.fabA := rfl
@[simp] theorem modLPort_fabB (s : State) (p : Nat) (f : LPort → LPort) : (modLPort s p f).fabB = s.fabB := rfl
@[simp] theorem modLPort_fabWin (s : State) (p : Nat) (f : LPort → LPort) : (modLPort s p f).fabWin = s.fabWin := rfl
@[simp] theorem modLPort_portA (s : State) (p : Nat) (f : LPort → LPort) : (modLPort s p f).portA = s.portA := rfl
@[simp] theorem modLPort_portB (s : State) (p : Nat) (f : LPort → LPort) : (modLPort s p f).portB = s.portB := rfl
@[simp] theorem modLPort_ctxs (s : State) (p : Nat) (f : LPort → LPort) : (modLPort s p f).ctxs = s.ctxs := rfl
@[simp] theorem modLPort_cores (s : State) (p : Nat) (f : LPort → LPort) : (modLPort s p f).cores = s.cores := rfl
@[simp] theorem modLPort_mem (s : State) (p : Nat) (f : LPort → LPort) : (modLPort s p f).mem = s.mem := rfl
@[simp] theorem modLPort_poison (s : State) (p : Nat) (f : LPort → LPort) : (modLPort s p f).poison = s.poison := rfl
@[simp] theorem modLPort_seed (s : State) (p : Nat) (f : LPort → LPort) : (modLPort s p f).seed = s.seed := rfl
@[simp] theorem modLPort_astep (s : State) (p : Nat) (f : LPort → LPort) : (modLPort s p f).astep = s.astep := rfl
@[simp] theorem modLPort_thr (s : State) (p : Nat) (f : LPort → LPort) : (modLPort s p f).thr = s.thr := rfl
@[simp] theorem modLPort_links (s : State) (p : Nat) (f : LPort → LPort) : (modLPort s p f).links = s.links := rfl
@[simp] theorem modLPort_protoLevel (s : State) (p : Nat) (f : LPort → LPort) : (modLPort s p f).protoLevel = s.protoLevel := rfl
@[simp] theorem modLPort_protoMin (s : State) (p : Nat) (f : LPort → LPort) : (modLPort s p f).protoMin = s.protoMin := rfl
@[simp] theorem modLPort_protoVer (s : State) (p : Nat) (f : LPort → LPort) : (modLPort s p f).protoVer = s.protoVer := rfl
@[simp] theorem modLPort_map (s : State) (p : Nat) (f : LPort → LPort) : (modLPort s p f).map = s.map := rfl
@[simp] theorem modLPort_route (s : State) (p : Nat) (f : LPort → LPort) : (modLPort s p f).route = s.route := rfl
@[simp] theorem modLPort_groups (s : State) (p : Nat) (f : LPort → LPort) : (modLPort s p f).groups = s.groups := rfl
@[simp] theorem modLPort_colls (s : State) (p : Nat) (f : LPort → LPort) : (modLPort s p f).colls = s.colls := rfl
@[simp] theorem modLPort_ends (s : State) (p : Nat) (f : LPort → LPort) : (modLPort s p f).ends = s.ends := rfl
@[simp] theorem modLPort_rings (s : State) (p : Nat) (f : LPort → LPort) : (modLPort s p f).rings = s.rings := rfl
@[simp] theorem modLPort_mail (s : State) (p : Nat) (f : LPort → LPort) : (modLPort s p f).mail = s.mail := rfl
@[simp] theorem modLPort_step (s : State) (p : Nat) (f : LPort → LPort) : (modLPort s p f).step = s.step := rfl
@[simp] theorem modLPort_twin (s : State) (p : Nat) (f : LPort → LPort) : (modLPort s p f).twin = s.twin := rfl
@[simp] theorem modLPort_journal (s : State) (p : Nat) (f : LPort → LPort) : (modLPort s p f).journal = s.journal := rfl
@[simp] theorem modLPort_fence (s : State) (p : Nat) (f : LPort → LPort) : (modLPort s p f).fence = s.fence := rfl
@[simp] theorem modLPort_power (s : State) (p : Nat) (f : LPort → LPort) : (modLPort s p f).power = s.power := rfl
@[simp] theorem modLPort_sec (s : State) (p : Nat) (f : LPort → LPort) : (modLPort s p f).sec = s.sec := rfl
@[simp] theorem modLPort_tel (s : State) (p : Nat) (f : LPort → LPort) : (modLPort s p f).tel = s.tel := rfl
@[simp] theorem modLPort_repair (s : State) (p : Nat) (f : LPort → LPort) : (modLPort s p f).repair = s.repair := rfl
@[simp] theorem modLPort_bridgeA (s : State) (p : Nat) (f : LPort → LPort) : (modLPort s p f).bridgeA = s.bridgeA := rfl
@[simp] theorem modLPort_bridgeB (s : State) (p : Nat) (f : LPort → LPort) : (modLPort s p f).bridgeB = s.bridgeB := rfl
@[simp] theorem modLPort_out (s : State) (p : Nat) (f : LPort → LPort) : (modLPort s p f).out = s.out := rfl
@[simp] theorem modLPort_free (s : State) (p : Nat) (f : LPort → LPort) : (modLPort s p f).free = s.free := rfl

@[simp] theorem emit_pending (s : State) (o : Output) : (emit s o).pending = s.pending := rfl
@[simp] theorem emit_ident (s : State) (o : Output) : (emit s o).ident = s.ident := rfl
@[simp] theorem emit_boot (s : State) (o : Output) : (emit s o).boot = s.boot := rfl
@[simp] theorem emit_pins (s : State) (o : Output) : (emit s o).pins = s.pins := rfl
@[simp] theorem emit_time (s : State) (o : Output) : (emit s o).time = s.time := rfl
@[simp] theorem emit_osc (s : State) (o : Output) : (emit s o).osc = s.osc := rfl
@[simp] theorem emit_oscPs (s : State) (o : Output) : (emit s o).oscPs = s.oscPs := rfl
@[simp] theorem emit_fabA (s : State) (o : Output) : (emit s o).fabA = s.fabA := rfl
@[simp] theorem emit_fabB (s : State) (o : Output) : (emit s o).fabB = s.fabB := rfl
@[simp] theorem emit_fabWin (s : State) (o : Output) : (emit s o).fabWin = s.fabWin := rfl
@[simp] theorem emit_portA (s : State) (o : Output) : (emit s o).portA = s.portA := rfl
@[simp] theorem emit_portB (s : State) (o : Output) : (emit s o).portB = s.portB := rfl
@[simp] theorem emit_ctxs (s : State) (o : Output) : (emit s o).ctxs = s.ctxs := rfl
@[simp] theorem emit_cores (s : State) (o : Output) : (emit s o).cores = s.cores := rfl
@[simp] theorem emit_mem (s : State) (o : Output) : (emit s o).mem = s.mem := rfl
@[simp] theorem emit_poison (s : State) (o : Output) : (emit s o).poison = s.poison := rfl
@[simp] theorem emit_seed (s : State) (o : Output) : (emit s o).seed = s.seed := rfl
@[simp] theorem emit_astep (s : State) (o : Output) : (emit s o).astep = s.astep := rfl
@[simp] theorem emit_thr (s : State) (o : Output) : (emit s o).thr = s.thr := rfl
@[simp] theorem emit_links (s : State) (o : Output) : (emit s o).links = s.links := rfl
@[simp] theorem emit_lports (s : State) (o : Output) : (emit s o).lports = s.lports := rfl
@[simp] theorem emit_protoLevel (s : State) (o : Output) : (emit s o).protoLevel = s.protoLevel := rfl
@[simp] theorem emit_protoMin (s : State) (o : Output) : (emit s o).protoMin = s.protoMin := rfl
@[simp] theorem emit_protoVer (s : State) (o : Output) : (emit s o).protoVer = s.protoVer := rfl
@[simp] theorem emit_map (s : State) (o : Output) : (emit s o).map = s.map := rfl
@[simp] theorem emit_route (s : State) (o : Output) : (emit s o).route = s.route := rfl
@[simp] theorem emit_groups (s : State) (o : Output) : (emit s o).groups = s.groups := rfl
@[simp] theorem emit_colls (s : State) (o : Output) : (emit s o).colls = s.colls := rfl
@[simp] theorem emit_ends (s : State) (o : Output) : (emit s o).ends = s.ends := rfl
@[simp] theorem emit_rings (s : State) (o : Output) : (emit s o).rings = s.rings := rfl
@[simp] theorem emit_mail (s : State) (o : Output) : (emit s o).mail = s.mail := rfl
@[simp] theorem emit_step (s : State) (o : Output) : (emit s o).step = s.step := rfl
@[simp] theorem emit_twin (s : State) (o : Output) : (emit s o).twin = s.twin := rfl
@[simp] theorem emit_journal (s : State) (o : Output) : (emit s o).journal = s.journal := rfl
@[simp] theorem emit_fence (s : State) (o : Output) : (emit s o).fence = s.fence := rfl
@[simp] theorem emit_power (s : State) (o : Output) : (emit s o).power = s.power := rfl
@[simp] theorem emit_sec (s : State) (o : Output) : (emit s o).sec = s.sec := rfl
@[simp] theorem emit_tel (s : State) (o : Output) : (emit s o).tel = s.tel := rfl
@[simp] theorem emit_repair (s : State) (o : Output) : (emit s o).repair = s.repair := rfl
@[simp] theorem emit_bridgeA (s : State) (o : Output) : (emit s o).bridgeA = s.bridgeA := rfl
@[simp] theorem emit_bridgeB (s : State) (o : Output) : (emit s o).bridgeB = s.bridgeB := rfl
@[simp] theorem emit_free (s : State) (o : Output) : (emit s o).free = s.free := rfl

@[simp] theorem bumpFree_pending (s : State) : (bumpFree s).pending = s.pending := rfl
@[simp] theorem bumpFree_ident (s : State) : (bumpFree s).ident = s.ident := rfl
@[simp] theorem bumpFree_boot (s : State) : (bumpFree s).boot = s.boot := rfl
@[simp] theorem bumpFree_pins (s : State) : (bumpFree s).pins = s.pins := rfl
@[simp] theorem bumpFree_time (s : State) : (bumpFree s).time = s.time := rfl
@[simp] theorem bumpFree_osc (s : State) : (bumpFree s).osc = s.osc := rfl
@[simp] theorem bumpFree_oscPs (s : State) : (bumpFree s).oscPs = s.oscPs := rfl
@[simp] theorem bumpFree_fabA (s : State) : (bumpFree s).fabA = s.fabA := rfl
@[simp] theorem bumpFree_fabB (s : State) : (bumpFree s).fabB = s.fabB := rfl
@[simp] theorem bumpFree_fabWin (s : State) : (bumpFree s).fabWin = s.fabWin := rfl
@[simp] theorem bumpFree_portA (s : State) : (bumpFree s).portA = s.portA := rfl
@[simp] theorem bumpFree_portB (s : State) : (bumpFree s).portB = s.portB := rfl
@[simp] theorem bumpFree_ctxs (s : State) : (bumpFree s).ctxs = s.ctxs := rfl
@[simp] theorem bumpFree_cores (s : State) : (bumpFree s).cores = s.cores := rfl
@[simp] theorem bumpFree_mem (s : State) : (bumpFree s).mem = s.mem := rfl
@[simp] theorem bumpFree_poison (s : State) : (bumpFree s).poison = s.poison := rfl
@[simp] theorem bumpFree_seed (s : State) : (bumpFree s).seed = s.seed := rfl
@[simp] theorem bumpFree_astep (s : State) : (bumpFree s).astep = s.astep := rfl
@[simp] theorem bumpFree_thr (s : State) : (bumpFree s).thr = s.thr := rfl
@[simp] theorem bumpFree_links (s : State) : (bumpFree s).links = s.links := rfl
@[simp] theorem bumpFree_lports (s : State) : (bumpFree s).lports = s.lports := rfl
@[simp] theorem bumpFree_protoLevel (s : State) : (bumpFree s).protoLevel = s.protoLevel := rfl
@[simp] theorem bumpFree_protoMin (s : State) : (bumpFree s).protoMin = s.protoMin := rfl
@[simp] theorem bumpFree_protoVer (s : State) : (bumpFree s).protoVer = s.protoVer := rfl
@[simp] theorem bumpFree_map (s : State) : (bumpFree s).map = s.map := rfl
@[simp] theorem bumpFree_route (s : State) : (bumpFree s).route = s.route := rfl
@[simp] theorem bumpFree_groups (s : State) : (bumpFree s).groups = s.groups := rfl
@[simp] theorem bumpFree_colls (s : State) : (bumpFree s).colls = s.colls := rfl
@[simp] theorem bumpFree_ends (s : State) : (bumpFree s).ends = s.ends := rfl
@[simp] theorem bumpFree_rings (s : State) : (bumpFree s).rings = s.rings := rfl
@[simp] theorem bumpFree_mail (s : State) : (bumpFree s).mail = s.mail := rfl
@[simp] theorem bumpFree_step (s : State) : (bumpFree s).step = s.step := rfl
@[simp] theorem bumpFree_twin (s : State) : (bumpFree s).twin = s.twin := rfl
@[simp] theorem bumpFree_journal (s : State) : (bumpFree s).journal = s.journal := rfl
@[simp] theorem bumpFree_fence (s : State) : (bumpFree s).fence = s.fence := rfl
@[simp] theorem bumpFree_power (s : State) : (bumpFree s).power = s.power := rfl
@[simp] theorem bumpFree_sec (s : State) : (bumpFree s).sec = s.sec := rfl
@[simp] theorem bumpFree_tel (s : State) : (bumpFree s).tel = s.tel := rfl
@[simp] theorem bumpFree_repair (s : State) : (bumpFree s).repair = s.repair := rfl
@[simp] theorem bumpFree_bridgeA (s : State) : (bumpFree s).bridgeA = s.bridgeA := rfl
@[simp] theorem bumpFree_bridgeB (s : State) : (bumpFree s).bridgeB = s.bridgeB := rfl
@[simp] theorem bumpFree_out (s : State) : (bumpFree s).out = s.out := rfl

@[simp] theorem bump_pending (s : State) (set i n : Nat) : (bump s set i n).pending = s.pending := rfl
@[simp] theorem bump_ident (s : State) (set i n : Nat) : (bump s set i n).ident = s.ident := rfl
@[simp] theorem bump_boot (s : State) (set i n : Nat) : (bump s set i n).boot = s.boot := rfl
@[simp] theorem bump_pins (s : State) (set i n : Nat) : (bump s set i n).pins = s.pins := rfl
@[simp] theorem bump_time (s : State) (set i n : Nat) : (bump s set i n).time = s.time := rfl
@[simp] theorem bump_osc (s : State) (set i n : Nat) : (bump s set i n).osc = s.osc := rfl
@[simp] theorem bump_oscPs (s : State) (set i n : Nat) : (bump s set i n).oscPs = s.oscPs := rfl
@[simp] theorem bump_fabA (s : State) (set i n : Nat) : (bump s set i n).fabA = s.fabA := rfl
@[simp] theorem bump_fabB (s : State) (set i n : Nat) : (bump s set i n).fabB = s.fabB := rfl
@[simp] theorem bump_fabWin (s : State) (set i n : Nat) : (bump s set i n).fabWin = s.fabWin := rfl
@[simp] theorem bump_portA (s : State) (set i n : Nat) : (bump s set i n).portA = s.portA := rfl
@[simp] theorem bump_portB (s : State) (set i n : Nat) : (bump s set i n).portB = s.portB := rfl
@[simp] theorem bump_ctxs (s : State) (set i n : Nat) : (bump s set i n).ctxs = s.ctxs := rfl
@[simp] theorem bump_cores (s : State) (set i n : Nat) : (bump s set i n).cores = s.cores := rfl
@[simp] theorem bump_mem (s : State) (set i n : Nat) : (bump s set i n).mem = s.mem := rfl
@[simp] theorem bump_poison (s : State) (set i n : Nat) : (bump s set i n).poison = s.poison := rfl
@[simp] theorem bump_seed (s : State) (set i n : Nat) : (bump s set i n).seed = s.seed := rfl
@[simp] theorem bump_astep (s : State) (set i n : Nat) : (bump s set i n).astep = s.astep := rfl
@[simp] theorem bump_thr (s : State) (set i n : Nat) : (bump s set i n).thr = s.thr := rfl
@[simp] theorem bump_links (s : State) (set i n : Nat) : (bump s set i n).links = s.links := rfl
@[simp] theorem bump_lports (s : State) (set i n : Nat) : (bump s set i n).lports = s.lports := rfl
@[simp] theorem bump_protoLevel (s : State) (set i n : Nat) : (bump s set i n).protoLevel = s.protoLevel := rfl
@[simp] theorem bump_protoMin (s : State) (set i n : Nat) : (bump s set i n).protoMin = s.protoMin := rfl
@[simp] theorem bump_protoVer (s : State) (set i n : Nat) : (bump s set i n).protoVer = s.protoVer := rfl
@[simp] theorem bump_map (s : State) (set i n : Nat) : (bump s set i n).map = s.map := rfl
@[simp] theorem bump_route (s : State) (set i n : Nat) : (bump s set i n).route = s.route := rfl
@[simp] theorem bump_groups (s : State) (set i n : Nat) : (bump s set i n).groups = s.groups := rfl
@[simp] theorem bump_colls (s : State) (set i n : Nat) : (bump s set i n).colls = s.colls := rfl
@[simp] theorem bump_ends (s : State) (set i n : Nat) : (bump s set i n).ends = s.ends := rfl
@[simp] theorem bump_rings (s : State) (set i n : Nat) : (bump s set i n).rings = s.rings := rfl
@[simp] theorem bump_mail (s : State) (set i n : Nat) : (bump s set i n).mail = s.mail := rfl
@[simp] theorem bump_step (s : State) (set i n : Nat) : (bump s set i n).step = s.step := rfl
@[simp] theorem bump_twin (s : State) (set i n : Nat) : (bump s set i n).twin = s.twin := rfl
@[simp] theorem bump_journal (s : State) (set i n : Nat) : (bump s set i n).journal = s.journal := rfl
@[simp] theorem bump_fence (s : State) (set i n : Nat) : (bump s set i n).fence = s.fence := rfl
@[simp] theorem bump_power (s : State) (set i n : Nat) : (bump s set i n).power = s.power := rfl
@[simp] theorem bump_sec (s : State) (set i n : Nat) : (bump s set i n).sec = s.sec := rfl
@[simp] theorem bump_repair (s : State) (set i n : Nat) : (bump s set i n).repair = s.repair := rfl
@[simp] theorem bump_bridgeA (s : State) (set i n : Nat) : (bump s set i n).bridgeA = s.bridgeA := rfl
@[simp] theorem bump_bridgeB (s : State) (set i n : Nat) : (bump s set i n).bridgeB = s.bridgeB := rfl
@[simp] theorem bump_out (s : State) (set i n : Nat) : (bump s set i n).out = s.out := rfl
@[simp] theorem bump_free (s : State) (set i n : Nat) : (bump s set i n).free = s.free := rfl

@[simp] theorem setPort_pending (s : State) (p : HostPort) (x : Port) : (setPort s p x).pending = s.pending := by cases p <;> rfl
@[simp] theorem setPort_ident (s : State) (p : HostPort) (x : Port) : (setPort s p x).ident = s.ident := by cases p <;> rfl
@[simp] theorem setPort_boot (s : State) (p : HostPort) (x : Port) : (setPort s p x).boot = s.boot := by cases p <;> rfl
@[simp] theorem setPort_pins (s : State) (p : HostPort) (x : Port) : (setPort s p x).pins = s.pins := by cases p <;> rfl
@[simp] theorem setPort_time (s : State) (p : HostPort) (x : Port) : (setPort s p x).time = s.time := by cases p <;> rfl
@[simp] theorem setPort_osc (s : State) (p : HostPort) (x : Port) : (setPort s p x).osc = s.osc := by cases p <;> rfl
@[simp] theorem setPort_oscPs (s : State) (p : HostPort) (x : Port) : (setPort s p x).oscPs = s.oscPs := by cases p <;> rfl
@[simp] theorem setPort_fabA (s : State) (p : HostPort) (x : Port) : (setPort s p x).fabA = s.fabA := by cases p <;> rfl
@[simp] theorem setPort_fabB (s : State) (p : HostPort) (x : Port) : (setPort s p x).fabB = s.fabB := by cases p <;> rfl
@[simp] theorem setPort_fabWin (s : State) (p : HostPort) (x : Port) : (setPort s p x).fabWin = s.fabWin := by cases p <;> rfl
@[simp] theorem setPort_ctxs (s : State) (p : HostPort) (x : Port) : (setPort s p x).ctxs = s.ctxs := by cases p <;> rfl
@[simp] theorem setPort_cores (s : State) (p : HostPort) (x : Port) : (setPort s p x).cores = s.cores := by cases p <;> rfl
@[simp] theorem setPort_mem (s : State) (p : HostPort) (x : Port) : (setPort s p x).mem = s.mem := by cases p <;> rfl
@[simp] theorem setPort_poison (s : State) (p : HostPort) (x : Port) : (setPort s p x).poison = s.poison := by cases p <;> rfl
@[simp] theorem setPort_seed (s : State) (p : HostPort) (x : Port) : (setPort s p x).seed = s.seed := by cases p <;> rfl
@[simp] theorem setPort_astep (s : State) (p : HostPort) (x : Port) : (setPort s p x).astep = s.astep := by cases p <;> rfl
@[simp] theorem setPort_thr (s : State) (p : HostPort) (x : Port) : (setPort s p x).thr = s.thr := by cases p <;> rfl
@[simp] theorem setPort_links (s : State) (p : HostPort) (x : Port) : (setPort s p x).links = s.links := by cases p <;> rfl
@[simp] theorem setPort_lports (s : State) (p : HostPort) (x : Port) : (setPort s p x).lports = s.lports := by cases p <;> rfl
@[simp] theorem setPort_protoLevel (s : State) (p : HostPort) (x : Port) : (setPort s p x).protoLevel = s.protoLevel := by cases p <;> rfl
@[simp] theorem setPort_protoMin (s : State) (p : HostPort) (x : Port) : (setPort s p x).protoMin = s.protoMin := by cases p <;> rfl
@[simp] theorem setPort_protoVer (s : State) (p : HostPort) (x : Port) : (setPort s p x).protoVer = s.protoVer := by cases p <;> rfl
@[simp] theorem setPort_map (s : State) (p : HostPort) (x : Port) : (setPort s p x).map = s.map := by cases p <;> rfl
@[simp] theorem setPort_route (s : State) (p : HostPort) (x : Port) : (setPort s p x).route = s.route := by cases p <;> rfl
@[simp] theorem setPort_groups (s : State) (p : HostPort) (x : Port) : (setPort s p x).groups = s.groups := by cases p <;> rfl
@[simp] theorem setPort_colls (s : State) (p : HostPort) (x : Port) : (setPort s p x).colls = s.colls := by cases p <;> rfl
@[simp] theorem setPort_ends (s : State) (p : HostPort) (x : Port) : (setPort s p x).ends = s.ends := by cases p <;> rfl
@[simp] theorem setPort_rings (s : State) (p : HostPort) (x : Port) : (setPort s p x).rings = s.rings := by cases p <;> rfl
@[simp] theorem setPort_mail (s : State) (p : HostPort) (x : Port) : (setPort s p x).mail = s.mail := by cases p <;> rfl
@[simp] theorem setPort_step (s : State) (p : HostPort) (x : Port) : (setPort s p x).step = s.step := by cases p <;> rfl
@[simp] theorem setPort_twin (s : State) (p : HostPort) (x : Port) : (setPort s p x).twin = s.twin := by cases p <;> rfl
@[simp] theorem setPort_journal (s : State) (p : HostPort) (x : Port) : (setPort s p x).journal = s.journal := by cases p <;> rfl
@[simp] theorem setPort_fence (s : State) (p : HostPort) (x : Port) : (setPort s p x).fence = s.fence := by cases p <;> rfl
@[simp] theorem setPort_power (s : State) (p : HostPort) (x : Port) : (setPort s p x).power = s.power := by cases p <;> rfl
@[simp] theorem setPort_sec (s : State) (p : HostPort) (x : Port) : (setPort s p x).sec = s.sec := by cases p <;> rfl
@[simp] theorem setPort_tel (s : State) (p : HostPort) (x : Port) : (setPort s p x).tel = s.tel := by cases p <;> rfl
@[simp] theorem setPort_repair (s : State) (p : HostPort) (x : Port) : (setPort s p x).repair = s.repair := by cases p <;> rfl
@[simp] theorem setPort_bridgeA (s : State) (p : HostPort) (x : Port) : (setPort s p x).bridgeA = s.bridgeA := by cases p <;> rfl
@[simp] theorem setPort_bridgeB (s : State) (p : HostPort) (x : Port) : (setPort s p x).bridgeB = s.bridgeB := by cases p <;> rfl
@[simp] theorem setPort_out (s : State) (p : HostPort) (x : Port) : (setPort s p x).out = s.out := by cases p <;> rfl
@[simp] theorem setPort_free (s : State) (p : HostPort) (x : Port) : (setPort s p x).free = s.free := by cases p <;> rfl

end Sys2Proof.Machine
end

