-- ==== Sys2Proof/Laws/Memory.lean ====
section
/-! SUPPORT. Device memory: what each operation over it can do, and the canonical form that every one of them keeps. -/

namespace Sys2Proof.Machine

/-! ## Findings -/

@[simp] theorem enterEvent_mem (s : State) (e : Event) : (enterEvent s e).mem = s.mem := by
  unfold enterEvent; split <;> rfl

@[simp] theorem enterOverflow_mem (s : State) : (enterOverflow s).mem = s.mem := by
  unfold enterOverflow; split <;> simp

@[simp] theorem raiseEv_mem (s : State) (st src subj w a b : Nat) : (raiseEv s st src subj w a b).mem = s.mem := by
  simp [raiseEv]

@[simp] theorem addCand_mem (s : State) (k src : Nat) : (addCand s k src).mem = s.mem := by
  unfold addCand; dsimp only; split
  · rfl
  · split <;> rfl

/-- A lasting unit that is found changes no byte. -/
theorem lastingUnit_mem (x : Acc) (subj src u : Nat) : (lastingUnit x subj src u).s.mem = x.s.mem := by
  simp only [lastingUnit, raiseEv_mem, bump_mem]; split <;> simp

/-- Reading a unit changes no byte. -/
theorem readUnit_mem (f : Finds) (subj src : Nat) (x : Acc) (u : Nat) : (readUnit f subj src x u).s.mem = x.s.mem := by
  unfold readUnit
  split
  · simp
  · split
    · exact lastingUnit_mem x subj src u
    · simp
    · split <;> simp

/-- Reading units changes no byte. -/
theorem readUnits_mem (f : Finds) (subj : Nat) (x : Acc) (us : List Nat) : (readUnits f subj x us).s.mem = x.s.mem := by
  unfold readUnits
  generalize us.dedup = l
  induction l generalizing x with
  | nil => rfl
  | cons u r ih => rw [List.foldl_cons, ih, readUnit_mem]

/-- With nothing found and nothing poisoned, reading units changes nothing at all. -/
theorem readUnits_clean (subj : Nat) (x : Acc) (us : List Nat) (h : x.s.poison = []) : readUnits {} subj x us = x := by
  unfold readUnits
  generalize us.dedup = l
  induction l with
  | nil => rfl
  | cons u r ih =>
    have : readUnit {} subj 0 x u = x := by simp [readUnit, h]
    rw [List.foldl_cons, this, ih]

/-! ## The canonical form -/

/-- A write inside a unit keeps the canonical form. -/
theorem writeUnit_wf (f : Finds) (subj : Nat) (x : Acc) (a : Nat) (d : List Byte) (h : Memory.wf x.s.mem = true) :
    Memory.wf (writeUnit f subj x a d).s.mem = true := by
  unfold writeUnit
  dsimp only
  split
  · exact tabWf_writeB _ _ _ h
  · split
    · refine tabWf_writeB _ _ _ ?_
      rw [readUnit_mem]; exact h
    · dsimp only; rw [readUnit_mem]; exact h

/-- A write of bytes keeps the canonical form. -/
theorem writeDev_wf (f : Finds) (subj : Nat) (x : Acc) (a : Nat) (d : List Byte) (h : Memory.wf x.s.mem = true) :
    Memory.wf (writeDev f subj x a d).s.mem = true := by
  unfold writeDev
  generalize pieces 64 (d.length / 64 + 2) a d = l
  induction l generalizing x with
  | nil => exact h
  | cons p r ih => exact ih _ (writeUnit_wf f subj x p.1 p.2 h)

theorem putMem_wf (s : State) (a : Nat) (d : List Byte) (h : Memory.wf s.mem = true) : Memory.wf (putMem s a d).mem = true :=
  writeDev_wf {} noSubject { s := s } a d h

/-- Zeroing a range keeps the canonical form. -/
theorem zeroMem_wf (s : State) (a n : Nat) (h : Memory.wf s.mem = true) : Memory.wf (zeroMem s a n).mem = true :=
  tabWf_filter 0 _ _ h

/-- A memory test leaves the canonical form. -/
theorem zeroTested_wf (s : State) (p : Nat → Bool) (bad : List Nat) (h : Memory.wf s.mem = true) :
    Memory.wf (zeroTested s p bad).mem = true := tabWf_filter 0 _ _ h

/-- A reset keeps the memory or empties it. -/
theorem warmState_wf (s : State) (cause : Nat) (h : Memory.wf s.mem = true) : Memory.wf (warmState s cause).mem = true := by
  simp only [warmState]
  split
  · rfl
  · exact h

theorem eraseModule_wf (s : State) : Memory.wf (eraseModule s).mem = true := rfl

theorem reset_wf : Memory.wf State.reset.mem = true := by decide

/-! ## Reading after writing -/

/-- Zeroing reads zero, and leaves what it does not meet. -/
theorem tget_filter_key {β : Type} (d : β) (p : Nat → Bool) (t : Tab β) (i : Nat) :
    tget d (t.filter (fun e => p e.1)) i = if p i = true then tget d t i else d := by
  induction t with
  | nil => simp [tget]
  | cons e r ih =>
    obtain ⟨k, v⟩ := e
    by_cases h : p k = true <;> by_cases h1 : k = i
    · subst h1; simp [tget, h]
    · simp [tget, h, h1, ih]
    · subst h1; simpa [tget, h] using ih
    · simp [tget, h, h1, ih]

/-- A whole unit that is written reads as written, and nothing else changes. -/
theorem writeUnit_whole (f : Finds) (subj : Nat) (x : Acc) (a : Nat) (d : List Byte) (h : d.length = 64) :
    (writeUnit f subj x a d).s.mem = writeB x.s.mem a d ∧ (writeUnit f subj x a d).bad = x.bad := by
  simp [writeUnit, h]

/-- With nothing poisoned, a write inside a unit stores its bytes and leaves the rest of the state. -/
theorem writeUnit_clean (subj : Nat) (x : Acc) (a : Nat) (d : List Byte) (h : x.s.poison = []) :
    writeUnit {} subj x a d = { x with s := { x.s with mem := writeB x.s.mem a d } } := by
  unfold writeUnit
  dsimp only
  split
  · simp [h]
  · simp [readUnit, h]

theorem writeB_append (t : Tab Byte) (a : Nat) (d e : List Byte) : writeB (writeB t a d) (a + d.length) e = writeB t a (d ++ e) := by
  induction d generalizing t a with
  | nil => rfl
  | cons b r ih =>
    have := ih (tset 0 t a b) (a + 1)
    simp only [List.length_cons, List.cons_append, writeB]
    rw [show a + (r.length + 1) = a + 1 + r.length by omega]
    exact this

/-- The pieces of a range, written one after another, are the whole range. -/
theorem pieces_write (subj : Nat) (fuel : Nat) (x : Acc) (a : Nat) (d : List Byte) (hp : x.s.poison = [])
    (hf : d.length + a % 64 ≤ 64 * fuel) :
    (pieces 64 fuel a d).foldl (fun y p => writeUnit {} subj y p.1 p.2) x = { x with s := { x.s with mem := writeB x.s.mem a d } } := by
  induction fuel generalizing x a d with
  | zero =>
    have : d = [] := List.length_eq_zero_iff.mp (by omega)
    subst this; rfl
  | succ n ih =>
    unfold pieces
    by_cases h0 : d = []
    · subst h0; rfl
    · simp only [h0, if_false, List.foldl_cons, writeUnit_clean subj x _ _ hp]
      have hl : 0 < d.length := List.length_pos_iff.mpr h0
      rw [ih { x with s := { x.s with mem := writeB x.s.mem a (d.take (64 - a % 64)) } } _ _ hp
        (by simp only [List.length_drop]; omega)]
      by_cases h1 : d.length ≤ 64 - a % 64
      · simp [List.drop_eq_nil_of_le h1, List.take_of_length_le h1, writeB]
      · have h2 : (d.take (64 - a % 64)).length = 64 - a % 64 := by rw [List.length_take]; omega
        have h3 : a / 64 * 64 + 64 = a + (d.take (64 - a % 64)).length := by rw [h2]; omega
        simp only [h3, writeB_append, List.take_append_drop]

/-- With nothing poisoned, a write of bytes stores exactly them. -/
theorem putMem_clean (s : State) (a : Nat) (d : List Byte) (h : s.poison = []) :
    putMem s a d = { s with mem := writeB s.mem a d } := by
  unfold putMem writeDev
  rw [pieces_write noSubject _ { s := s } a d h (by omega)]

/-- What was put in memory is read back. -/
theorem memB_putMem (s : State) (a : Nat) (d : List Byte) (h : s.poison = []) : memB (putMem s a d) a d.length = d := by
  rw [putMem_clean s a d h]; exact readB_writeB s.mem a d

/-- Bytes outside what was put are as before. -/
theorem memB_putMem_outside (s : State) (a b n : Nat) (d : List Byte) (h : s.poison = []) (ho : b + n ≤ a ∨ a + d.length ≤ b) :
    memB (putMem s a d) b n = memB s b n := by
  rw [putMem_clean s a d h]; exact readB_writeB_disjoint s.mem a b n d ho

end Sys2Proof.Machine
end

