-- ==== Sys2Proof/Laws/Shared.lean ====
section
/-! SUPPORT. What the shared operations can do, said once: checks, charges and their reports, the issue of an instruction. -/

namespace Sys2Proof.Machine

/-! ## Checks -/

@[simp] theorem firstFail_nil : firstFail [] = 0 := rfl

theorem firstFail_cons (ok : Bool) (st : Nat) (r : List (Bool × Nat)) :
    firstFail ((ok, st) :: r) = if ok = true then firstFail r else st := rfl

/-- A check list with nonzero statuses passes exactly when every check does. -/
theorem firstFail_eq_zero (l : List (Bool × Nat)) (h : ∀ e ∈ l, e.2 ≠ 0) : firstFail l = 0 ↔ ∀ e ∈ l, e.1 = true := by
  induction l with
  | nil => simp
  | cons e r ih =>
    obtain ⟨ok, st⟩ := e
    have h1 : st ≠ 0 := h (ok, st) (List.mem_cons_self ..)
    have h2 := ih (fun e he => h e (List.mem_cons_of_mem _ he))
    cases ok <;> simp [firstFail, h1, h2]

/-! ## Charges -/

/-- A charge's own row acts exactly on its running entry. -/
theorem onCharge_running {s : State} {c q op : Nat} {e : Entry} (f : Entry → State) (h : running s c q op = some e) :
    onCharge s c q op f = f e := by simp [onCharge, h]

theorem onCharge_none {s : State} {c q op : Nat} (f : Entry → State) (h : running s c q op = none) : onCharge s c q op f = s := by
  simp [onCharge, h]

/-- A running entry carries its CSEQ and opcode, is dispatched, not finished, and has no report. -/
theorem running_spec {s : State} {c q op : Nat} {e : Entry} (h : running s c q op = some e) :
    e ∈ (getCtx s c).entries ∧ e.cseq = q ∧ e.opcode = op ∧ e.dispatched = true ∧ e.st ≠ .finished ∧ e.report = none := by
  have h1 := List.find?_some h
  have h2 := List.mem_of_find?_eq_some h
  simp at h1
  exact ⟨h2, h1.1.1.1.1, h1.1.1.1.2, h1.1.1.2, h1.1.2, h1.2⟩

/-- Changing a running entry touches the contexts alone. -/
theorem modRunning_frame (s : State) (c q : Nat) (f : Entry → Entry) : { modRunning s c q f with ctxs := s.ctxs } = s := rfl

/-- A report touches the contexts alone. -/
theorem report_frame (s : State) (c q st r : Nat) : { report s c q st r with ctxs := s.ctxs } = s := rfl

/-- The contexts after a report are a function of the contexts before it. -/
theorem report_ctxs {s t : State} (h : s.ctxs = t.ctxs) (c q st r : Nat) : (report s c q st r).ctxs = (report t c q st r).ctxs := by
  simp [report, modRunning, modCtx, setCtx, getCtx, h]

/-! ## The issue of an instruction -/

/-- No instruction is issued while the sequencer is not ready. -/
theorem issue_idle {s : State} {l : Nat} (op : Nat) (f : State → Run → Nat → State) (h : seqReady s l = none) : issue s l op f = s := by
  simp [issue, h]

/-- A halted sequencer issues nothing (R430). -/
theorem issue_halted {s : State} {l : Nat} (op : Nat) (f : State → Run → Nat → State) (h : (getCore s l).halt = true) :
    issue s l op f = s := by
  unfold issue; dsimp only; split <;> simp [h]

/-- A ready sequencer at no breakpoint runs the instruction that stands there when the row is its own. -/
theorem issue_runs {s : State} {l op : Nat} {r : Run} (f : State → Run → Nat → State) (h : seqReady s l = some r)
    (hh : (getCore s l).halt = false) (hb : atBreak (getCore s l) = false) (ho : issues op (instrAt s l) = true) :
    issue s l op f = runInstr s l r (instrAt s l) f := by
  simp [issue, h, hh, hb, ho]

/-- An instruction whose guard and form pass, away from the last index, does what its own meaning says in the state in which it is counted. -/
theorem runInstr_passes {s : State} {l w : Nat} {r : Run} (f : State → Run → Nat → State)
    (hg : guardOf (getCore s l) (iPred w) (iNeg w) = true) (hf : formOk w = true)
    (hp : (getCore s l).pc ≠ 32767 ∨ leavesStore (iOp w) (loopTaken (getCore s l) w) = true) :
    runInstr s l r w f = f (modCore (countIssue s l r) l (fun x => { x with bpSkip := false, haltedAt := false })) r w := by
  unfold runInstr
  dsimp only
  rcases hp with hp | hp <;> simp [hg, hf, hp]

/-- Counting an issue touches the counters alone. -/
theorem countIssue_frame (s : State) (l : Nat) (r : Run) : { countIssue s l r with tel := s.tel } = s := by
  unfold countIssue; split <;> rfl

end Sys2Proof.Machine
end

