-- ==== Sys2Proof/Laws/Update.lean ====
section
/-! SUPPORT. The UPDATE function keeps the length of its chunk buffer. -/

namespace Sys2Proof.Machine

theorem length_patch {buf : List Byte} {off : Nat} {b : List Byte} (h : off + b.length ≤ buf.length) :
    (patch buf off b).length = buf.length := by
  simp only [patch, List.length_append, List.length_take, List.length_drop]
  omega

theorem length_momentPut {buf : List Byte} {off j bytes : Nat} {v : Num} (h : off + bytes * (j + 1) ≤ buf.length) :
    (momentPut buf off j bytes v).length = buf.length := by
  unfold momentPut
  split
  · rfl
  · rw [Nat.mul_add] at h
    exact length_patch (by rw [length_toLE]; omega)

/-- A chunk buffer that holds every element of the prepared row keeps its length. -/
theorem length_updateChunk {row buf : List Byte} {grads : List Num} (hb : elemBytes row * rowElems row ≤ buf.length)
    (hg : grads.length ≤ rowElems row) : (updateChunk row buf grads).1.length = buf.length := by
  unfold updateChunk
  simp only
  generalize hn : buf.length = n at hb ⊢
  suffices h : ∀ (gs : List Num) (k : Nat) (q : List Byte × Nat), q.1.length = n → k + gs.length ≤ rowElems row →
      ((gs.zipIdx k).foldl (fun q g =>
        let j := g.2
        let b := q.1
        let u := updateElement row g.1 (momentAt b 0 j 4) (momentAt b (4 * rowElems row) j (momentBytes (rowMfmt row)))
          (momentAt b ((4 + momentBytes (rowMfmt row)) * rowElems row) j (momentBytes (rowVfmt row)))
        let b := momentPut b 0 j 4 u.1
        let b := momentPut b (4 * rowElems row) j (momentBytes (rowMfmt row)) u.2.1
        let b := momentPut b ((4 + momentBytes (rowMfmt row)) * rowElems row) j (momentBytes (rowVfmt row)) u.2.2
        let b := if copyBytes (rowOut row) = 0 then b
          else patch b ((4 + momentBytes (rowMfmt row) + momentBytes (rowVfmt row)) * rowElems row + copyBytes (rowOut row) * j)
            (toLE (copyBytes (rowOut row)) (convNum (rowOut row) .rne true false u.1).1)
        (b, q.2 + b2n (!u.1.isFin))) q).1.length = n from h grads 0 (buf, 0) hn (by omega)
  intro gs
  induction gs with
  | nil => intro k q hq _; exact hq
  | cons g r ih =>
    intro k q hq hk
    simp only [List.length_cons] at hk
    rw [List.zipIdx_cons, List.foldl_cons]
    refine ih (k + 1) _ ?_ (by omega)
    have hj : ∀ b : Nat, b * (k + 1) ≤ b * rowElems row := fun b => Nat.mul_le_mul_left _ (by omega)
    simp only [elemBytes, Nat.add_mul] at hb
    have h4 := hj 4
    have hm := hj (momentBytes (rowMfmt row))
    have hv := hj (momentBytes (rowVfmt row))
    have ho := hj (copyBytes (rowOut row))
    simp only
    have l1 : ∀ v : Num, (momentPut q.1 0 k 4 v).length = n := fun v => by rw [length_momentPut (by omega), hq]
    have l2 : ∀ v w : Num, (momentPut (momentPut q.1 0 k 4 v) (4 * rowElems row) k (momentBytes (rowMfmt row)) w).length = n := fun v w => by
      rw [length_momentPut (by rw [l1]; omega), l1]
    have l3 : ∀ v w x : Num, (momentPut (momentPut (momentPut q.1 0 k 4 v) (4 * rowElems row) k (momentBytes (rowMfmt row)) w)
        ((4 + momentBytes (rowMfmt row)) * rowElems row) k (momentBytes (rowVfmt row)) x).length = n := fun v w x => by
      rw [length_momentPut (by rw [l2, Nat.add_mul]; omega), l2]
    split
    · exact l3 _ _ _
    · rw [length_patch, l3]
      rw [length_toLE, l3, Nat.add_mul, Nat.add_mul]
      rw [Nat.mul_add] at ho
      omega

end Sys2Proof.Machine
end

