-- ==== Sys2Proof/Machine/Views.lean ====
section
/-! DEFINITION. What a host reads in BAR0 (R54): every management register as a view of the state, and the state pages of
contexts (R61). A BAR0 read changes nothing; no row of the command table reads one, so these views are what a read returns. -/

namespace Sys2Proof.Machine

/-- `MOD_IDENT` (R4). -/
def modIdent (s : State) : Nat :=
  s.ident.stepping % 8 + b2n (isL8 s) * 2 ^ 3 + (if isL8 s then 0x10 else 0x08) * 2 ^ 4 + (if isL8 s then 8 else 6) * 2 ^ 12
    + (if isL8 s then 1 else 2) * 2 ^ 16 + 0x48 * 2 ^ 24

/-! ## The configuration header and BAR2 (R50, R53) -/

/-- The dwords of a port's configuration header that R50 gives, by their offsets in the header of PCI Express: device and vendor
ID, Command (Memory Space Enable, Bus Master Enable: R51), class code, subsystem and subsystem vendor ID. The revision ID in
the low byte of the class dword and every other dword are not stated; they are left out (log 87). -/
def configDword (s : State) (p : HostPort) (off : Nat) : Option Nat :=
  let vendor := Config.pciVendor % 2 ^ 16
  if off = 0x00 then some (vendor + 0x0048 * 2 ^ 16)
  else if off = 0x04 then some (b2n (getPort s p).mse * 2 + b2n (getPort s p).bme * 4)
  else if off = 0x08 then some (0x120000 * 2 ^ 8)
  else if off = 0x2C then some (vendor + fld (modIdent s) 23 16 * 2 ^ 16)
  else none

/-- A read of BAR2 returns all ones and has no effect (R53). -/
def bar2Bytes (_s : State) (_p : HostPort) (_off n : Nat) : List Byte := List.replicate n 0xFF

/-- `MOD_CORES` (R23). -/
def modCores (s : State) : Nat :=
  min 15 (spareSites s 1).length + min 15 (spareSites s 0).length * 2 ^ 4 + (boundCores s).length % 256 * 2 ^ 8

/-- `FAB_RATE` (R40). -/
def fabRate (s : State) : Nat := s.fabWin % 2 ^ 16 + s.fabA % 2 ^ 16 * 2 ^ 16 + s.fabB % 2 ^ 16 * 2 ^ 32

/-- `PORT_ID` (R57). -/
def portId (s : State) (p : HostPort) : Nat :=
  let o := getPort s (otherPort p)
  (match p with
    | .a => 0
    | .b => 1) + b2n (o.linkUp && o.bme) * 2

/-- `BOOT_STAT` (R461). -/
def bootStat (s : State) : Nat :=
  s.boot.tReady % 2 ^ 32 + s.boot.cause % 16 * 2 ^ 32 + s.boot.fallback % 256 * 2 ^ 40 + s.boot.done % 256 * 2 ^ 48
    + s.boot.stage % 16 * 2 ^ 56 + b2n s.boot.stepLost * 2 ^ 61 + b2n s.boot.failed * 2 ^ 62 + b2n s.boot.ready * 2 ^ 63

/-- `CORE_BIND` (R24): the die field of a withdrawn core keeps its value. -/
def coreBind (s : State) (l : Nat) : Nat :=
  let b := bindOf s l
  if b.bound then b.site % 256 + b2n b.fromReserve * 2 ^ 14 + 2 ^ 15 else dieOf l * 2 ^ 7

/-- `EVT_STAT` (R453). -/
def evtStat (s : State) : Nat :=
  s.tel.buffer.length % 2 ^ 13 + (match s.tel.ring with
    | some r => r.ctx % 1024 * 2 ^ 32 + b2n (ringUsable s r) * 2 ^ 63
    | none => 0)

/-- `LINK_PROTO` and `MAP_STATE` (R280). -/
def linkProto (s : State) : Nat := s.protoMin % 256 + s.protoLevel % 256 * 2 ^ 8
def mapState (s : State) : Nat :=
  match s.map with
  | some m => mapVersion m + 2 ^ 32
  | none => 0

/-- `SEC_STATE` (R437). -/
def secState (s : State) : Nat :=
  s.sec.lifecycle % 4 + s.sec.debug % 4 * 2 ^ 8 + s.sec.scopes % 8 * 2 ^ 12 + b2n s.sec.sincePor * 2 ^ 21 + b2n s.sec.key * 2 ^ 22
    + b2n (s.sec.eng.any id) * 2 ^ 23 + s.sec.fieldOpens % 64 * 2 ^ 26

/-- `SEC_SVN` (R437). -/
def secSvn (s : State) : Nat := ((List.range 8).map (fun k => s.sec.svn.getD k 0 % 64 * 2 ^ (6 * k))).sum

/-- The five registers of a context's state page (R61). -/
def ctxWord (s : State) (c i : Nat) : Nat :=
  let x := getCtx s c
  let queued := x.entries.filter (fun e => e.moved && !e.dispatched && e.st = .waiting)
  if i = 0 then (match x.st with
      | .closed => 0
      | .opened => 1
      | .faulted => 2
      | .orphaned => 3) + (match x.owner with
      | .a => 0
      | .b => 2 ^ 5) + b2n x.forceAllowed * 2 ^ 6 + b2n x.admin * 2 ^ 7 + x.lastFault % 2 ^ 16 * 2 ^ 16
  else if i = 1 then x.head % 2 ^ 16 + x.tail % 2 ^ 16 * 2 ^ 16 + x.nextCseq % 2 ^ 32 * 2 ^ 32
  else if i = 2 then queued.length % 2 ^ 20 + hopperBytes x % 2 ^ 25 * 2 ^ 20
  else if i = 3 then inflight x % 2 ^ 7 + x.lastCseq % 2 ^ 32 * 2 ^ 32
  else if i = 4 then x.written % 2 ^ 64
  else 0

/-- The 8-byte word of the MSI-X pending bit array at word `i`. -/
def pbaWord (x : Port) (i : Nat) : Nat := ((List.range 64).map (fun b => b2n (x.pba.contains (64 * i + b)) * 2 ^ b)).sum

/-- The 8-byte word at index `i` of the low registers. -/
def lowWord (s : State) (p : HostPort) (i : Nat) : Nat :=
  match i with
  | 0 => modIdent s
  | 1 => modCores s
  | 2 => s.time % 2 ^ 64
  | 3 => fabRate s
  | 4 => (getPort s p).winBase % 256 * 2 ^ 36
  | 5 => (getPort s p).discard.word
  | 6 => portId s p
  | 8 => bootStat s
  | _ => if 0x80 ≤ i ∧ i < 0xD8 then coreBind s (i - 0x80) else 0

/-- The 8-byte word of BAR0 at an offset that is a multiple of 8 (R54); what is not listed reads 0 (R17). -/
def bar0Word (s : State) (p : HostPort) (off : Nat) : Nat :=
  let r := fun (base n : Nat) => decide (base ≤ off ∧ off < base + 8 * n)
  let i := fun (base : Nat) => (off - base) / 8
  if off < 0x700 then lowWord s p (off / 8)
  else if off = 0x10000 then evtStat s
  else if off = 0x10008 then s.tel.eseq % 2 ^ 64
  else if off = 0x10010 then s.tel.lost.word
  else if r 0x20000 48 then linkStatWord s (i 0x20000)
  else if r 0x20200 10 then portStatWord s (i 0x20200)
  else if off = 0x20300 then linkProto s
  else if off = 0x20308 then mapState s
  else if off = 0x30000 then routeEpochWord s
  else if off = 0x30008 then routeDrainWord s
  else if r 0x30010 4 then (counterOf s 0 (5 + i 0x30010)).word
  else if off = 0x40000 then pwrStat s
  else if off = 0x40008 then pwrInput s
  else if off = 0x40010 then ladleStat s
  else if off = 0x50000 then secState s
  else if off = 0x50008 then s.ident.serial % 2 ^ 64
  else if off = 0x50010 then secSvn s
  else if r 0x50040 8 then s.sec.version.getD (i 0x50040) 0 % 2 ^ 32
  else if r 0x50100 64 then w64 (measBytes s (i 0x50100 / 8)) (8 * (i 0x50100 % 8))
  else if r 0x80000 32768 then ctxWord s (i 0x80000 / 32) (i 0x80000 % 32)
  else if r 0xC0000 2048 then leNat ((List.range 8).map (fun k => msixByte (getPort s p) (off - 0xC0000 + k)))
  else if r 0xC4000 16 then pbaWord (getPort s p) (i 0xC4000)
  else 0

/-- Bytes of BAR0. -/
def bar0Bytes (s : State) (p : HostPort) (off n : Nat) : List Byte :=
  (List.range n).map (fun k => (toLE 8 (bar0Word s p ((off + k) / 8 * 8))).getD ((off + k) % 8) 0)

end Sys2Proof.Machine
end

