-- ==== Sys2Proof/Safety.lean ====
section
/-! DEFINITION. What a safe step is: it ends in a next state. The only unsafe end is a fault beyond the absolute maximum
ratings (R476); a command that is not modelled is refused by name. -/

namespace Sys2Proof.Safety

open Sys2Proof.Machine

/-- The outcome is a next state. -/
def completes (o : Host.Outcome State Fault Refusal) : Bool :=
  match o with
  | .next _ => true
  | _ => false

/-- A step from this state ends in a next state. -/
def Safe (s : State) : Prop := completes (step s) = true

end Sys2Proof.Safety
end

