-- ==== Sys2Proof/Tests/Slice0.lean ====
section
/-! SUPPORT. Tests of the model, each about one step on a small state, and for each statement of the obligations a state and
operands that meet its hypotheses. -/

namespace Sys2Proof.Tests

set_option Elab.async false

open Sys2Proof Sys2Proof.Machine Sys2Proof.Claims

/-! ## Small states -/

/-- A booted module in ACTIVE whose port A's link is up. -/
def up : State :=
  { boot := { ready := true, stage := 12 }, power := { st := .active }
    portA := { linkUp := true, mse := true, bme := true } }

/-- An instruction word (R86). -/
def word (op dst a b form imm : Nat) : Nat :=
  op * 2 ^ 52 + dst * 2 ^ 46 + a * 2 ^ 40 + b * 2 ^ 34 + form * 2 ^ 32 + imm

/-- A launch in progress. -/
def run0 : Run := { item := { kind := .launch, ctx := 1, cseq := 2 }, cores := 88 }

/-- `up` with a launch on core 0. -/
def withCore (x : Core) : State := { up with cores := [(0, { x with run := some run0 })] }

/-- `up` with core 0 before the word. -/
def atWord (w : Nat) (x : Core) : State := withCore { x with instr := [(x.pc, BitVec.ofNat 64 w)] }

/-- A descriptor of 8-byte words. -/
def desc (ws : List Nat) : List Byte := ws.flatMap (toLE 8)

/-- A job of a stage. -/
def jobOf (d : List Nat) (stage : Nat) : Job := { addr := 0, pc := 3, ctx := 1, cseq := 2, desc := desc d, stage := stage }

/-- `up` with a job at engine `e` of core 0. -/
def atEngine (e : Nat) (j : Job) (x : Core) : State := withCore { x with engines := [(e, { job := some j })] }

/-- A little-endian word in a sparse byte store. -/
def bytesFrom (a : Nat) (b : List Byte) : Tab Byte := writeB [] a b

/-! ## Witnesses: Salfel -/

theorem wit_salfel_arithmetic : ∀ row ∈ aluRows,
    let w := word row.1 63 1 2 (if row.1 = 0x0D then 1 else 0) 0
    Issues (atWord w { g := [(1, 5), (2, 7)] }) 0 w run0 ∧ iOp w = row.1 := by
  simp only [aluRows]
  unfold Issues
  decide

theorem wit_salfel_compare : ∀ row ∈ cmpRows.map (fun (r : Nat × (Nat → Instr) × (Core → Nat → Bool)) => r.1),
    let w := word row 15 1 2 (if row = 0x13 then 1 else 0) 0
    Issues (atWord w {}) 0 w run0 ∧ iOp w = row := by
  unfold Issues cmpRows
  decide

/-- NOP, HALT and TRAP; BR and CALL to the first and the last index; JMP to the last; LOOP that goes back and that falls through. -/
theorem wit_salfel_control :
    (∀ op ∈ [0x00, 0x24, 0x25], Issues (atWord (word op 0 0 0 0 9) {}) 0 (word op 0 0 0 0 9) run0)
    ∧ (∀ op ∈ [0x20, 0x21, 0x23], ∀ e ∈ [(5, 2 ^ 32 - 5, 0), (0, 32767, 32767)],
        let w := word op 3 0 0 1 e.2.1
        let s := atWord w { pc := e.1, g := [(3, 2)] }
        Issues s 0 w run0 ∧ e.2.2 < 32768 ∧ ((getCore s 0).pc : Int) + iSimm w = e.2.2 ∧ gReg (getCore s 0) (iDst w) - 1 ≠ 0)
    ∧ (let s := atWord (word 0x22 0 1 0 0 0) { g := [(1, 32767)] }
       Issues s 0 (word 0x22 0 1 0 0 0) run0 ∧ (opA (getCore s 0) (word 0x22 0 1 0 0 0)).toNat < 32768)
    ∧ (let s := atWord (word 0x23 3 0 0 1 7) { g := [(3, 1)] }
       Issues s 0 (word 0x23 3 0 0 1 7) run0 ∧ gReg (getCore s 0) 3 - 1 = 0)
    ∧ enginesIdle (getCore (atWord (word 0x24 0 0 0 0 0) {}) 0) = true
    ∧ enginesIdle (getCore (atEngine 2 (jobOf [] 3) {}) 0) = false := by
  unfold Issues
  decide

/-- LD and ST at the first and the last word of the scratchpad; the atomics at the last. -/
theorem wit_salfel_memory : ∀ e ∈ [(0x30, 0, Kind.rd), (0x30, 0x5FFFF8, .rd), (0x31, 0, .wr), (0x31, 0x5FFFF8, .wr), (0x32, 0x5FFFF8, .atom),
      (0x33, 0x5FFFF8, .atom), (0x34, 0x5FFFF8, .atom)],
    let w := word e.1 5 0 2 1 e.2.1
    let s := atWord w {}
    Issues s 0 w run0 ∧ addrA (getCore s 0) w (iSimm w) = e.2.1 ∧ Allowed s 0 e.2.1 8 8 e.2.2 ∧ WordsGood s 0 e.2.1 8 {} := by
  unfold Issues Allowed WordsGood
  decide

/-- ARR, VEC and MOV with the last descriptor address, with room and with a full queue; QWAIT with idle and with busy engines. -/
theorem wit_salfel_dispatch :
    (∀ e ∈ [(0x40, 1, 1), (0x41, 0, 2), (0x42, 3, 6)],
      let w := word e.1 0 0 0 1 (0x5FFFC0 + e.2.1)
      let full : Core := { engines := [(e.2.2, { queue := List.replicate 16 (0, 0, 1, 2) })] }
      Issues (atWord w {}) 0 w run0 ∧ Issues (atWord w full) 0 w run0 ∧ addrA (getCore (atWord w {}) 0) w (iSimm w - e.2.1) = 0x5FFFC0
        ∧ (getEngine (getCore (atWord w {}) 0) e.2.2).unstarted e.2.2 < 8 ∧ ¬(getEngine (getCore (atWord w full) 0) e.2.2).unstarted e.2.2 < 16)
    ∧ Issues (atWord (word 0x43 0 0 0 1 127) {}) 0 (word 0x43 0 0 0 1 127) run0
    ∧ (∀ e < 7, engineIdle (getCore (atWord (word 0x43 0 0 0 1 127) {}) 0) e = true)
    ∧ engineIdle { engines := [(2, { job := some (jobOf [] 3) })] } 2 = false := by
  unfold Issues
  decide

/-- A ring of two entries at 0x40: 0 of 2, 1 of 2, 2 of 2. -/
def ring2 (wp : Nat) : Runner := { cfg := 0x8010000000000001, enabled := true, wp := wp }

/-- An enabled spill runner with `n` entries in its head. -/
def spill4 (n : Nat) : Runner :=
  { cfg := 0xC000000000000000, spill := 0x0200000000001000, enabled := true, head := List.replicate n (List.replicate 64 9) }

theorem wit_salfel_runners :
    (∀ q ∈ [ring2 1, ring2 2, spill4 1], let w := word 0x50 0 1 0 1 31
      let s := atWord w { runners := [(31, q)], g := [(1, 0x5FFFC0)] }
      Issues s 0 w run0 ∧ (getRunner s 0 31).enabled = true ∧ Allowed s 0 0x5FFFC0 64 64 .rd ∧ WordsGood s 0 0x5FFFC0 64 {})
    ∧ (ring2 1).canPush = true ∧ (ring2 2).canPush = false
    ∧ (∀ op ∈ [0x51, 0x52], ∀ q ∈ [ring2 0, ring2 1, spill4 0, spill4 1], let w := word op 3 1 0 1 31
      let s := atWord w { runners := [(31, q)], g := [(1, 0x5FFFC0)] }
      Issues s 0 w run0 ∧ (getRunner s 0 31).enabled = true ∧ Allowed s 0 0x5FFFC0 64 64 .wr
        ∧ (q.isSpill = false → WordsGood s 0 (q.slot q.rp) 64 {}) ∧ WordsGood s 0 0x5FFFC0 64 {} ∧ (q.isSpill = true → q.popEmpty = false → (q.head.headD []).length = 64))
    ∧ (ring2 0).popEmpty = true ∧ (ring2 1).popEmpty = false ∧ (spill4 0).popEmpty = true ∧ (spill4 1).popEmpty = false := by
  unfold Issues Allowed WordsGood
  decide

/-- SIG to both counts, WAITC that counts down, that ends a round and that waits, WAITO, RSET and RREAD on the last riser. -/
theorem wit_salfel_risers : ∀ e ∈ [(0x58, 1 * 2 ^ 16, 65534), (0x58, 2 ^ 12 + 65535 * 2 ^ 16, 0), (0x59, 0, 2), (0x59, 0, 1), (0x59, 0, 0),
      (0x5A, 65535 * 2 ^ 16, 65535), (0x5B, 65535 * 2 ^ 16, 3), (0x5C, 0, 3)],
    let w := word e.1 5 1 0 1 e.2.1
    let s := atWord w { g := [(1, 4095)], risers := [(4095, { cur := e.2.2 })] }
    let q := getRiser s 0 4095
    Issues s 0 w run0 ∧ (opA (getCore s 0) w + BitVec.ofNat 64 (iImm w % 4096)).toNat = 4095 ∧ q = { cur := e.2.2 }
      ∧ (e.1 = 0x58 → (if fld (iImm w) 12 12 = 0 then q.cur else q.nxt) + fld (iImm w) 31 16 ≤ 65535) := by
  unfold Issues
  decide

/-- TIME and WHOAMI; the guard that fails, the illegal form, the last index. -/
theorem wit_salfel_issue :
    (let s := { atWord (word 0x60 5 0 0 0 0) { timeCopy := 60 } with time := 100 }
     Issues s 0 (word 0x60 5 0 0 0 0) run0 ∧ (getCore s 0).timeCopy ≤ s.time)
    ∧ Issues (atWord (word 0x61 5 0 0 0 0) {}) 0 (word 0x61 5 0 0 0 0) run0
    ∧ (∀ w ∈ [word 1 5 1 2 0 0 + 2 ^ 59, word 1 5 1 2 2 0, word 1 5 1 2 0 0], ∀ pc ∈ [0, 32767],
        let s := atWord w { pc := pc }
        seqReady s 0 = some run0 ∧ (getCore s 0).halt = false ∧ atBreak (getCore s 0) = false ∧ instrAt s 0 = w ∧ iOp w = 1)
    ∧ guardOf {} (iPred (word 1 5 1 2 0 0 + 2 ^ 59)) (iNeg (word 1 5 1 2 0 0 + 2 ^ 59)) = false
    ∧ formOk (word 1 5 1 2 2 0) = false ∧ formOk (word 1 5 1 2 0 0) = true := by
  unfold Issues
  decide
/-! ## Witnesses: engines -/

/-- A request of 5 W that the reservoir covers, that the pool covers, and that waits behind another core's. -/
theorem wit_ladle_grant :
    let j := { jobOf [] 0 with base := 5 }
    (∀ x ∈ ([{ reservoir := 5 }, {}] : List Core), let s := atEngine 2 j x
      fabricRuns s = true ∧ (getEngine (getCore s 0) 2).asking = some j ∧ raisePending s = false ∧ grantedW s ≤ poolW s)
    ∧ (let s := withCore { engines := [(0, { job := some (jobOf [] 3), ahead := some j })] }
       (getEngine (getCore s 0) 0).asking = some j)
    ∧ (let s := atEngine 2 j { reservoir := 5 }; watts j.base s.power.applied ≤ (getCore s 0).reservoir)
    ∧ (let s := atEngine 2 j {}; (getCore s 0).reservoir < watts j.base s.power.applied ∧ grantedW s + watts j.base s.power.applied ≤ poolW s
        ∧ heldW s + watts j.base s.power.applied ≤ poolW s ∧ s.power.waiting = [])
    ∧ (let s := { atEngine 2 j {} with power := { st := .active, waiting := [(5, 2)] } }
       fabricRuns s = true ∧ (getEngine (getCore s 0) 2).asking = some j ∧ raisePending s = false ∧ ¬(s.power.waiting = [] ∨ s.power.waiting.head? = some (0, 2))) := by
  decide

/-- A tile of one row, one column and one K row in BF16. -/
def tile1 : List Nat := [6 * 2 ^ 60 + 6 * 2 ^ 56, 0x1000 * 2 ^ 32, 64 * 2 ^ 32 + 64, 64 * 2 ^ 32 + 64, 0, 0, 0, 0]

/-- The BF16 operands 2 and 3. -/
def tileData : Tab Byte := bytesFrom 0 [0x00, 0x40] ++ bytesFrom 0x1000 [0x40, 0x40]

/-- A job of `tile1` that has passed its checks. -/
def job1 (stage : Nat) : Job := { jobOf tile1 stage with latched := true }

/-- `up` with `job1` in progress at array 1 of core 0, its tile in the cells. -/
def inTile : State :=
  atEngine 1 (job1 3) { scratch := tileData, cells := [(1, { tile := some (readTile (atEngine 1 (job1 3) { scratch := tileData }) 0 (desc tile1) 0) })] }

theorem wit_array :
    (let s := atEngine 1 (jobOf tile1 0) { scratch := tileData }
     coreRuns s 0 = true ∧ (getEngine (getCore s 0) 1).job = some (jobOf tile1 0) ∧ (jobOf tile1 0).latched = false
       ∧ arrCheck s 0 1 (desc tile1) (jobTrapWord (jobOf tile1 0)) = (s, none) ∧ (getCore s 0).spBad = [])
    ∧ (let s := atEngine 1 (job1 2) { scratch := tileData }
       coreRuns s 0 = true ∧ (getEngine (getCore s 0) 1).job = some (job1 2) ∧ (job1 2).latched = true)
    ∧ (let s := inTile
       let j := job1 3
       jobAt s 0 1 3 = some j ∧ (getCore s 0).spBad = [] ∧ (getCore s 0).accBad = [] ∧ (getCore s 0).breached = []
         ∧ ∃ tile, (getCells (getCore s 0) 1).tile = some tile ∧ tile.kt = j.kt
           ∧ groupPasses {} (computeGroup j.desc (xRows s 0 j.desc j.kt j.row (groupRows j)) tile {}) = true) := by
  refine ⟨by decide, by decide, by decide, by decide, by decide, by decide, readTile (atEngine 1 (job1 3) { scratch := tileData }) 0 (desc tile1) 0, ?_⟩
  decide

/-- 2 times 3 on a fresh tile leaves 6 in the accumulator. -/
theorem test_check_group_product :
    (match exec (.checkGroupVerdict 0 1 {} {} {} {}) inTile with
     | .next t => accAt (getCore t 0) 1 0 0
     | _ => 0) = 0x40C00000 := by
  decide

theorem wit_completion :
    let j := { jobOf [0, 0, 2 ^ 63 + 4095 * 2 ^ 51] 4 with granted := 5 }
    let s := atEngine 2 j { reservoir := 6 }
    doneRiser 0 (desc [2 ^ 49, 0, 0, 0, 0, 4095 * 2 ^ 8]) = some 4095
    ∧ jobAt s 0 2 4 = some j ∧ (getEngine (getCore s 0) 2).queue = [] ∧ (getEngine (getCore s 0) 2).ahead = none
    ∧ (getCore s 0).run = some run0 ∧ run0.halted = false ∧ run0.stopped = false
    ∧ (let d := jobOf [2 ^ 49, 0, 0, 0, 0, 4095 * 2 ^ 8] 4
       let u := atEngine 0 d {}
       jobAt u 0 0 4 = some d ∧ (getRiser u 0 4095).fault = 0 ∧ (getRiser u 0 4095).queue = [] ∧ (getRiser u 0 4095).watch = none
         ∧ (getRiser u 0 4095).cur < 65535) := by
  decide

/-- The functions of R178 of each table. -/
theorem wit_vector : ∀ e ∈ [0x00, 0x01, 0x02, 0x03, 0x04, 0x08, 0x10, 0x19, 0x1C, 0x20, 0x28, 0x3F].zipIdx.map (fun c => (exactFns, c))
      ++ [0x11, 0x12, 0x13, 0x14, 0x15, 0x16, 0x18, 0x1A, 0x1B, 0x1D].zipIdx.map (fun c => (libraryFns, c)) ++ [(exactFns, 0x30, 12)],
    let j := jobOf [e.2.1 * 2 ^ 56, 0, 0, 0, 0, 0, 0, 0] 2
    let s := atEngine 2 j {}
    (jobAt s 0 2 2 = some j ∧ (getCore s 0).spBad = [] ∧ (getCore s 0).accBad = []) ∧ vFunc j.desc = e.2.1
      ∧ (e.2.1 ≠ 0x30 → ((e.1 s 0 j 0)[e.2.2]?).map (fun q => q.2.1) = some e.2.1) := by
  decide

/-- A mover descriptor of one row of 64 bytes: kind, source, destination, low bits of word 0. -/
def move1 (k src dst low : Nat) : List Nat := [k * 2 ^ 60 + low, src, dst, 64, 0, 0, 0, 0]

/-- `NoBad` from a check of the cores that the state lists. -/
theorem noBad_of {s : State} (h : s.poison = [] ∧ ∀ c ∈ s.cores, c.2.spBad = []) : NoBad s := by
  refine ⟨h.1, fun k => ?_⟩
  have hc := h.2
  unfold getCore
  generalize s.cores = cs at hc
  induction cs with
  | nil => rfl
  | cons c r ih =>
    simp only [tget]
    split
    · exact hc c (by simp)
    · exact ih (fun d hd => hc d (by simp [hd]))

/-- `MoverRuns` from such a check. -/
theorem moverRuns_of {s : State} {l m kind : Nat} {j : Job} (h : m < 4 ∧ jobAt s l (m + 3) 2 = some j ∧ mKind j.desc = kind
    ∧ moverStopped s l = false ∧ s.poison = [] ∧ ∀ c ∈ s.cores, c.2.spBad = []) : MoverRuns s l m kind j :=
  ⟨h.1, h.2.1, h.2.2.1, h.2.2.2.1, h.2.2.2.2.1, (noBad_of h.2.2.2.2).2⟩

theorem wit_movers_write :
    (∀ e ∈ [(0, 0x1000, 0x2000, 0), (0, 0, winBase0, 2 ^ 54), (1, 0, winBase0 + 0x5FFFC0, 0)],
      let j := jobOf (move1 e.1 e.2.1 e.2.2.1 e.2.2.2) 2
      let s := { atEngine 6 j {} with ctxs := [(1, { st := .opened })] }
      MoverRuns s 0 3 e.1 j ∧ mDstHost j.desc = false ∧ hostReady s j.ctx = true
        ∧ ∀ r < mRows j.desc, InOnePlace (mDst j.desc + r * mDstStride j.desc) (mLen j.desc)
          ∧ InOnePlace (mSrc j.desc + r * mSrcStride j.desc) (mLen j.desc))
    ∧ mSrcHost (desc (move1 0 0 winBase0 (2 ^ 54))) = true
    ∧ (let j := jobOf [6 * 2 ^ 60, 0x4000, 0x8000, 64, 64 * 2 ^ 32, 0, 2 * 2 ^ 32 + 2, 0x6000] 2
       let s := { atEngine 3 j {} with mem := bytesFrom 0x6000 [1, 0, 0, 0, 2] }
       let g := gatherDesc j.desc
       let idx := fun (i : Nat) => leNat (bytesAt s (g.index + 4 * i) 4)
       MoverRuns s 0 0 6 j ∧ 0 < g.size ∧ g.size ≤ g.pitch ∧ g.index + 4 * g.count ≤ winBase0 ∧ g.table + g.rows * g.size ≤ winBase0
         ∧ (∀ i < g.count, InOnePlace (g.dst + i * g.pitch) g.size) ∧ overlaps g.dst (g.count * g.pitch) g.index (4 * g.count) = false
         ∧ overlaps g.dst (g.count * g.pitch) g.table (g.rows * g.size) = false ∧ idx 0 < g.rows ∧ ¬idx 1 < g.rows) := by
  unfold InOnePlace
  refine ⟨?_, by decide, ?_⟩
  · intro e he
    dsimp only
    refine ⟨moverRuns_of ?_, ?_⟩ <;> revert e <;> decide
  · dsimp only
    refine ⟨moverRuns_of ?_, ?_⟩ <;> decide

/-- Sends of one line: to a core of the other die, by a tree, and an atomic one. -/
theorem wit_movers_send :
    (∀ e ∈ [(2, 87 * 2 ^ 23), (2, 2 ^ 55), (3, 87 * 2 ^ 23 + 2 ^ 56)],
      let j := jobOf (move1 e.1 0x1000 0x40 e.2) 2
      let s := atEngine 3 j {}
      MoverRuns s 0 0 e.1 j ∧ (mMcast j.desc = true ∨ mCoord j.desc ≠ ownCoord s ∨ 88 ≤ mCore j.desc ∨ dieOf (mCore j.desc) ≠ dieOf 0)
        ∧ (cutsOf j.desc).length = 1)
    ∧ (∀ e ∈ [(4, ring2 1, 0x1000, 0), (5, ring2 1, 0, 0x1000)],
      let j := jobOf (move1 e.1 e.2.2.1 e.2.2.2 0) 2
      let s := atEngine 3 j { runners := [(0, e.2.1)] }
      let q := getRunner s 0 (mRunner j.desc)
      MoverRuns s 0 0 e.1 j ∧ mRows j.desc = 1 ∧ mLen j.desc = 64 ∧ j.sent = 0 ∧ j.fail = none ∧ mSigEn j.desc = false ∧ q.enabled = true ∧ q.isSpill = false
        ∧ mLocalPush s 0 j.desc = true ∧ q.canPush = true ∧ q.span ≠ 0 ∧ InOnePlace (mSrc j.desc) 64 ∧ InOnePlace (mDst j.desc) 64) := by
  unfold InOnePlace
  refine ⟨?_, ?_⟩ <;>
  · intro e he
    dsimp only
    refine ⟨moverRuns_of ?_, ?_⟩ <;> revert e <;> decide

theorem wit_spill_movers :
    (let q : Runner := { spill4 16 with tail := [List.replicate 64 1], wp := 3 }
     let s := { up with cores := [(0, { runners := [(0, q)] })] }
     coreRuns s 0 = true ∧ getRunner s 0 0 = q ∧ q.enabled = true ∧ q.isSpill = true ∧ s.poison = [] ∧ q.span < 2 ^ q.ptrLog
       ∧ q.span ≠ 0 ∧ 16 ≤ q.head.length)
    ∧ (let q : Runner := { spill4 7 with wp := 1 }; q.head.length < 8 ∧ q.span ≠ 0) := by
  decide

theorem wit_scrubbers : isBound up 87 = true ∧ stagesAdvance up = true ∧ up.boot.off = false ∧ up.boot.shutdown = false ∧ (getCore up 87).spBad = []
    ∧ inMem up 0x27FFFFFFFC0 64 = true ∧ inMem up 0 64 = true ∧ up.poison = [] ∧ (getBridge up 1).lost = false ∧ (getBridge up 1).fails < 17
    ∧ 17 ≤ (getBridge { up with bridgeB := { fails := 17 } } 1).fails := by
  decide
/-! ## Witnesses: the block, contexts, ports -/

/-- An accepted charge with its parameter words. -/
def entry (op : Nat) (ws : List Nat) : Entry :=
  { cseq := 2, opcode := op, params := desc ws, size := 16 + roundUp (8 * ws.length) 16, moved := true }

/-- The dispatched charge. -/
def runs (op : Nat) (ws : List Nat) : Entry := { entry op ws with dispatched := true }

/-- `up` with context 1 open for port A and these entries. -/
def withEntries (es : List Entry) : State :=
  { up with ctxs := [(1, { st := .opened, admin := true, hopBase := 0x10000000, hopLog2 := 16, ringLog2 := 6, nextCseq := 3, entries := es, written := 1 })] }

/-- `up` with one running charge of context 1. -/
def charging (op : Nat) (ws : List Nat) : State := withEntries [runs op ws]

/-- Charge bytes: opcode, context, CSEQ, parameter words (R62). -/
def bytesOf (op c cseq : Nat) (ws : List Nat) : List Byte := desc ([op + c * 2 ^ 16 + (8 * ws.length) * 2 ^ 48, cseq] ++ ws)

theorem wit_step : Sound State.reset ∧ State.reset.pending = [] ∧ ({ up with pending := [.abortMark 1] } : State).pending = [.abortMark 1] := by
  unfold Sound
  decide

theorem wit_step_next : ∃ t, step State.reset = .next t := ⟨_, rfl⟩

theorem wit_reset_regions : (9 : Nat) < 10 ∧ 0 < 64 ∧ 0x5FFFC0 + 64 ≤ spSize ∧ 0 < 15 ∧ 15 < 16 := by decide

/-- A write that is refused, one at a wrong offset, part of a charge, a whole charge, and one with each bad header. -/
theorem wit_intake :
    let s := withEntries []
    let x := getCtx s 1
    let ok := bytesOf 0x008 1 3 []
    (hubUp s = true ∧ portReady s .a = true ∧ bridgesUp s = true)
    ∧ (∀ d ∈ [ok, ok.take 15, bytesOf 0x008 2 3 [], bytesOf 0x008 1 4 [], desc [0x008 + 2 ^ 16 + 4097 * 2 ^ 48, 3]], outOfOrder s .a 1 0 d = false)
    ∧ (getCtx s 2).st ≠ .opened ∧ x.st = .opened ∧ x.owner = .a ∧ 0 = x.tail ∧ 64 ≠ x.tail
    ∧ ringBytes x + ok.length ≤ 65536 ∧ x.entries.all Entry.moved = true ∧ x.partialBuf = [] ∧ (ok.take 15).length < 16
    ∧ (ok.length = (parseEntry ok).size ∧ headerCtx ok = 1 ∧ headerLen ok ≤ 4096 ∧ (parseEntry ok).cseq = x.nextCseq
        ∧ hopperBytes x + (parseEntry ok).size ≤ 2 ^ x.hopLog2)
    ∧ headerCtx (bytesOf 0x008 2 3 []) ≠ 1 ∧ (parseEntry (bytesOf 0x008 1 4 [])).cseq ≠ x.nextCseq
    ∧ 4096 < headerLen (desc [0x008 + 2 ^ 16 + 4097 * 2 ^ 48, 3]) := by
  decide

/-- A charge that is dispatched, one that is refused, a report, a retirement with and without a record, a full ring and its poll. -/
theorem wit_dispatch_retire :
    (∀ op ∈ [0x100, 0xFFF], ∀ st ∈ [PwrSt.active, .idleLit], let s := { withEntries [entry op []] with power := { st := st } }
      let x := getCtx s 1
      nextQueued x = some ([], entry op []) ∧ bootGate s op = some 0 ∧ held s 1 x (entry op []) = false ∧ mayDispatch x [] (entry op []) = true
        ∧ (dispatchRefusal s x (entry op []) 0 = 0 ↔ op = 0x100))
    ∧ (∀ st ∈ [EntrySt.waiting, .abortPending], let e := { runs 0x100 [] with report := some (0, 7), st := st }
       (getCtx (withEntries [e]) 1).entries.find? (fun y => y.cseq = e.cseq && y.dispatched && y.st ≠ .finished && y.report.isSome) = some e)
    ∧ (∀ quiet ∈ [true, false], let e := { runs 0x100 [] with st := .finished, quiet := quiet }
       let s := withEntries [e]
       let x := getCtx s 1
       x.st ≠ .orphaned ∧ x.held = [] ∧ x.entries = [e] ∧ e.moved = true ∧ e.size ≠ 0 ∧ e.status = 0 ∧ ringRoom x = true ∧ canMaster s x.owner = true)
    ∧ (let x : Ctx := { st := .opened, ringLog2 := 6, written := 64 }
       let s := { up with ctxs := [(1, x)] }
       ringRoom (getCtx s 1) = false ∧ (getCtx s 1).pollTime ≤ s.time ∧ canMaster s .a = true) := by
  decide

theorem wit_flush_abort :
    (∀ e ∈ [entry 0x005 [], entry 0x004 [9]], let s := withEntries [runs 0x100 [], entry 0x100 [], e]
      accepted s 1 2 e.opcode = some e ∧ (getCtx s 1).arrivals = [] ∧ e.reserved = false ∧ tailZero e (if e.opcode = 4 then 8 else 0) = true
        ∧ pw e 0 < 2 ^ 32)
    ∧ (let e := entry 0x006 [2 ^ 32 - 1]; accepted (withEntries [e]) 1 2 0x006 = some e ∧ e.reserved = false ∧ pw e 0 < 2 ^ 32 ∧ tailZero e 8 = true)
    ∧ (∀ v ∈ [([], 0), ([entry 0x100 []], 1), ([runs 0x100 []], 2)], let x : Ctx := { st := .opened, entries := v.1, marks := [(9, 2)] }
       x.marks = (9, 2) :: [] ∧ x.entries.all Entry.moved = true ∧ markFinds x (9, 2) = v.2 ∧ collOf up 1 2 = none)
    ∧ (∀ e ∈ [runs 0x005 [], runs 0x004 [9], runs 0x006 [9], runs 0x008 [], runs 0x008 [1]], let s := withEntries [e]
       accepted s 1 2 e.opcode = none ∧ running s 1 2 e.opcode = some e ∧ (getCtx s 1).arrivals = []
         ∧ (e.opcode ≠ 8 → tailZero e (if e.opcode = 5 then 0 else 8) = true ∧ pw e 0 < 2 ^ 32)) := by
  decide

/-- A CTX_OPEN of a closed and of an open context, with the smallest and the largest rings and hoppers; a takeover of an orphaned and of a faulted
context, and its application; a close. -/
theorem wit_contexts :
    (∀ lg ∈ [6 + 16 * 2 ^ 5, 16 + 24 * 2 ^ 5], ∀ st ∈ [CtxSt.closed, .opened],
      let d := bytesOf 0x001 1 0 [0x10000, 8, 16, 0x1000000, lg, 5, 0, 0]
      let s := { up with ctxs := [(1, { st := st, arrivals := [(.a, d)] })] }
      let e := parseEntry d
      let w := pw e 0x20
      (getCtx s 1).arrivals = [(.a, d)] ∧ e.opcode = 0x001 ∧ openFieldsOk e true = true ∧ e.notify = false ∧ canMaster s .a = true
        ∧ pw e 0x18 % 2 ^ fld w 9 5 = 0 ∧ (st = .closed → inHopper s (pw e 0x18) (2 ^ fld w 9 5) = false)
        ∧ inFast s (pw e 0x18) (2 ^ fld w 9 5) = true)
    ∧ (∀ st ∈ [CtxSt.orphaned, .faulted], let d := bytesOf 0x003 1 0 [0x10000, 8, 16, 0, 6, 0, 0, 0]
      let s := { up with ctxs := [(1, { st := st, arrivals := [(.a, d)] })] }
      (getCtx s 1).arrivals = [(.a, d)] ∧ (parseEntry d).opcode = 0x003 ∧ openFieldsOk (parseEntry d) false = true ∧ (getCtx s 1).st = st
        ∧ (getCtx s 1).takeover = none)
    ∧ (let s := { up with ctxs := [(1, { st := .orphaned, takeover := some (.a, bytesOf 0x003 1 0 [0x10000, 8, 16, 0, 6, 0, 0, 0])
                                         entries := [entry 0x110 []] })] }
       (getCtx s 1).held = [] ∧ (getCtx s 1).entries = [entry 0x110 []])
    ∧ running (charging 0x002 []) 1 2 0x002 = some (runs 0x002 []) ∧ tailZero (runs 0x002 []) 0 = true
    ∧ (let b := { runs 0x002 [] with st := .finished }
       let s := withEntries [b]
       let x := getCtx s 1
       x.st = .opened ∧ x.held = [] ∧ x.takeover = none ∧ x.entries = [b] ∧ b.moved = true ∧ b.status = 0 ∧ b.size ≠ 0 ∧ ringRoom x = true ∧ canMaster s x.owner = true) := by
  decide

theorem wit_bar4 :
    (hubUp up = true ∧ portReady up .a = true ∧ (getPort up .a).pba = [])
    ∧ bar4Target up 0x7FFFFFFFF8 8 = .device ∧ bar4Target up 0 64 = .device ∧ bar4Target up 0x8000000000 8 = .nothing
    ∧ bar4Target up 0x50010000000 8 = .nothing ∧ up.poison = [] := by
  decide

theorem wit_port_events :
    (getPort State.reset .b).pba = [] ∧ hubUp up = true ∧ (getPort { up with portB := { detected := true } } .b).detected = true
    ∧ (getPort up .a).linkUp = true ∧ perstLow { up with pins := { perstB := false } } .b = false
    ∧ running (charging 0x110 []) 1 2 0x110 = some (runs 0x110 []) ∧ (runs 0x110 []).port = .a := by
  decide

/-! ## Witnesses: memory and load charges -/

theorem windowOpen_of {s : State} {a n : Nat} {k : Kind} (h : inWindow a n = none) : WindowOpen s a n k := by
  intro l o m e
  rw [h] at e
  cases e

/-- COPY, FILL, HOST_READ, HOST_WRITE over 64 bytes, to the end of the fast tier and of the deep tier; the check that each passes. -/
theorem wit_memory_charges :
    (∀ e ∈ [(0x1000, 0x7FFFFFFFC0), (0x27FFFFFFFC0, 0x40)], let s := charging 0x100 [e.1, e.2, 64]
      fabricRuns s = true ∧ running s 1 2 0x100 = some (runs 0x100 [e.1, e.2, 64])
        ∧ memCheck s (tailZero (runs 0x100 [e.1, e.2, 64]) 0x18) true true (some (e.1, 64)) (some (e.2, 64)) true = 0
        ∧ moversRun s [(e.1, 64), (e.2, 64)] = true ∧ inWindow e.1 64 = none ∧ inWindow e.2 64 = none)
    ∧ (let s := charging 0x101 [0x1001, 3, 0x55]
       running s 1 2 0x101 = some (runs 0x101 [0x1001, 3, 0x55]) ∧ tailZero (runs 0x101 [0x1001, 3, 0x55]) 0x18 = true
         ∧ memCheck s true true true none (some (0x1001, 3)) false = 0 ∧ inWindow 0x1001 3 = none)
    ∧ (let s := charging 0x110 [0x9000, 0x1000, 64]
       running s 1 2 0x110 = some (runs 0x110 [0x9000, 0x1000, 64]) ∧ memCheck s true true true none (some (0x1000, 64)) false = 0
         ∧ canMaster s .a = true ∧ canMaster s .b = false)
    ∧ (let s := charging 0x111 [0x9000, 0x1000, 64]
       running s 1 2 0x111 = some (runs 0x111 [0x9000, 0x1000, 64]) ∧ memCheck s true true true (some (0x1000, 64)) none false = 0)
    ∧ (shotTarget winBase0 (winAddr 1 0) 64 = some 1 ∧ rebinding up 1 = false ∧ 0 < (getPort up .a).cfg.mps
        ∧ moversRun up [(winBase0, 64), (winAddr 1 0, 64)] = true)
    ∧ NoBad (charging 0x100 []) := by
  refine ⟨by decide, by decide, by decide, by decide, by decide, rfl, fun l => rfl⟩

theorem wit_gather :
    let e := runs 0x120 [0x4000, 0x6000, 0x8000, 2 * 2 ^ 32 + 2, 2 ^ 32 + 64]
    let s := { charging 0x120 [0x4000, 0x6000, 0x8000, 2 * 2 ^ 32 + 2, 2 ^ 32 + 64] with mem := bytesFrom 0x6000 [1, 0, 0, 0, 2] }
    let g := gatherOf e
    running s 1 2 0x120 = some e ∧ isL8 s = true ∧ fld (pw e 0x20) 63 33 = 0 ∧ tailZero e 0x28 = true ∧ gatherShape g = true ∧ gatherEnds s g = 0
      ∧ inWindow g.dst (gatherSpan g) = none ∧ overlaps g.dst (gatherSpan g) g.index (4 * g.count) = false
      ∧ overlaps g.dst (gatherSpan g) g.table (g.rows * g.size) = false ∧ (List.range g.count).countP (fun i => g.rows ≤ leNat (memB s (g.index + 4 * i) 4)) = 1 := by
  decide

/-- Reads and writes of the last region registers of core 87, in an administrative context and in another; a write of a read-only register. -/
theorem wit_register_path :
    let r := 0x50001000000 + 0x1000 * 87 + 8 * 158
    (let s := charging 0x100 [0x50001057000 + 8 * 158, 0x1000, 16]
     fabricRuns s = true ∧ running s 1 2 0x100 = some (runs 0x100 [0x50001057000 + 8 * 158, 0x1000, 16])
       ∧ (regEnd (0x50001057000 + 8 * 158) 16).isSome = true ∧ inMem s 0x1000 16 = true ∧ inHopper s 0x1000 16 = false
       ∧ (getCtx s 1).admin = true) ∧ (regEnd (0x50001057000 + 8 * 158) 16).map (fun e => decide (e.1 = .region 87)) = some true
    ∧ r = 0x500010574F0 ∧ ∃ a, ((regEnd a 8).map (fun e => e.1.readOnly)) = some true := by
  refine ⟨by decide, by decide, by decide, 0x50003000000, by decide⟩
theorem wit_loads :
    (∀ e ∈ [(0x200, [1, 2 ^ 23, 0x1000, 8 + 32767 * 2 ^ 32]), (0x200, [0, 0, 0x1000, 8]), (0x201, [1, 2 ^ 23, 0x1000, 16384 + 15 * 2 ^ 32]),
        (0x201, [1, 0, 0x1000, 0]), (0x210, [1, 2 ^ 23, 32767 + 2 ^ 32, 0x1000]), (0x210, [1, 2 ^ 24, 0, 0])],
      let s := charging e.1 e.2
      fabricRuns s = true ∧ s.poison = [] ∧ (runs e.1 e.2).phase = 0 ∧ (runs e.1 e.2).st ≠ .abortPending ∧ inTurn s 1 2 = true
        ∧ Sole s 1 2 e.1 (runs e.1 e.2))
    ∧ loadStatus up (runs 0x200 [1, 2 ^ 23, 0x1000, 8 + 32767 * 2 ^ 32]) false = 0 ∧ loadStatus up (runs 0x200 [0, 0, 0x1000, 8]) false ≠ 0
    ∧ loadStatus up (runs 0x201 [1, 2 ^ 23, 0x1000, 16384 + 15 * 2 ^ 32]) true = 0 ∧ loadStatus up (runs 0x201 [1, 0, 0x1000, 0]) true ≠ 0
    ∧ launchStatus up (runs 0x210 [1, 2 ^ 23, 32767 + 2 ^ 32, 0x1000]) = 0 ∧ launchStatus up (runs 0x210 [1, 2 ^ 24, 0, 0]) ≠ 0 := by
  unfold Sole
  decide

theorem wit_items :
    (∀ k ∈ [ItemKind.progLoad, .tableLoad, .launch], let i : Item := { kind := k, ctx := 1, cseq := 2, data := toLE 8 7 }
      itemReady { up with cores := [(87, { queue := [i] })] } 87 = some i)
    ∧ itemReady up 87 = none
    ∧ (∀ k ∈ [ItemKind.launch, .collective], let r : Run := { item := { kind := k, ctx := 1, cseq := 2 }, stopping := true }
       let s := { up with cores := [(0, { run := some r, engines := [(2, { job := some (jobOf [] 3) })] })] }
       (getCore s 0).run = some r ∧ coreRuns s 0 = true ∧ r.stopped = false ∧ enginesIdle (getCore (discardUnstarted s 0) 0) = false
         ∧ enginesIdle (getCore (discardUnstarted { up with cores := [(0, { run := some r })] } 0) 0) = true) := by
  decide

/-- Module identity of the tests. -/
def serial0 : Nat := State.reset.ident.serial

/-- An installation map: version 1, X of length 4, port 2 (X+) in use with its first two links. -/
def mapX : List Byte := desc ([1, serial0, 3 * 2 ^ 16, 0, 0, 0, 0, 0] ++ List.replicate 8 0 ++ [77, 2 ^ 8 + 3] ++ List.replicate 110 0)

/-- A map without reserved bits, read once from its first byte to its last. -/
theorem mapReserved_nil {m : List Byte} (h : ∀ e ∈ m.zipIdx, e.1.toNat &&& (255 - (mapMask (e.2 / 8) >>> (8 * (e.2 % 8))) % 256) = 0) :
    mapReserved m = [] := by
  unfold mapReserved
  rw [List.filter_eq_nil_iff]
  intro o _
  by_cases ho : o < m.length
  · have := h (m[o], o) (List.mk_mem_zipIdx_iff_getElem?.2 (by simp [ho]))
    simpa [List.getD_eq_getElem?_getD, ho] using this
  · simp [List.getD_eq_getElem?_getD, ho]

theorem wit_map_ok : mapRefusal up mapX = (0, 0) := by
  have h : mapReserved mapX = [] := mapReserved_nil (by decide +kernel)
  unfold mapRefusal mapFailing
  rw [h]
  decide +kernel

/-- A range of memory that a charge of `s` may name, where nothing is lasting. -/
theorem reachable_of {s : State} {a n : Nat} {k : Kind} (h : deviceOk s a n = true ∧ inWindow a n = none ∧ s.poison = [] ∧ s.cores = []) :
    Reachable s a n k := by
  refine ⟨h.1, by rw [deviceRegion, h.2.1], h.2.2.1, fun l => ?_⟩
  unfold getCore
  rw [h.2.2.2]
  rfl

/-- A scratchpad window of a core, with the regions of reset, may be named too. -/
theorem wit_reach_window : Reachable up (winAddr 87 0x5FFFC0) 64 .wr := by
  refine ⟨by decide, ?_, rfl, fun l => rfl⟩
  have h : inWindow (winAddr 87 0x5FFFC0) 64 = some (87, 0x5FFFC0) := by decide
  have hu : unitAllowed (getCore up 87).regionL 8 .wr 98303 = true := by
    refine List.any_eq_true.2 ⟨0, by decide, ?_⟩
    decide
  simp only [deviceRegion, h, checkRegion]
  decide

theorem wit_map_load :
    (let e := runs 0x010 [0x1000, 1024]
     let s := { charging 0x010 [0x1000, 1024] with mem := writeB [] 0x1000 [1, 0] }
     (running s 1 2 0x010 = some e ∧ pw e 0 % 64 = 0 ∧ pw e 8 = 1024 ∧ tailZero e 0x10 = true) ∧ Reachable s 0x1000 1024 .rd
       ∧ ∀ n, (getLink s n).loopback = none)
    ∧ (mapRefusal up []).1 ≠ 0 ∧ wanted mapX 16 = true ∧ wanted mapX 47 = false ∧ mapEntry mapX 9 = mapEntry mapX 8
    ∧ (let e := runs 0x011 [0x1000]
       (running (charging 0x011 [0x1000]) 1 2 0x011 = some e ∧ pw e 0 % 64 = 0 ∧ tailZero e 8 = true)
         ∧ Reachable (charging 0x011 [0x1000]) 0x1000 2560 .wr) ∧ mapX.length = 1024 := by
  refine ⟨⟨by decide +kernel, reachable_of (by decide +kernel), fun n => rfl⟩, by decide +kernel, by decide +kernel, by decide +kernel,
    by decide +kernel, ⟨by decide +kernel, reachable_of (by decide +kernel)⟩, by decide +kernel⟩

/-! ## Witnesses: links -/

/-- `up` with one link. -/
def withLink (n : Nat) (l : Link) : State := { up with links := [(n, l)] }

/-- A frame header with FSEQ 0 and the last BSEQ, which returns 4,095 credits of lane 3. -/
def frame0 (kind : Nat) : Frame :=
  { kind := kind, fseq := 0, ack := 0, retryReq := false, bseq := 4095, words := 0, port := 0, link := 0, credit := [0, 0, 0, 4095] }

/-- The header as it arrives. -/
def frameAt (kind words port link : Nat) : Frame := { frame0 kind with words := words, port := port, link := link }

theorem wit_retrain :
    (∀ ph ∈ [0, 1], let e := { runs 0x501 [2 ^ 16] with phase := ph }
       running (withEntries [e]) 1 2 0x501 = some e ∧ tailZero e 8 = true ∧ pw e 0 < 2 ^ 49 ∧ bitsOf 48 (pw e 0 % 2 ^ 48) = [16])
    ∧ retrainDone { st := .active } = true ∧ retrainDone { st := .dropped } = true ∧ bitsOf 48 (2 ^ 47) = [47]
    ∧ (let e := runs 0x500 [0x1000]
       (running (charging 0x500 [0x1000]) 1 2 0x500 = some e ∧ pw e 0 % 64 = 0 ∧ tailZero e 8 = true)
         ∧ Reachable (charging 0x500 [0x1000]) 0x1000 1536 .wr) ∧ ∀ n, (getLink up n).loopback = none := by
  refine ⟨by decide +kernel, by decide, by decide, by decide +kernel, ⟨by decide +kernel, reachable_of (by decide +kernel)⟩, fun n => rfl⟩

/-- The first link of the X+ port: a refused retrain of its only active link, and an accepted one of a dropped link. -/
theorem wit_retrain_used : portOf 16 = 2 ∧ retrainRefused { withLink 16 { st := .active } with map := some mapX } (2 ^ 16) false = true
    ∧ retrainRefused { withLink 16 { st := .dropped } with map := some mapX } (2 ^ 16) false = false := by
  decide +kernel

/-- A frame of D link `n` as its neighbour receives it, with MAC addresses of zeros. -/
def packet (n : Nat) : List Byte :=
  let e := encapsulate up n (headerBytes { frame0 0 with port := portOf n, link := linkIndex n })
  let b := List.replicate 12 0 ++ (e.take (e.length - 4)).drop 12
  b ++ toLE 4 (crc32 b)

/-- A data frame in order and one out of order at the last sequence numbers, an acknowledgement, a corrupt frame and one from another link. -/
theorem wit_link_frames :
    (let s := { withLink 17 { st := .active } with lports := [(2, { rxBseq := 4095 })] }
     let body := List.replicate 72 1
     (getLink s 17).loopback = none ∧ receive s 17 (wireOf up 17 (frame0 0) body) true = .frame (frameAt 0 9 2 1) body
       ∧ (frameAt 0 9 2 1).fseq = ((getLink s 17).rxFseq + 1) % 4096 ∧ (frameAt 0 9 2 1).bseq = (getLPort s 2).rxBseq ∧ (getLPort s 2).rxBseq < 4096
       ∧ (getLPort s 2).held = [] ∧ portOf 17 = 2 ∧ (getLink s 17).kept = [] ∧ Quiet s 2 ∧ inBundle (getLink s 17) = true ∧ s.power.st ≠ .drawn
       ∧ receive s 17 (wireOf up 17 { frame0 0 with fseq := 4095 } body) true = .frame { frameAt 0 9 2 1 with fseq := 4095 } body
       ∧ receive s 17 (wireOf up 17 (frame0 0) body) false = .bad
       ∧ receive s 17 (wireOf up 17 (frame0 1) []) true = .frame (frameAt 1 0 2 1) [])
    ∧ (let s := withLink 47 { st := .active }
       receive s 47 (packet 44) true = .frame (frameAt 0 0 8 2) [] ∧ receive s 47 (packet 43) true = .stray)
    ∧ (let l : Link := { st := .active, kept := [⟨0, 0, []⟩, ⟨1, 1, []⟩] }
       l.kept = [] ++ ⟨0, 0, []⟩ :: [⟨1, 1, []⟩] ∧ l.replays = 0 ∧ inBundle l = true) := by
  unfold Quiet
  decide +kernel

/-- R278: a D link counts a frame of another link and asks for no replay. -/
theorem test_foreign_frame_is_counted :
    (match exec (.linkDataFrame 47 (packet 43) true) (withLink 47 { st := .active }) with
      | .next t => some ((getLink t 47).retryReq, (counterOf t 2 (8 * 47 + 4)).count)
      | _ => none) = some (false, 1) := by
  decide +kernel

/-- A frame with fragment `i` of `k` of a link-control message, MSEQ 7. -/
def ctl (n mtype reason k i : Nat) (msg : List Byte) : List Byte := wireOf up n (frame0 2) (fragment (portOf n) mtype reason 7 k i msg)

/-- A message of one fragment arrives on link 16 whole; `h` checks the frame. -/
theorem arrives_one {l : Link} {mtype reason : Nat} {msg : List Byte}
    (h : (speaks l = true ∨ l.st = .keepalive) ∧ l.loopback = none ∧ reason < 16 ∧ l.parts = [] ∧
      (let b := fragment 2 mtype reason 7 1 0 msg
       receive (withLink 16 l) 16 (ctl 16 mtype reason 1 0 msg) true = .frame (frameAt 2 (b.length / 8) 2 0) b ∧ 8 ≤ b.length
         ∧ w64 b 0 = mtype * 2 ^ 56 + 0 * 2 ^ 48 + 1 * 2 ^ 40 + reason * 2 ^ 36 + 7 ∧ b.drop 8 = msg)) :
    ∃ u, Arrives (withLink 16 l) 16 mtype (ctl 16 mtype reason 1 0 msg) true reason msg u := by
  obtain ⟨h1, h2, h3, h4, h5, h6, h7, h8⟩ := h
  have hl : getLink (withLink 16 l) 16 = l := rfl
  refine ⟨modLink (if inBundle l then takeHeader (withLink 16 l) 16 (frameAt 2 ((fragment 2 mtype reason 7 1 0 msg).length / 8) 2 0)
    else withLink 16 l) 16 (fun x => { x with parts := x.parts ++ [(7, 0, (fragment 2 mtype reason 7 1 0 msg).drop 8)] }), ?_⟩
  unfold Arrives
  rw [hl]
  refine ⟨h1, h2, _, _, 7, 0, 1, h5, rfl, h6, by decide, by decide, by decide, h3, h7, by simp [partOf, h4], ?_, rfl, ?_⟩
  · intro j hj hn
    omega
  · simp [h8]

theorem wit_links_drop :
    inBundle { st := .active, replays := 8 } = true ∧ inBundle { st := .keepalive, leaving := true } = true
    ∧ (List.replicate 256 0).length = 256 ∧ (getLink (withLink 0 { st := .dropped, stuck := true }) 0).stuck = true
    ∧ activeLinks (withLink 47 { st := .active }) 9 = [47]
    ∧ (∃ u, Arrives (withLink 16 { st := .active }) 16 4 (ctl 16 4 15 1 0 (toLE 8 (linkIndex 16))) true 15 (toLE 8 (linkIndex 16)) u)
    ∧ (∃ u, Arrives (withLink 16 { st := .keepalive }) 16 5 (ctl 16 5 0 1 0 (toLE 8 (linkIndex 16))) true 0 (toLE 8 (linkIndex 16)) u)
    ∧ (let l : Link := { st := .active, leaving := true }
       inBundle l = true ∧ l.kept = [] ∧ l.noLeave = false ∧ l.told = false ∧ activeLinks (withLink 16 { st := .active, leaving := true }) 2 = [16]) := by
  refine ⟨by decide, by decide, by decide +kernel, by decide, by decide +kernel, arrives_one (by decide +kernel), arrives_one (by decide +kernel),
    by decide +kernel⟩

/-- The identity record of the neighbour at the other end of link 16, as `mapX` expects it, echoing an all-zero challenge. -/
def peerRecord : List Byte :=
  toLE 8 77 ++ toLE 1 3 ++ toLE 1 0 ++ toLE 1 0x10 ++ toLE 1 0x0E ++ toLE 1 1 ++ List.replicate 3 0 ++ toLE 4 1 ++ toLE 2 (2 ^ 9) ++ List.replicate 34 0

/-- The messages of the identification arrive; a record that passes the checks of wiring and levels, and records with a wrong echo, a wrong serial
and levels too low. -/
theorem wit_identity :
    (∀ m ∈ [(1, 0, List.replicate 16 0), (2, 0, peerRecord), (3, 15, toLE 8 0)],
      ∃ u, Arrives (withLink 16 { st := .identify }) 16 m.1 (ctl 16 m.1 m.2.1 1 0 m.2.2) true m.2.1 m.2.2 u)
    ∧ (∃ u, Arrives (withLink 16 { st := .active }) 16 6 (ctl 16 6 0 1 0 (toLE 8 1)) true 0 (toLE 8 1) u)
    ∧ let s := { withLink 16 { st := .identify, chal := List.replicate 16 0 } with map := some mapX }
    let l := getLink s 16
    let q := parsePeer peerRecord
    l.st = .identify ∧ s.sec.lifecycle ≠ 0 ∧ slice peerRecord 0x18 16 = l.chal ∧ wiringOk s mapX 16 q = true ∧ levelOk s 16 q = true
      ∧ slice peerRecord 0x17 16 ≠ List.replicate 16 1 ∧ wiringOk s mapX 16 { q with serial := 78 } = false
      ∧ levelOk s 16 { q with level := 0x0D } = false ∧ ({ l with peerOk := some true }).peerOk = some true ∧ l.peerOk ≠ some true
      ∧ l.ownOk = none ∧ speaks l = true ∧ speaks { l with st := .quarantined, ownOk := some false } = true := by
  refine ⟨?_, arrives_one (by decide +kernel), by decide +kernel⟩
  intro m hm
  simp only [List.mem_cons, List.not_mem_nil, or_false] at hm
  rcases hm with rfl | rfl | rfl <;> exact arrives_one (by decide +kernel)

theorem wit_link_messages :
    activeLinks (withLink 16 { st := .active }) (portOf 16) ≠ []
    ∧ (let l : Link := { st := .active, reps := [(4, 0, 5, 2)] }; inBundle l = true ∧ l.reps = (4, 0, 5, 2) :: [])
    ∧ isNet (portOf 47) = true ∧ (getLink (withLink 47 { st := .training }) 47).st ≠ .dark
    ∧ 5 = ownAddress mapX 47 ∧ State.reset.sec.lifecycle = 2 ∧ ({ lifecycle := 0 } : Sec).lifecycle = 0 := by
  decide +kernel
/-! ## Witnesses: collectives -/

/-- The head of `mapX`: what is read beyond it is 0. -/
def mapHead : List Byte := desc ([1, serial0, 3 * 2 ^ 16, 0, 0, 0, 0, 0] ++ List.replicate 8 0 ++ [77, 2 ^ 8 + 3])

/-- A group of core 0 on the four modules of axis T. -/
def groupT : List Nat := [1, 0, 2 ^ 8, 3 * 2 ^ 5, 0, 0]

/-- A member's READY lines from both neighbours have been noted, every count is 0, every owner of a chunk has reported. -/
def collT (op : Nat) : Coll :=
  { ctx := 1, cseq := 2, opcode := op, group := 0, collSeq := 0, started := [0], readyIn := [(0, 0), (0, 1)]
    counts := [(0, 0), (1, 0), (2, 0), (3, 0)], sends := [0, 0, 0, 0], owners := [(0, 0, 1, 4), (1, 0, 1, 4), (2, 0, 1, 4), (3, 0, 1, 4)] }

/-- This module at coordinate 0 with `groupT` defined and a charge in a phase as `k`. -/
def collWith (k : Coll) (op ph : Nat) (ws : List Nat) : State :=
  { withEntries [{ runs op ws with phase := ph, items := [0] }] with
    map := some mapHead, groups := [(0, { params := groupT })], colls := if ph = 0 then [] else [k]
    cores := [(0, { run := some { item := { kind := .collective, ctx := 1, cseq := 2 } }, groups := [(0, { params := groupT })] })] }

/-- The same with `collT`. -/
def collState (op ph : Nat) (ws : List Nat) : State := collWith (collT op) op ph ws

/-- Every segment of core 0 has been granted, has landed and has left. -/
def movedT (op ph : Nat) (ws : List Nat) : Coll :=
  let s := collState op ph ws
  let e := { runs op ws with phase := ph, items := [0] }
  let into := (List.range 2).map (fun d => (d, (inSegs s (collT op) groupT e 0 d).length))
  { collT op with landed := into, granted := into, sent := (List.range 2).map (fun d => (d, (outSegs s (collT op) groupT e 0 d).length)) }

/-- A region register file at reset lets every master at every unit (R195). -/
theorem unit_default {m u : Nat} {k : Kind} (hu : u ≤ 98303) : unitAllowed [] m k u = true := by
  unfold unitAllowed
  rw [List.any_eq_true]
  refine ⟨0, by decide, ?_⟩
  have h : regionOf [] (16 * m + 0) = 0x8007017FFF000000 := by simp [regionOf, regionReset, tget]
  have hb : bitOf 0x8007017FFF000000 63 = true ∧ bitOf 0x8007017FFF000000 k.bit = true ∧ fld 0x8007017FFF000000 16 0 = 0
      ∧ fld 0x8007017FFF000000 40 24 = 98303 := by cases k <;> decide
  simp only [h, hb.1, hb.2.1, hb.2.2.1, hb.2.2.2]
  simpa using hu

theorem area_default {s : State} {w : List Nat} (h : ∀ l ∈ groupCores w, (getCore s l).region = []) (ha : groupArea w = 0) :
    areaAllowed s w = true := by
  unfold areaAllowed
  simp only [List.all_eq_true]
  intro l hl m _ k _
  rw [h l hl, ha]
  have : ((unitsOf 0 262144).find? (fun u => !unitAllowed [] m k (u / 64))) = none := by
    rw [List.find?_eq_none]
    intro u hu
    unfold unitsOf at hu
    simp only [if_neg (by decide : (262144 : Nat) ≠ 0), List.mem_map, List.mem_range] at hu
    obtain ⟨i, hi, rfl⟩ := hu
    rw [unit_default (by omega)]
    decide
  simp [firstRefused, this]

theorem wit_group_define :
    (∀ ph ∈ [0, 1], let e := { runs 0x300 groupT with phase := ph }
      let i : Item := { kind := .groupDefine, ctx := 1, cseq := 2 }
      let s := { withEntries [e] with map := some mapHead, cores := [(0, { queue := [i] }), (1, { queue := [i] })] }
      Sole s 1 2 0x300 e ∧ fabricRuns s = true ∧ e.st ≠ .abortPending ∧ inTurn s 1 2 = true ∧ itemReady s 0 = some i ∧ itemReady s 1 = some i
        ∧ ofCharge 1 2 i = true ∧ (namedCores e).contains 0 = true ∧ (namedCores e).contains 1 = false)
    ∧ (let s := { up with map := some mapHead }; groupStatus s (runs 0x300 groupT) = 0) ∧ groupStatus up (runs 0x300 groupT) ≠ 0 := by
  refine ⟨by unfold Sole; decide +kernel, ?_, by decide +kernel⟩
  have h : groupWords (runs 0x300 groupT) = groupT := by decide
  unfold groupStatus
  simp only [h, area_default (s := { up with map := some mapHead }) (w := groupT) (fun l _ => rfl) (by decide)]
  decide +kernel

/-- Parameters of the collective charges of R308, each valid: opcode and words. -/
def collParams : List (Nat × List Nat) :=
  [(0x310, [6 * 2 ^ 8 + 6 * 2 ^ 12, 0x1000, 0x2000, 4]), (0x311, [8 * 2 ^ 8 + 8 * 2 ^ 12, 0x1000, 0x2000, 4]), (0x312, [0, 0x1000, 0x2000, 64]),
   (0x313, [0, 0x1000, 0x2000, 0, 0, 0x3000, 0x4000, 64]), (0x314, [0, 0x1000, 0x2000, 64]), (0x315, [0])]

theorem wit_collective_placed :
    (∀ p ∈ collParams, let s := collState p.1 0 p.2
      let e := { runs p.1 p.2 with phase := 0, items := [0] }
      fabricRuns s = true ∧ Sole s 1 2 p.1 e ∧ e.st ≠ .abortPending ∧ inTurn s 1 2 = true ∧ collStatus s 1 e = 0 ∧ s.ends = [])
    ∧ (∃ ws, collStatus (collState 0x315 0 []) 1 (runs 0x315 ws) ≠ 0)
    ∧ (let i : Item := { kind := .collective, ctx := 1, cseq := 2 }
       let k := { collT 0x315 with started := [] }
       let s := { collWith k 0x315 1 [0] with cores := [(0, { queue := [i] })] }
       itemReady s 0 = some i ∧ ofCharge 1 2 i = true ∧ collOf s 1 2 = some k ∧ s.mail = [] ∧ k.hop = none
         ∧ ∀ x ∈ [ringPrev groupT (myRank s groupT), ringNext groupT (myRank s groupT)], coordOfRank s groupT x ≠ ownCoord s) := by
  unfold Sole
  refine ⟨by decide +kernel, ⟨[5], by decide +kernel⟩, by decide +kernel⟩

/-- What of `CollRuns` a check of the state's lists can say. -/
def RunsCheck (s : State) (c q op ph : Nat) (e : Entry) (k : Coll) : Prop :=
  let w := (getGroup s k.group).params
  (fabricRuns s = true ∧ c < 1024 ∧ Sole s c q op e ∧ e.phase = ph ∧ ph ≠ 0 ∧ collOf s c q = some k ∧ k.opcode = op
    ∧ ∀ l ∈ groupCores w, k.started.contains l = true ∧ coreRuns s l = true) ∧ (s.poison = [] ∧ ∀ c ∈ s.cores, c.2.spBad = [])
    ∧ s.step.st = .idle ∧ ∀ q < groupSize w, q ≠ myRank s w → coordOfRank s w q ≠ ownCoord s

/-- `MemberRuns` of a collective in no detour, from such a check. -/
theorem memberRuns_of {s : State} {c q op ph : Nat} {e : Entry} {k : Coll} (h : RunsCheck s c q op ph e k) (hh : k.hop = none)
    (hr : k.relay = false ∧ collReady k (getGroup s k.group).params = true) : MemberRuns s c q op ph e k := by
  obtain ⟨⟨h1, h2, h3, h4, h5, h6, h7, h8⟩, h9, h10, h12⟩ := h
  refine ⟨⟨h1, h2, h3, h4, h5, h6, h7, h8, noBad_of h9, .inl h10, fun q hq hr d => ?_, fun x hx => ?_⟩, hr⟩
  · simpa [hopCoord, hh] using h12 q hq hr
  · simp [hh] at hx

/-- The running charge of the collective witnesses. -/
def collEnt (op ph : Nat) (ws : List Nat) : Entry := { runs op ws with phase := ph, items := [0] }

theorem check_collectives : ∀ p ∈ collParams, ∀ ph ∈ [1, 2, 3], let k := movedT p.1 ph p.2
    let s := collWith k p.1 ph p.2
    RunsCheck s 1 2 p.1 ph (collEnt p.1 ph p.2) k ∧ (k.hop = none ∧ k.relay = false ∧ collReady k (getGroup s k.group).params = true)
      ∧ AllMoved s k (collEnt p.1 ph p.2) := by
  unfold RunsCheck Sole AllMoved
  decide +kernel

/-- Every collective in its phases, with every segment moved. -/
theorem wit_collective_runs : ∀ p ∈ collParams, ∀ ph ∈ [1, 2, 3], let k := movedT p.1 ph p.2
    let s := collWith k p.1 ph p.2
    MemberRuns s 1 2 p.1 ph (collEnt p.1 ph p.2) k ∧ AllMoved s k (collEnt p.1 ph p.2) := by
  intro p hp ph hh
  have h := check_collectives p hp ph hh
  exact ⟨memberRuns_of h.1 h.2.1.1 h.2.1.2, h.2.2⟩

theorem wit_all_to_all :
    let ws := [0, 0x1000, 0x2000, 0, 0, 0x3000, 0x4000, 64]
    let e := runs 0x313 ws
    let k := movedT 0x313 1 ws
    let s := collWith k 0x313 1 ws
    (countList (memB s (cSendCounts e) 16) 4).sum = 0 ∧ (∀ m < 4, ∃ x ∈ k.counts, x.1 = m) ∧ (recvCounts k groupT).sum ≤ cCap e := by
  decide +kernel

/-- Every owner of a reduction's chunks has reported; the blocks of an ALL_GATHER are of its count. -/
theorem wit_reduce_scatter : (scatterRecs (collState 0x311 2 [8 * 2 ^ 8 + 8 * 2 ^ 12, 0x1000, 0x2000, 4]) (collT 0x311) groupT).isSome = true := by
  decide +kernel

/-- A relay of the bypassed link 0 to 1, one step of axis X beside it. -/
def relayT (op : Nat) : Coll := { collT op with relay := true, hop := some 0, finishes := [0, 1], axis := 1 }

theorem check_relay : ∀ p ∈ collParams, let s := { collWith (relayT p.1) p.1 1 p.2 with map := some mapX }
    RunsCheck s 1 2 p.1 1 (collEnt p.1 1 p.2) (relayT p.1) ∧ (∀ q < groupSize groupT, q ≠ myRank s groupT → ∀ d < 2, hopCoord s (relayT p.1) groupT d q ≠ ownCoord s)
      ∧ (∀ x < 4, relayOf s (relayT p.1) groupT x ≠ ownCoord s) ∧ 0 ∈ (relayT p.1).finishes ∧ (0 + 1) % groupSize groupT ∈ (relayT p.1).finishes := by
  unfold RunsCheck Sole
  decide +kernel

/-- The coordinate of a rank of `groupT` goes round its ring of four. -/
theorem relay_mod (s : State) (k : Coll) (x : Nat) : relayOf s k groupT x = relayOf s k groupT (x % 4) := by
  have : ∀ y, coordOfRank s groupT y = setCoord (ownCoord s) 0 (0 + y % 4 * 1) := fun y => rfl
  unfold relayOf
  rw [this, this, Nat.mod_mod]

/-- Beside the two hops across the bypassed link a direction makes no difference. -/
theorem hop_dir (s : State) (k : Coll) (w : List Nat) (d q : Nat) (hd : 2 ≤ d) : hopCoord s k w d q = coordOfRank s w q := by
  unfold hopCoord
  have h0 : d ≠ 0 := by omega
  have h1 : d ≠ 1 := by omega
  cases k.hop <;> simp [h0, h1]

theorem wit_relay : ∀ p ∈ collParams, let s := { collWith (relayT p.1) p.1 1 p.2 with map := some mapX }
    CollRuns s 1 2 p.1 1 (collEnt p.1 1 p.2) (relayT p.1) ∧ 0 ∈ (relayT p.1).finishes ∧ (0 + 1) % groupSize groupT ∈ (relayT p.1).finishes := by
  intro p hp
  obtain ⟨⟨⟨h1, h2, h3, h4, h5, h6, h7, h8⟩, h9, h10, h11⟩, h12, h13, h14⟩ := check_relay p hp
  refine ⟨⟨h1, h2, h3, h4, h5, h6, h7, h8, noBad_of h9, .inl h10, fun q hq hr d => ?_, fun h _ x => ?_⟩, h14⟩
  · by_cases hd : d < 2
    · exact h12 q hq hr d hd
    · rw [hop_dir _ _ _ _ _ (by omega)]
      exact h11 q hq hr
  · exact relay_mod _ _ x ▸ h13 (x % 4) (Nat.mod_lt _ (by decide))

/-- A line of a type in mailbox 1 of core 0, whose riser has its count. -/
def mailState (k : Coll) (typ : Nat) (line : CollLine) : State :=
  let s := collWith k k.opcode 1 [0]
  let data := bytesFrom (boxBase groupT 1) (lineBytes typ line)
  { s with cores := s.cores.map (fun x => (x.1, { x.2 with scratch := data, risers := [(boxRiser groupT 1, { cur := 1 })] })) }

/-- A line has landed, from a check of the state. -/
theorem landed_of {s : State} {l box : Nat} {k : Coll} (h : collOn s l = some k ∧ coreRuns s l = true
    ∧ (getRiser s l (boxRiser (getGroup s k.group).params box)).cur ≠ 0 ∧ s.poison = [] ∧ ∀ c ∈ s.cores, c.2.spBad = []) :
    ∃ b u, Landed s l box k b u ∧ b = bytesAt s (winAddr l (boxBase (getGroup s k.group).params box
      + 64 * (lookD 0 (coreGroup s l k.group).took box % 128))) 64 :=
  ⟨_, _, ⟨h.1, h.2.1, noBad_of h.2.2.2, h.2.2.1, rfl, rfl⟩, rfl⟩

/-- A line of each type, one that differs in a bit that no type names, and one of the next collective. -/
theorem wit_collective_lines : ∀ relay ∈ [true, false], ∀ typ ∈ [1, 2, 3, 4, 5],
    let k := { collT 0x315 with relay := relay, readyIn := [(0, 1)] }
    let e := collEnt 0x315 1 [0]
    let line := { readyLine (collWith k 0x315 1 [0]) k e with w20 := 0, w18 := 0, w10 := 0 }
    let s := mailState k typ line
    let at_ := winAddr 0 (boxBase groupT 1 + 64 * 0)
    (collOn s 0 = some k ∧ coreRuns s 0 = true ∧ (getRiser s 0 (boxRiser groupT 1)).cur ≠ 0 ∧ s.poison = [] ∧ ∀ c ∈ s.cores, c.2.spBad = [])
      ∧ collEntry s k = some e ∧ lineDefined (bytesAt s at_ 64) = true ∧ lineType (bytesAt s at_ 64) = typ ∧ ofColl s k (readLine (bytesAt s at_ 64)) = true
      ∧ (typ = 1 → lineShape (readLine (bytesAt s at_ 64)) = lineShape (readyLine s k e))
      ∧ (let n := mailState k typ { line with collSeq := 1 }
         lineDefined (bytesAt n at_ 64) = true ∧ ofColl n k (readLine (bytesAt n at_ 64)) = false ∧ k.readyIn.contains (0, 1) = true)
      ∧ (let d := mailState k 1 { line with w20 := 1 }
         lineDefined (bytesAt d at_ 64) = true ∧ lineShape (readLine (bytesAt d at_ 64)) ≠ lineShape (readyLine d k e))
      ∧ lineDefined (bytesAt (mailState k 6 line) at_ 64) = false := by
  decide +kernel

theorem wit_collective_ends :
    let s := collState 0x315 1 [0]
    let k := collT 0x315
    hubUp s = true ∧ s.ends.any (fun x => x.1 = (getGroup s k.group).hash && x.2.1 = k.collSeq) = false ∧ k.group < 256 ∧ k.collSeq < 2 ^ 32
      ∧ s.colls.find? (fun x => x.group = k.group && x.collSeq = k.collSeq && (getGroup s x.group).hash = (getGroup s k.group).hash && x.ctx ≠ replayCtx) = some k
      ∧ (getGroup s k.group).defined = true ∧ groupRelay groupT = false ∧ ringNext groupT 0 = 1 ∧ ringPrev groupT 0 = 3
      ∧ ({ s with ends := [(0, 0, 0, 0)] } : State).ends.any (fun x => x.1 = 0 && x.2.1 = k.collSeq) = true
      ∧ collOf s 1 2 = some k ∧ k.started ≠ [] ∧ s.fence.restarting = false ∧ k.ctx ≠ replayCtx ∧ k.relay = false ∧ k.hop = none
      ∧ 1 < groupSize groupT ∧ collOn up 0 = none := by
  decide +kernel

/-! ## Witnesses: shots and routing -/

/-- A shot from core 5 of another module. -/
def shot0 (typ seq : Nat) (last : Bool) (payload : List Byte) : Shot :=
  { dest := 0, core := 0, vl := 0, epoch := 0, typ := typ, flow := 1023, seq := seq, last := last, rcarry := false, mcast := false, payload := payload, tail := 0 }

/-- An open transfer of `count` lines of one row to the end of the scratchpad. -/
def flow0 (kind count : Nat) : Flow :=
  { st := 1, kind := kind, srcCore := 5, srcMover := 2, srcCoord := 9, dst := 0x600000 - 64 * count, rowLen := 64 * count, count := count }

/-- `up` with that flow at core 0 and a remote runner 0. -/
def withFlow (x : Flow) : State :=
  { up with cores := [(0, { flows := [(1023, x)], runners := [(0, { ring2 1 with cfg := 0xA010000000000001 })] })] }

theorem wit_shots :
    (∀ st ∈ [0, 2], (getFlow (withFlow { flow0 2 1 with st := st }) 0 1023).st ≠ 1) ∧ writerRuns (withFlow (flow0 2 1)) 0 = true
    ∧ (openRecord (openPayload (flow0 2 1))).srcCoord = 9 ∧ (flow0 2 1).srcCoord ≠ (openRecord (openPayload { flow0 2 1 with srcCoord := 8 })).srcCoord
    ∧ (∀ e ∈ [(1, flow0 2 2, Kind.wr), (2, flow0 3 2, .atom), (3, { flow0 3 2 with atomSat := true }, .atom), (4, flow0 4 2, .wr)],
      let sh := shot0 e.1 1 false (List.replicate 64 1)
      let s := withFlow e.2.1
      Fits s 0 e.1 sh e.2.1 ∧ NoSignal sh ∧ (nextLine e.2.1).2.1 + 64 ≤ spSize ∧ (nextLine e.2.1).1 % 8 = 0
        ∧ firstRefused (getCore s 0).regionL 8 e.2.2 [((nextLine e.2.1).2.1, 64)] = none
        ∧ shotFits e.2.1 (shot0 e.1 2 false []) = false ∧ shotFits { e.2.1 with got := 1 } (shot0 e.1 2 true []) = true)
    ∧ (let q := getRunner (withFlow (flow0 4 1)) 0 0
       q.enabled = true ∧ cfgRemote q.cfg.toNat = true ∧ q.canPush = true ∧ q.isSpill = false) := by
  unfold Fits NoSignal
  decide +kernel

theorem wit_nack :
    let sh := shot0 8 0 true (toLE 8 (2 ^ 24 + 5 * 2 ^ 38 + 7 * 2 ^ 48))
    let e := { runs 0x210 [1] with phase := 1, items := [0] }
    let s := { withEntries [e] with cores := [(0, { run := some run0, sends := [(1024 + 5, (3, 1, 2))] })] }
    sh.typ = 8 ∧ writerRuns s 0 = true ∧ writerRuns up 0 = true ∧ (getCore up 0).run = none ∧ collOfFlow s 0 5 = none ∧ collOfFlow up 0 5 = none
      ∧ (getCore s 0).run = some run0 ∧ (getEngine (getCore s 0) 4).job = none
      ∧ tget (0, 0, 0) (getCore s 0).sends (1024 * (w64 sh.payload 0 / 2 ^ 24 % 4) + w64 sh.payload 0 / 2 ^ 38 % 2 ^ 10) = (3, 1, 2)
      ∧ ofCharge 1 2 run0.item = true ∧ run0.item.kind = .launch ∧ run0.stopped = false ∧ Sole s 1 2 0x210 e := by
  unfold Sole
  decide +kernel

/-- A module on a ring of axis X, with one shot at an input port. -/
def routeNet (p : Nat) (x : Shot) (links : Tab Link) (f : Fencing) : State :=
  { up with map := some mapHead, links := links, fence := f, lports := [(p, { inbuf := [x] })]
            route := { cur := { version := 1, dirs := [[], [0, 0, 0, 1], [], [], []] }, mcast := [(7, { inPort := 2, outs := 0, cores := 1 + 2 ^ 87 })] } }

/-- The hypotheses about the shot that leaves. -/
def Oldest (s : State) (p : Nat) (x : Shot) : Prop :=
  (headsOf s p).find? (mayLeave s p) = some x ∧ s.boot.off = false ∧ s.boot.shutdown = false ∧ s.route.old = none ∧ s.route.heldShots = []

/-- Shots at port 2 for this module's Afiup, for a core that takes shots, that is being rebound and that is withdrawn; one from port 3 for port 2, with every
replay buffer full and with a link free; a multicast to cores 0 and 87; one of an undefined type. -/
theorem wit_router :
    let x := shot0 1 1 false []
    let w := { x with dest := 2 ^ 9 }
    let m := { x with dest := 7, mcast := true }
    (∀ y ∈ [x, { x with typ := 9 }], Oldest (routeNet 2 y [] {}) 2 y ∧ hopOf (routeNet 2 y [] {}) 2 y = .toDie)
    ∧ (let s := routeNet 2 x [] {}; coreGone s 0 = false ∧ coreHeld s 0 = false)
    ∧ (let s := routeNet 2 x [] { active := [(0, { core := 0, cause := 1 })] }; Oldest s 2 x ∧ coreGone s 0 = false ∧ coreHeld s 0 = true)
    ∧ (let s := routeNet 2 x [] { withdrawn := [0] }; Oldest s 2 x ∧ hopOf s 2 x = .toDie ∧ coreGone s 0 = true)
    ∧ (let s := routeNet 3 w [(16, { st := .active, kept := List.replicate 128 { fseq := 0, bseq := 0, shots := [] } })] {}
       Oldest s 3 w ∧ hopOf s 3 w = .out 2 ∧ w.replay = false ∧ w.mirror = false ∧ w.vl < 4 ∧ nextLink s 2 = none)
    ∧ (let s := routeNet 3 w [(16, { st := .active })] {}
       Oldest s 3 w ∧ hopOf s 3 w = .out 2 ∧ nextLink s 2 = some 16 ∧ Quiet s 2 ∧ bseqSpan s 2 < 1024 ∧ s.power.st ≠ .drawn)
    ∧ (let s := routeNet 2 m [] {}
       Oldest s 2 m ∧ hopOf s 2 m = .copies [] [0, 87] ∧ ∀ l ∈ [0, 87], coreGone s l = false ∧ coreHeld s l = false)
    ∧ (let z := { x with typ := 11 }
       Oldest (routeNet 2 z [] {}) 2 z ∧ hopOf (routeNet 2 z [] {}) 2 z = .discard 2 0 ∧ z.typ ≠ 0) := by
  unfold Quiet Oldest
  intro x w m
  refine ⟨?_, ?_, ?_, ?_, ?_, ?_, ?_, ?_⟩ <;> decide +kernel
/-- A table, with the identity on axis X; a switch to it, at once and waiting; a tree entry and an empty one; the wrong table version. -/
theorem wit_route_charges :
    (let e := runs 0x510 [1 + 1 * 2 ^ 32, 0, 2 ^ 2 + 2 ^ 4 + 2 ^ 7, 0, 0, 0]
     let s := { withEntries [e] with map := some mapHead }
     running s 1 2 0x510 = some e ∧ s.route.old = none ∧ fld (pw e 0) 33 32 = (s.route.epoch + 1) % 4)
    ∧ (let e := runs 0x511 [7]
       let tab : RouteTab := { version := 7 }
       let s := { withEntries [e] with route := { next := some tab } }
       running s 1 2 0x511 = some e ∧ e.phase = 0 ∧ s.route.old = none ∧ s.route.waitDrain = none ∧ s.route.next = some tab ∧ pw e 0 = tab.version
         ∧ tailZero e 8 = true ∧ tab.version < 2 ^ 32 ∧ ({ tab with version := 8 } : RouteTab).version ≠ pw e 0
         ∧ ({ s with route := { s.route with old := some (3, {}) } }).route.old ≠ none)
    ∧ (let e := runs 0x511 [2 ^ 32 + 7]
       let tab : RouteTab := { version := 7 }
       let s := { withEntries [e] with route := { next := some tab } }
       Sole s 1 2 0x511 e ∧ e.phase = 0 ∧ s.route.old = none ∧ s.route.waitDrain = none ∧ s.route.next = some tab ∧ tailZero e 8 = true
         ∧ pw e 0 = tab.version + 2 ^ 32)
    ∧ (∀ ws ∈ [[255, 10 + 2 ^ 18, 1, 2 ^ 23], [255 + 2 ^ 8, 0, 0, 0], [255, 11, 0, 0]], let e := runs 0x520 ws
       let s := { withEntries [e] with map := some mapHead }
       running s 1 2 0x520 = some e ∧ (mcastOk s e = true ↔ ws ≠ [255, 11, 0, 0])) := by
  unfold Sole
  decide +kernel

/-- A DRAIN shot of epoch 3, and a lane of port 2 whose DRAIN is due: no input port is steady. -/
theorem wit_drain :
    (let x := { shot0 10 0 true (toLE 1 (3 * 16 + 15) ++ List.replicate 63 0) with epoch := 3 }
     let s := { up with lports := [(2, { inbuf := [x] })] }
     x.typ = 10 ∧ x ∈ (getLPort s 2).inbuf ∧ s.route.old = none ∧ (∀ v < 4, bitOf (x.payload.headD 0).toNat v = true))
    ∧ (let s := { up with map := some mapHead, links := [(16, { st := .active, leaving := true })], lports := [(2, { steady := true })],
                          route := { old := some (3, {}) } }
       drainDue s 3 2 ≠ [] ∧ allDrained s 3 = false ∧ nextLink s 2 = none) := by
  decide +kernel

/-! ## Witnesses: steps -/

/-- A backward plan at 0x1000 with one layer and no stash, the update plan at 0x1800 with one chunk of one element, its coefficient row's flag byte. -/
def planMem (flags : Byte) : Tab Byte :=
  writeB (writeB (writeB [] 0x1000 (desc [0, 0, 0, 0, 0x2000, 0x800000, 1, 0x4000]))
    0x1800 (desc [1, 0x1C00, 0x4000000, 0x10000, 0, 0, 0, 0, 0x100000, 0x3000, 1 + 64 * 2 ^ 32, 1, 0, 0, 0, 0])) 0x1003F [flags]

/-- A step in a state, with its charge. -/
def stepState (st : StepSt) (op ph : Nat) (ws : List Nat) : State :=
  { withEntries [{ runs op ws with phase := ph }] with
    mem := planMem 0x80, step := { st := st, ctx := 1, plan := [0, 0, 0, 0, 0x2000, 0x800000, 1, 0x4000], updPlan := 0x1800, updCores := [0], updCtx := (1, 2) } }

theorem wit_forward :
    (∀ v ∈ [([0, 0, 0, 0, 0x1000], 0), ([8, 9, 5, 4096, 0x1000], 0), ([0, 1, 0, 0, 0x1000], Status.stepMarkInvalid)],
      let e := runs 0x400 v.1
      let s := stepState .idle 0x400 0 v.1
      Marks s 1 2 0 e ∧ libraryMoves s = false
        ∧ firstFail (markChecks s 1 e [(mkPlan e, 64)] ++ [(planOk s (mkPlan e), Status.stashPlanInvalid)]) = v.2)
    ∧ (∀ v ∈ [(1, StepSt.forward, 0), (2, .backward, 0), (2, .forward, Status.stepPhaseOrder)],
      let e := runs 0x400 [v.1]
      let s := stepState v.2.1 0x400 0 [v.1]
      Marks s 1 2 v.1 e ∧ firstFail (markChecks s 1 e [(gw s.step.plan 7, 88 * 32)]) = v.2.2
        ∧ reportAny s 2 = false ∧ reportAny { s with mem := writeB [] (0x4000 + 32 * 87 + 16) [1] } 2 = true)
    ∧ Marks (stepState .idle 0x400 0 [5]) 1 2 5 (runs 0x400 [5]) ∧ libraryMoves (stepState .idle 0x400 0 [5]) = false := by
  unfold Marks Sole
  decide +kernel

/-- A mark that passes and one that fails, with core 87 bound; a core at its only chunk, frozen or not, or WRITING, at each step of the procedure, and at
the end. -/
theorem wit_update :
    let ws := [3, 0, 0, 0, 0x1800, 0, 0, 0x3F800000]
    (∀ ph ∈ [0, 1, 3], let e := { runs 0x400 ws with phase := ph }
      let s := stepState .exchange 0x400 ph ws
      Marks s 1 2 3 e ∧ s.step.updCtx = (1, 2) ∧ e.status = 0 ∧ 87 ∈ boundCores s)
    ∧ updStatus (stepState .exchange 0x400 0 ws) 1 (runs 0x400 ws) = 0 ∧ updStatus (stepState .forward 0x400 0 ws) 1 (runs 0x400 ws) ≠ 0
    ∧ twinReady (stepState .exchange 0x400 0 ws) = true
    ∧ runsItem (stepState .exchange 0x400 1 ws) 0 1 2 = false := by
  unfold Marks Sole
  decide +kernel

/-- An UPDATE mark with its item on core 0 and these chunks in flight. -/
def updating (flags : Byte) (writing : Bool) (work : List ChunkWork) : State :=
  let s := stepState .exchange 0x400 1 [3, 0, 0, 0, 0x1800, 0, 0, 0x3F800000]
  { withEntries [{ runs 0x400 [3, 0, 0, 0, 0x1800, 0, 0, 0x3F800000] with phase := 1, items := [0] }] with
    cores := [(0, { run := some { item := { kind := .update, ctx := 1, cseq := 2 } } })]
    mem := if writing then writeB (planMem flags) (planLedger s 0x1800) [1] else planMem flags
    step := { s.step with step := 0, work := work } }

/-- The region of the plan's chunk. -/
def region1 : Region := [0x100000, 0x3000, 1 + 64 * 2 ^ 32, 1, 0, 0, 0, 0]

theorem wit_update_chunk :
    (∀ v ∈ [(0x80, false), (0xC0, false), (0x80, true)], let s := updating v.1 v.2 []
      OneCore s 1 2 0 ∧ s.step.work = [] ∧ nextChunk s 0 1 = some 0 ∧ chunkAt (updRegions s) 0 = some (region1, 0)
        ∧ frozenGroup s s.step.updPlan (rgGroup region1) = decide (v.1 = 0xC0) ∧ (ledger s 0).1 = if v.2 then 1 else 0)
    ∧ (∀ i < 5, let y : ChunkWork := { chunk := 0, stage := i + 1 }
      let s := updating 0x80 false [y]
      OneCore s 1 2 0 ∧ s.step.work = [y] ∧ nextChunk s 0 1 = none ∧ chunkAt (updRegions s) y.chunk = some (region1, 0))
    ∧ (let s := updating 0x80 false []
       nextChunk { s with step := { s.step with updPlan := 0 } } 0 1 = none
         ∧ ∃ e, (getCtx s 1).entries = [e] ∧ Marks s 1 2 3 e ∧ e.phase = 1 ∧ e.items ≠ []) := by
  unfold OneCore Marks Sole
  refine ⟨by decide +kernel, by decide +kernel, by decide +kernel, _, rfl, by decide +kernel, rfl, by decide⟩

/-- Seals of the group of this module alone: an accepted and a refused charge, a full log, a lone record that does not balance, and an empty log. -/
theorem wit_seal :
    let e := runs 0x401 [0]
    let s := { stepState .updated 0x401 0 [0] with groups := [(0, { params := [1, 0, 0, 0, 0, 0] })] }
    Sole s 1 2 0x401 e ∧ sealStatus s 1 e = 0 ∧ sealStatus { s with step := { s.step with st := .exchange } } 1 e ≠ 0
      ∧ groupAxes (getGroup s 0).params = [] ∧ (ownRecord s).ovf = false ∧ faultMask (ownRecord s) = 0
      ∧ (ownRecord { s with step := { s.step with logOvf := true } }).ovf = true
      ∧ Sole { stepState .updated 0x401 1 [0] with groups := s.groups } 1 2 0x401 { e with phase := 1 } := by
  unfold Sole
  decide +kernel

/-- A group of core 0 on axis X, whose ring of four this module begins, and the records of its three other members. -/
def sealState (own : List (Nat × List Byte)) (masks : List Nat) : State :=
  let s := stepState .updated 0x401 1 [0]
  { s with
    map := some mapHead, groups := [(0, { params := groupT })]
    step := { s.step with
      log := own
      stages := masks.zipIdx.map (fun m => (s.step.step, 0, m.2 + 1, { members := 1, mask := m.1, balance := [], ovf := m.1 = 9, layers := [] })) } }

/-- The digest record of an ALL_REDUCE in group 0, whose fold goes to a ring of four. -/
theorem wit_seal_folds :
    let s := { sealState [(0, desc [0, 0, 0x310 * 2 ^ 12, 0])] [] with ctxs := (stepState .updated 0x401 0 [0]).ctxs }
    Sole s 1 2 0x401 (runs 0x401 [0]) ∧ sealStatus s 1 (runs 0x401 [0]) = 0 ∧ (foldedColls s).map Prod.fst = [0]
      ∧ (getGroup s 0).defined = true ∧ groupSize (getGroup s 0).params = 4 := by
  unfold Sole
  decide +kernel

/-- The three records agree, one says that its log is full, one that group 2 diverged. -/
theorem wit_seal_axis : ∀ m ∈ [[0, 0, 0], [0, 9, 0], [0, 0, 4]],
    let s := sealState [] m
    let g := getGroup s 0
    let r := ((heardRecs s g.params 0 s.step.step).filterMap id).foldl combine (ownRecord s)
    Sole s 1 2 0x401 { runs 0x401 [0] with phase := 1 } ∧ groupAxes g.params = [0] ∧ (heardRecs s g.params 0 s.step.step).all Option.isSome = true
      ∧ r.ovf = decide (m = [0, 9, 0]) ∧ (m = [0, 0, 4] → faultMask r ≠ 0) ∧ (m = [0, 0, 0] → faultMask r = 0) := by
  unfold Sole
  decide +kernel

/-- A fold from the predecessor; the record of another member that goes on and one at the end of its way; a seal in progress. -/
theorem wit_seal_messages :
    let s := { up with map := some mapHead, groups := [(0, { params := groupT })] }
    let fold : SealMsg := { kind := 6, group := 0, step := 7, value := 5, ghash := 0, origin := 3 }
    let stage : Nat → SealMsg := fun hops => { kind := 7, group := 0, step := 7, value := 1, ghash := 0, origin := 3, hops := hops }
    let g := getGroup s 0
    let stages : SealMsg → Prop := fun m =>
      let r := readSeal (sealHead m)
      msgKind (sealHead m) = 7 ∧ r.group = 0 ∧ g.hash = r.ghash ∧ (groupAxes g.params).contains r.axis = true ∧ s.step.step ≤ r.step ∧ r.hops = m.hops
    hubUp s = true ∧ s.fence.restarting = false ∧ g.defined = true ∧ s.step.sealing = none
      ∧ (let r := readSeal (sealHead fold)
         msgKind (sealHead fold) = 6 ∧ r.group = 0 ∧ g.hash = r.ghash ∧ r.opcode ≠ opAllToAllV ∧ r.origin = ringPrev g.params (myRank s g.params)
           ∧ s.step.step ≤ r.step)
      ∧ stages (stage 2) ∧ stages (stage 3)
      ∧ (∀ hops ∈ [2, 3], hops + 1 < (groupSpan g.params 0).2.1 ↔ hops = 2)
      ∧ ({ ctx := 1, cseq := 2, group := 0, own := ⟨1, 0, [], false, []⟩ } : SealRun).done = false := by
  refine ⟨by decide +kernel, by decide, by decide +kernel, by decide, by decide +kernel, ?_, ?_, by decide +kernel, by decide⟩ <;>
    · dsimp only
      decide +kernel

/-- A redo that is refused, one that the exchange does not cover, one without a twin, and one whose chunk the mirror has; an abandon that is refused and
one that is not. -/
theorem wit_rollback :
    let s := stepState .diverged 0x402 0 [0, 0]
    running s 1 2 0x402 = some (runs 0x402 [0, 0]) ∧ rollbackStatus s 1 (runs 0x402 [0, 0]) = 0 ∧ rollbackStatus s 1 (runs 0x402 [1, 0]) ≠ 0
      ∧ bitOf (pw (runs 0x402 [0, 0]) 8) 0 = false ∧ bitOf (pw (runs 0x402 [0, 1]) 8) 0 = true
      ∧ (1 &&& planXgroups s 0x1800) ≠ 1 ∧ s.step.divMask &&& planXgroups s 0x1800 = s.step.divMask ∧ twinOf s = none
      ∧ rollbackStatus s 1 (runs 0x402 [0, 1]) = 0 ∧ rollbackStatus { s with step := {} } 1 (runs 0x402 [0, 1]) ≠ 0
      ∧ updateRuns s = false ∧ s.step.planHash = none ∧ s.step.sealing = none := by
  decide +kernel

/-- A map that names a twin at coordinate 1. -/
def mapTwin : List Byte := desc [1, serial0, 3 * 2 ^ 16, 55, 2 ^ 12 + 2 ^ 16]

theorem mirrorOf_single {a : Nat} {d : List Byte} (h : d.length = pieceSize) : mirrorOf [(a, d)] a = some d := by
  simp [mirrorOf, h]

/-- The plan's chunk carries the gradient exchange, and the mirror holds its piece. -/
theorem wit_rollback_chunk :
    let s := { stepState .diverged 0x402 0 [0, 0] with
      map := some mapTwin
      mem := writeB [] 0x1800 (desc [1, 0x1C00, 0x4000000, 0x10000, 0, 0, 0, 0, 0x100000, 0x3000, 1 + 64 * 2 ^ 32, 1 + 2 ^ 28, 0, 0, 0, 0]) }
    running s 1 2 0x402 = some (runs 0x402 [0, 0]) ∧ rollbackStatus s 1 (runs 0x402 [0, 0]) = 0
      ∧ s.step.divMask &&& planXgroups s s.step.updPlan = s.step.divMask
      ∧ (twinOf s).isSome = true ∧ (allChunks s).filter (fun x => rgColl x.2.1) = [(0, [0x100000, 0x3000, 1 + 64 * 2 ^ 32, 1 + 2 ^ 28, 0, 0, 0, 0], 0)]
      ∧ ClearOf s 0x100000 0 ∧ s.poison = [] ∧ mirrorOf [(0x100000, List.replicate 65536 0)] 0x100000 = some (List.replicate 65536 0) := by
  refine ⟨by decide +kernel, by decide +kernel, by decide +kernel, by decide +kernel, by decide +kernel, by unfold ClearOf; decide +kernel, rfl, ?_⟩
  exact mirrorOf_single List.length_replicate

/-- A module with the journal entry of step 5 and a charge REPLAY. -/
def replayState (ph : Nat) (ws : List Nat) : State :=
  { stepState .idle 0x403 ph ws with journal := { entries := [⟨5, 1, 2, 3, [], true, [], [], [], [], [], 0, false, false⟩] } }

/-- A RUN before and after its re-execution, with a report of each status; CAPTURE; RESTORE with a twin and without one; a reserved action. -/
theorem wit_replay :
    (let s := replayState 0 [0, 5, 0x8000]
     Sole s 1 2 0x403 (runs 0x403 [0, 5, 0x8000]) ∧ replaying s = false ∧ (journalOf s 5).isSome = true ∧ replayStatus s 1 (runs 0x403 [0, 5, 0x8000]) = 0
      ∧ replayStatus s 1 (runs 0x403 [0, 5, 0x8001]) ≠ 0)
    ∧ (∀ k ∈ [0, 1, 5], let e := { runs 0x403 [0, 5, 0x8000] with phase := 2, staged := desc [5, 0, 0, 0, 0, 0, k * 2 ^ 32, 0] }
       let s := { withEntries [e] with step := { st := .idle } }
       Sole s 1 2 0x403 e ∧ replayQuiet s = true ∧ e.staged.length = 64 ∧ s.poison = [])
    ∧ (∀ v ∈ [[1], [1 + 2 ^ 9], [3], [2]], let s := replayState 0 v
       Sole s 1 2 0x403 (runs 0x403 v) ∧ (v ≠ [3] → (replayStatus s 1 (runs 0x403 v) = 0 ↔ v ≠ [1 + 2 ^ 9])))
    ∧ replayStatus { replayState 0 [2] with step := { st := .forward } } 1 (runs 0x403 [2]) ≠ 0 ∧ twinOf (replayState 0 [2]) = none
    ∧ (let s := { replayState 0 [2] with map := some mapTwin }
       Sole s 1 2 0x403 (runs 0x403 [2]) ∧ replayStatus s 1 (runs 0x403 [2]) = 0 ∧ (twinOf s).isSome = true) := by
  unfold Sole
  decide +kernel

/-- Every message of the Afiups, by its opening payload. -/
theorem wit_afiup_messages : ∀ k ∈ [1, 2, 3, 4, 5], ∀ m ∈ ([{ kind := k, full := true, addr := 0x10000, step := 9, value := 1, serial := 6 },
      { kind := k, noImage := true, resend := true, serial := serial0 }] : List MirrorMsg),
    readMirror (mirrorHead m) = m ∧ msgKind (mirrorHead m) = k := by
  have h : ∀ x y : MirrorMsg, x.kind = y.kind ∧ x.full = y.full ∧ x.noImage = y.noImage ∧ x.resend = y.resend ∧ x.addr = y.addr ∧ x.step = y.step
      ∧ x.value = y.value ∧ x.serial = y.serial → x = y := by
    rintro ⟨⟩ ⟨⟩ ⟨h1, h2, h3, h4, h5, h6, h7, h8⟩
    simp_all
  intro k hk m hm
  refine ⟨h _ _ ?_, ?_⟩ <;> revert m k <;> decide +kernel

theorem wit_twins :
    let s := { up with map := some mapTwin }
    hubUp s = true ∧ s.fence.restarting = false ∧ hubUp { s with fence := { restarting := true } } = true
      ∧ s.map.isSome = true ∧ s.twin.restore = none ∧ s.twin.bound = none
      ∧ s.twin.committed = none ∧ s.twin.discarding = false ∧ s.twin.asked = false ∧ fromTwin s (2 ^ 12) = true ∧ s.twin.queued = none
      ∧ (let h : Twin := { bound := some (5, 6), committed := some 9, pieces := [{ addr := 0x10000, step := 9, digest := 1, serial := 6 }] }
         imageFor { s with twin := h } 0 = some 9 ∧ imageFor { s with twin := h } 9 = some 9 ∧ imageFor { s with twin := h } 8 = none ∧ h.newPieces = 0
           ∧ (5 : Nat) ≠ 4)
      ∧ (let h : Twin := { bound := some (5, 6), discarding := true, asked := true }; h.discarding = true ∧ h.bound = some (5, 6))
      ∧ (let h : Twin := { bound := some (5, 6), asked := true }; h.discarding = false ∧ h.committed = none ∧ h.asked = true)
      ∧ (let h : Twin := { sending := some (9, true, 1) }; h.sending = some (9, true, 1))
      ∧ (let h : Twin := { restore := some (1, 2), restored := [0x10000, 0x10000, 0] }
         h.restore.isSome = true ∧ h.corrupt = false ∧ h.restored.dedup.length = 2) := by
  decide +kernel

/-- A right piece at the top of the fast tier, and a wrong one. -/
theorem wit_piece :
    pieceOk up 6 9 0x7FFFFF0000 (pieceDigest 6 9 0x7FFFFF0000 (List.replicate 65536 0)) (List.replicate 65536 0) = true
      ∧ pieceOk up 6 9 0x8000000000 0 [] = false := by
  refine ⟨?_, by decide⟩
  have h : inFast up 0x7FFFFF0000 pieceSize = true := by decide
  simp only [pieceOk, h, List.length_replicate, Bool.and_eq_true, decide_eq_true_eq]
  exact ⟨⟨⟨by decide, trivial⟩, rfl⟩, trivial⟩
/-! ## Witnesses: fences, power -/

/-- A fence of core 0 in a stage, with a site to bind. -/
def fence0 (stage : Nat) : Fence := { core := 0, cause := 1, charges := [(1, 2)], stage := stage, newSite := some 3 }

theorem wit_fence :
    (let s := { up with fence := { waiting := [fence0 0] } }
     s.fence.waiting.find? (fun y => dieOf y.core = 0) = some (fence0 0) ∧ fenceOn s 0 = none ∧ s.fence.restarting = false ∧ hubUp s = true
       ∧ isBound s 0 = true ∧ runsUpdate s 0 = false)
    ∧ (∀ st ∈ [1, 2, 3, 5], let s := { up with fence := { active := [(0, fence0 st)] } }
       fenceOn s 0 = some (fence0 st) ∧ runsUpdate s 0 = false ∧ (getCore s 0).run = none ∧ (getCore s 0).queue = []
         ∧ (spareSites s 0).any (fun y => !s.fence.testing.any (fun t => t.1 = y)) = true ∧ s.fence.withdrawn.contains 0 = false
         ∧ s.tel.lostNow = 0 ∧ s.tel.buffer.length < 4096)
    ∧ (let s := { up with fence := { active := [(0, fence0 1)], fenced := [0, 1, 2, 3] }, groups := [(0, { params := groupT })] }
       fenceOn s 0 = some (fence0 1) ∧ (getCore s 0).run = none ∧ (getCore s 0).queue = [] ∧ spareSites s 0 = [] ∧ (getCore s 0).hubItems = []
         ∧ s.route.heldShots.filter (fun y => y.shot.core = 0) = [] ∧ (groupCores (getGroup s 0).params).contains 0 = true)
    ∧ (let h : Held := { shot := shot0 1 1 false [], port := 2, lane := 0, key := 1 }
       let s := { up with fence := { active := [(0, fence0 3)] }, route := { heldShots := [h, { h with key := 2 }] } }
       fenceOn s 0 = some (fence0 3) ∧ (getCore s 0).run = none ∧ dieLost s (dieOf 0) = false
         ∧ (∀ y ∈ s.fence.active, y.2.core = 0 → y.1 = 0) ∧ (s.route.heldShots.filter (fun h => h.shot.core = 0)).length = 2)
    ∧ isBound up 87 = true ∧ up.fence.restarting = false ∧ hubUp up = true := by
  decide +kernel

theorem wit_core_fence :
    (∀ w ∈ [0, 43, 43 + 2 ^ 8, 127], let e := runs 0x903 [w]
      Sole (charging 0x903 [w]) 1 2 0x903 e ∧ e.phase = 0 ∧ fld (pw e 0) 7 7 = 0 ∧ fld (pw e 0) 63 9 = 0 ∧ tailZero e 8 = true)
    ∧ isBound up 127 = false ∧ isBound up 43 = true ∧ spareSites up 0 ≠ [] ∧ spareSites { up with fence := { fenced := [0, 1, 2, 3] } } 0 = []
    ∧ isBound { up with fence := { fenced := [0, 1, 2, 3] } } 43 = true ∧ hubUp up = true := by
  unfold Sole
  decide +kernel

theorem wit_power_events :
    (∀ v ∈ [(32000, 32000, 35999), (35999, 32000, 35999), (36000, 36000, 44000), (44000, 36000, 44000), (44001, 44001, 48000), (48000, 44001, 48000)],
      v.2.1 ≤ v.1 ∧ v.1 ≤ v.2.2 ∧ v.1 ≤ 54000) ∧ up.boot.off = false ∧ up.boot.shutdown = false
    ∧ (∀ st ∈ [PwrSt.active, .drawn], let s := { up with power := { st := st } }
      5 ≤ s.boot.stage ∧ s.power.railLow = false ∧ 659 < s.power.threshold ∧ running s s.step.updCtx.1 s.step.updCtx.2 0x400 = none)
    ∧ (∀ x ∈ [false, true], let s := { up with power := { avgW := 2201, cuts := 19, excess := x } }
       effLimit s s.power.limitW < s.power.avgW ∧ s.power.cuts < 20 ∧ s.tel.lostNow = 0 ∧ s.tel.buffer.length < 4096)
    ∧ (let s := { up with power := { cuts := 1, avgW := 2090 } }; s.power.avgW * 100 ≤ effLimit s s.power.limitW * 95)
    ∧ (∀ v ∈ [(110, false), (105, false), (109, false), (99, true), (100, true), (104, false)], ({ throttle := v.2 } : Power).throttle = v.2) := by
  decide

theorem wit_power_charges :
    (let s := { charging 0x600 [1] with power := { target := some .drawn } }; Sole s 1 2 0x600 (runs 0x600 [1]) ∧ s.power.target.isSome = true)
    ∧ (let s := { up with power := { st := .idleLit, wake := true } }; s.power.wake = true ∧ s.power.st = .idleLit ∧ s.power.target = none)
    ∧ (∀ w ∈ [0, 1 + 4 + 5 * 2 ^ 16, 2, 3], let e := runs 0x600 [w]
      let s := charging 0x600 [w]
      Sole s 1 2 0x600 e ∧ s.power.target = none ∧ ((fld w 1 0 ≠ 3 ∧ fld w 15 3 = 0 ∧ fld w 63 32 = 0 ∧ tailZero e 8 = true) ↔ w ≠ 3)
        ∧ (s.power.st = pwrOf (fld w 1 0) ↔ w = 0))
    ∧ (∀ v ∈ [(PwrSt.idleLit, PwrSt.active), (.active, .idleLit), (.active, .drawn), (.drawn, .active), (.drawn, .idleLit)],
      let e := { runs 0x600 [5] with phase := 1 }
      let s := { withEntries [e] with power := { st := v.1, target := some v.2, charge := some (1, 2), intent := true } }
      Sole s 1 2 0x600 e ∧ s.power.charge = some (1, 2) ∧ s.boot.off = false ∧ s.boot.shutdown = false ∧ s.power.wake = false
        ∧ quiescent s = true ∧ drawReady s = true ∧ intentsMet s = true ∧ ({ s.power with lowDrawn := true } : Power).st = s.power.st)
    ∧ (∀ w ∈ [1000, 2200 + 4 * 2 ^ 16, 999], let e := runs 0x601 [w]
      Sole (charging 0x601 [w]) 1 2 0x601 e ∧ fld (pw e 0) 63 19 = 0 ∧ tailZero e 8 = true)
    ∧ (∀ a ∈ [0x7FFFFFFD00, 0x8000000000], let e := runs 0x602 [a]
      Sole (charging 0x602 [a]) 1 2 0x602 e ∧ pw e 0 % 64 = 0 ∧ tailZero e 8 = true ∧ (inFast up a 768 = true ↔ a = 0x7FFFFFFD00)) := by
  unfold Sole
  decide +kernel

/-! ## Witnesses: security. The signatures are the verifier's to decide: the witnesses take its answer as a premise. -/

/-- A token for a state: kind, scopes, all lifecycles, one minute, serial, the first nonce, the key digest, a signature. -/
def token (s : State) (kind scopes : Nat) : List Byte :=
  toLE 4 kind ++ [BitVec.ofNat 8 scopes, 15, if kind = 1 then 1 else 0, 0] ++ toLE 8 s.ident.serial ++ slice (Config.nonceBytes 0) 0 16 ++ keyDigest s
    ++ List.replicate 114 0

theorem length_slice (b : List Byte) (o n : Nat) : (slice b o n).length = n := by
  simp [slice]

theorem length_keyDigest (s : State) : (keyDigest s).length = 32 := by
  unfold keyDigest
  split
  · exact List.length_replicate
  · exact length_slice _ _ _

/-- A slice that starts and ends at the bounds of a part of an append. -/
theorem slice_mid (a b c : List Byte) : slice (a ++ b ++ c) a.length b.length = b := by
  simp [slice, List.append_assoc]

theorem length_token (s : State) (k sc : Nat) : (token s k sc).length = 178 := by
  simp [token, length_toLE, length_slice, length_keyDigest]

theorem token_key (s : State) (k sc : Nat) : slice (token s k sc) 0x20 32 = keyDigest s := by
  have h := slice_mid (toLE 4 k ++ [BitVec.ofNat 8 sc, 15, if k = 1 then 1 else 0, 0] ++ toLE 8 s.ident.serial ++ slice (Config.nonceBytes 0) 0 16)
    (keyDigest s) (List.replicate 114 0)
  simpa [token, length_toLE, length_slice, length_keyDigest] using h

theorem token_nonce (s : State) (k sc : Nat) : slice (token s k sc) 0x10 16 = slice (Config.nonceBytes 0) 0 16 := by
  have h := slice_mid (toLE 4 k ++ [BitVec.ofNat 8 sc, 15, if k = 1 then 1 else 0, 0] ++ toLE 8 s.ident.serial) (slice (Config.nonceBytes 0) 0 16)
    (keyDigest s ++ List.replicate 114 0)
  simpa [token, length_toLE, length_slice, length_keyDigest, List.append_assoc] using h

/-- A debug token and a return authorisation in memory, the first nonce live, with a signature that verifies and one that does not. -/
theorem wit_token : ∀ v ∈ [(1, 2, 5), (2, 3, 0)],
    let t := token up v.1 v.2.2
    let s := { up with sec := { nonce := some 0 }, mem := writeB [] 0x1000 t }
    memB s 0x1000 178 = t ∧ nonceOk s t = true ∧ nonceOk up t = false
      ∧ (Config.verifies v.2.1 (slice t 0 0x40) (slice t 0x40 114) = true → tokenOk s t v.1 v.2.1 = true)
      ∧ (Config.verifies v.2.1 (slice t 0 0x40) (slice t 0x40 114) = false → tokenOk s t v.1 v.2.1 = false) := by
  intro v hv
  have h1 : wordAt (token up v.1 v.2.2) 0 4 = v.1 ∧ w64 (token up v.1 v.2.2) 8 = serial0 % 2 ^ 64
      ∧ bitOf (wordAt (token up v.1 v.2.2) 5 1) 2 = true
      ∧ (if v.1 = 1 then wordAt (token up v.1 v.2.2) 4 1 < 8 && 1 ≤ wordAt (token up v.1 v.2.2) 6 2 && wordAt (token up v.1 v.2.2) 6 2 ≤ 1440
          else wordAt (token up v.1 v.2.2) 4 1 = 0) = true := by
    revert v
    decide +kernel
  have h2 := token_key up v.1 v.2.2
  have h3 := token_nonce up v.1 v.2.2
  have h4 := readB_writeB [] 0x1000 (token up v.1 v.2.2)
  rw [length_token] at h4
  dsimp only
  generalize token up v.1 v.2.2 = t at *
  refine ⟨h4, ?_, rfl, fun h => ?_, fun h => ?_⟩
  · simp [nonceOk, h3]
  · unfold tokenOk
    rw [h, h1.1, h1.2.1, h2]
    simp only [h1.2.2]
    simp [serial0, keyDigest, up, State.reset]
  · simp [tokenOk, h]

/-- A firmware image of one subsystem without payload: its digest is right. -/
def image0 (k : Nat) : List Byte :=
  toLE 4 1 ++ [0x48, BitVec.ofNat 8 k, 0, 1] ++ toLE 4 9 ++ toLE 4 0 ++ slice (Config.shake512 []) 0 64 ++ List.replicate 176 0

theorem length_image (k : Nat) : (image0 k).length = 256 := by
  simp only [image0, List.length_append, length_toLE, length_slice, List.length_replicate, List.length_cons, List.length_nil]

theorem image_digest (k : Nat) : slice (image0 k) 0x10 64 = slice (Config.shake512 []) 0 64 := by
  have h := slice_mid (toLE 4 1 ++ [0x48, BitVec.ofNat 8 k, 0, 1] ++ toLE 4 9 ++ toLE 4 0) (slice (Config.shake512 []) 0 64) (List.replicate 176 0)
  simpa [image0, length_toLE, length_slice] using h

theorem image_rest (k : Nat) : slice (image0 k) 0x50 62 = List.replicate 62 0 := by
  have h := slice_mid (toLE 4 1 ++ [0x48, BitVec.ofNat 8 k, 0, 1] ++ toLE 4 9 ++ toLE 4 0 ++ slice (Config.shake512 []) 0 64) (List.replicate 62 0)
    (List.replicate 114 0)
  rw [List.append_assoc _ (List.replicate 62 0), List.replicate_append_replicate] at h
  simpa only [image0, List.length_append, length_toLE, length_slice, List.length_replicate, List.length_cons, List.length_nil] using h

/-- An image of each kind of subsystem, with a signature that verifies and one that does not, and the charge that brings it. -/
theorem wit_firmware : ∀ k ∈ List.range 8,
    let b := image0 k
    let s := { charging 0x701 [0x1000, 256] with mem := writeB [] 0x1000 b }
    memB s 0x1000 256 = b ∧ running s 1 2 0x701 = some (runs 0x701 [0x1000, 256]) ∧ fwFieldStatus s (runs 0x701 [0x1000, 256]) = 0
      ∧ s.sec.fw.length = 8 ∧ s.sec.svn.length = 8 ∧ secTurn s 1 2 = true ∧ otherUpdate s 1 2 = false ∧ imageSub b = k
      ∧ (Config.verifies 0 (slice b 0 0x8E) (slice b 0x8E 114) = true → fwImageStatus s b = 0)
      ∧ (Config.verifies 0 (slice b 0 0x8E) (slice b 0x8E 114) = false → fwImageStatus s b ≠ 0) := by
  intro k hk
  have h1 : imageSub (image0 k) = k ∧ wordAt (image0 k) 0 4 = 1 ∧ wordAt (image0 k) 4 1 = 0x48 ∧ wordAt (image0 k) 6 1 = 0
      ∧ wordAt (image0 k) 7 1 = 1 ∧ wordAt (image0 k) 0x0C 4 = 0 ∧ k < 8 := by
    revert k
    decide +kernel
  have h2 : (image0 k).drop 256 = [] := by rw [List.drop_eq_nil_iff, length_image]
  have h3 := image_rest k
  have h4 := image_digest k
  have h5 := length_image k
  have h6 := readB_writeB [] 0x1000 (image0 k)
  rw [length_image] at h6
  dsimp only
  generalize image0 k = b at *
  have hi : fwFieldStatus { charging 0x701 [0x1000, 256] with mem := writeB [] 0x1000 b } (runs 0x701 [0x1000, 256]) = 0 := by
    rw [show fwFieldStatus { charging 0x701 [0x1000, 256] with mem := writeB [] 0x1000 b } (runs 0x701 [0x1000, 256])
      = fwFieldStatus (charging 0x701 [0x1000, 256]) (runs 0x701 [0x1000, 256]) from rfl]
    decide
  refine ⟨h6, rfl, hi, rfl, rfl, rfl, rfl, h1.1, fun h => ?_, fun h => ?_⟩
  · have hs : imageSigned { charging 0x701 [0x1000, 256] with mem := writeB [] 0x1000 b } b = true := by
      simp [imageSigned, h1.2.2.2.1, bitOf, b2n, h]
    have hf : imageFormed b b.length = true := by
      simp only [imageFormed, h1, h2, h3, h4, h5]
      simp
    have hv : (parseImage b).svn = 1 := h1.2.2.2.2.1
    have hd : (charging 0x701 [0x1000, 256]).sec.svn.getD k 0 ≤ 1 := by
      clear h hs hf hv hi h1 h2 h3 h4 h5 h6
      revert k
      decide
    have hp : (charging 0x701 [0x1000, 256]).power.st = .active := rfl
    simp only [fwImageStatus, hs, hf, hv, h1.1, hp, hd, firstFail]
    rfl
  · have hs : imageSigned { charging 0x701 [0x1000, 256] with mem := writeB [] 0x1000 b } b = false := by
      simp [imageSigned, h1.2.2.2.1, bitOf, b2n, h]
    simp [fwImageStatus, hs, firstFail, Status.fwSignatureInvalid]

theorem wit_security :
    (let e := runs 0x700 [0x1000, 255 + 2 ^ 8, 0, 0, 0, 0]
     secTurn (charging 0x700 [0x1000, 255 + 2 ^ 8, 0, 0, 0, 0]) 1 2 = true ∧ Sole (charging 0x700 [0x1000, 255 + 2 ^ 8, 0, 0, 0, 0]) 1 2 0x700 e ∧ pw e 0 % 64 = 0 ∧ fld (pw e 8) 63 9 = 0 ∧ tailZero e 0x30 = true)
    ∧ (∀ w ∈ [0, 1], let e := runs 0x702 [w, 0x1000, 0x2000, 178]
      let s := charging 0x702 [w, 0x1000, 0x2000, 178]
      Sole s 1 2 0x702 e ∧ secTurn s 1 2 = true ∧ debugFieldsOk e = true ∧ s.power.st ≠ .drawn ∧ inMem s (pw e 0x10) 64 = true ∧ inMem s (pw e 8) 178 = true
        ∧ fld (pw e 0x18) 31 0 = 178 ∧ s.sec.lifecycle = 2 ∧ s.sec.fieldOpens < 32)
    ∧ (let e := runs 0x702 [1, 0, 0, 0]
       let s := { charging 0x702 [1, 0, 0, 0] with sec := { lifecycle := 3 } }
       Sole s 1 2 0x702 e ∧ secTurn s 1 2 = true ∧ debugFieldsOk e = true ∧ s.sec.lifecycle = 3 ∧ fld (pw e 0x18) 31 0 = 0)
    ∧ Sole (charging 0x703 []) 1 2 0x703 (runs 0x703 []) ∧ secTurn (charging 0x703 []) 1 2 = true
    ∧ (∀ v ∈ [(0, 1), (1, 2), (2, 3), (3, 0)], let e := runs 0x704 [v.2, 0x1000, 0x2000, 178]
      let s := { charging 0x704 [v.2, 0x1000, 0x2000, 178] with sec := { lifecycle := v.1 } }
      Sole s 1 2 0x704 e ∧ secTurn s 1 2 = true ∧ fld (pw e 0) 63 3 = 0 ∧ fld (pw e 0x18) 63 32 = 0 ∧ tailZero e 0x20 = true ∧ s.step.st = .idle ∧ fabricBusy s = false
        ∧ (lifecycleOrderOk s (fld (pw e 0) 1 0) (bitOf (pw e 0) 2) = true ↔ v.1 ≠ 3) ∧ s.sec.staged = false ∧ inMem s (pw e 0x10) 57 = true
        ∧ inMem s (pw e 8) 178 = true)
    ∧ (let e := runs 0x704 [1 + 4, 0x1000, 0x2000, 178]
       let s := { charging 0x704 [1 + 4, 0x1000, 0x2000, 178] with sec := { lifecycle := 0, staged := true } }
       Sole s 1 2 0x704 e ∧ secTurn s 1 2 = true ∧ lifecycleOrderOk s (fld (pw e 0) 1 0) (bitOf (pw e 0) 2) = true ∧ s.sec.lifecycle = 0 ∧ s.sec.staged = true
         ∧ inMem s (pw e 8) (fld (pw e 0x18) 31 0) = true)
    ∧ ({ timed := true } : Sec).timed = true ∧ fabricOpen up = false ∧ fabricOpen { up with sec := { scopes := 1 } } = true := by
  unfold Sole
  decide +kernel

/-- Of two charges of class 0x7xx that run, the earlier dispatched has the turn and the other waits. -/
theorem wit_security_turn :
    (let s := { charging 0x703 [] with sec := { line := [(1, 3), (1, 2)] } }
     let s := setCtx s 1 { getCtx s 1 with entries := { runs 0x703 [] with cseq := 3 } :: (getCtx s 1).entries }
     secTurn s 1 3 = true ∧ secTurn s 1 2 = false) := by decide

theorem wit_restart_and_debug_step :
    (let e := { runs 0x701 [0x1000, 256] with phase := 1 }
     let s := { withEntries [e] with fence := { restarting := true }, sec := { applying := some (1, 2, 2) } }
     s.fence.restarting = true ∧ s.fence.heldMsgs = [] ∧ s.sec.applying = some (1, 2, 2) ∧ Sole s 1 2 0x701 e ∧ secTurn s 1 2 = true)
    ∧ (∀ v ∈ [(1, 6), (1, 7), (2, 5)], let e := { runs 0x701 [0x1000, 256] with phase := v.1, result := v.2 }
       let s := withEntries [e]
       Sole s 1 2 0x701 e ∧ secTurn s 1 2 = true ∧ s.step.st = .idle ∧ ∀ l ∈ boundCores s, (getCore s l).run = none)
    ∧ (let s := { atWord (word 1 5 1 2 0 0) { halt := true } with sec := { scopes := 1 } }
       fabricOpen s = true ∧ (getCore s 0).halt = true ∧ iOp (instrAt s 0) = 1) := by
  unfold Sole
  decide +kernel

/-! ## Witnesses: telemetry, tests, boot -/

theorem wit_telemetry :
    (∀ v ∈ [(0, 0), (3 + 4, 0x1000)], let e := runs 0x800 [v.2, v.1]
      Sole (charging 0x800 [v.2, v.1]) 1 2 0x800 e ∧ pw e 0 % 64 = 0 ∧ fld (pw e 8) 63 3 = 0 ∧ tailZero e 0x10 = true
        ∧ inFast up v.2 (64 + 8 * setSize (fld (pw e 8) 1 0)) = true)
    ∧ inFast up 0x8000000000 192 = false
    ∧ (∀ n ∈ [1, 64], let e := runs 0x801 [0x1000, 0, n]
      Sole (charging 0x801 [0x1000, 0, n]) 1 2 0x801 e ∧ pw e 0 % 64 = 0 ∧ fld (pw e 0x10) 63 7 = 0 ∧ tailZero e 0x18 = true ∧ 1 ≤ n ∧ n ≤ 64
        ∧ inFast up 0x1000 (192 * n) = true)
    ∧ (∀ n ∈ [0, 65], let e := runs 0x801 [0x1000, 0, n]
      Sole (charging 0x801 [0x1000, 0, n]) 1 2 0x801 e ∧ fld (pw e 0x10) 63 7 = 0 ∧ fld (pw e 0x10) 6 0 = n)
    ∧ (∀ v ∈ [(0x1000, 8, 6), (0x1000, 8, 16 + 32 + 5 * 2 ^ 16), (0, 0, 64), (0x1000, 8, 17)], let e := runs 0x802 [v.1, v.2.1, v.2.2]
      Sole (charging 0x802 [v.1, v.2.1, v.2.2]) 1 2 0x802 e ∧ pw e 0 % 4096 = 0 ∧ pw e 8 % 8 = 0 ∧ fld (pw e 0x10) 15 7 = 0 ∧ fld (pw e 0x10) 63 26 = 0
        ∧ tailZero e 0x18 = true)
    ∧ (∀ w ∈ [0, 64], let r : Ring := { ctx := 1, base := 0, consAddr := 8, log2 := 6, msixEn := false, msixVec := 0, written := w }
      let v : Event := { status := 0x201, severity := 1, source := 0, eseq := 0, time := 0 }
      let s := { withEntries [] with tel := { ring := some r, buffer := [v] } }
      s.tel.ring = some r ∧ s.tel.buffer = [v] ∧ ringUsable s r = true ∧ s.tel.lostNow = 0 ∧ (r.written - r.consumed < 2 ^ r.log2 ↔ w = 0)
        ∧ r.pollTime ≤ s.time ∧ (w = 64 → 2 ^ r.log2 ≤ r.written - 0 % 2 ^ 64)) := by
  unfold Sole
  decide +kernel

theorem wit_bist :
    (∀ v ∈ [(0, 2 ^ 7, 0), (1, 2 ^ 15, 0x1000), (2, 2 ^ 47, 0x1000), (3, 2 ^ 47, 0x1000), (0, 2 ^ 8, 0)],
      let e := runs 0x900 [v.1, v.2.1, v.2.2, 0]
      let s := { charging 0x900 [v.1, v.2.1, v.2.2, 0] with
        map := some (desc ([1, serial0, 2 ^ 23, 0, 0, 0, 0, 0] ++ List.replicate 36 0 ++ [77, 2 ^ 8 + 7])), links := [(47, { st := if v.1 = 2 then .active else .dark })] }
      Sole s 1 2 0x900 e ∧ (bistStatus s 1 e = 0 ↔ v.2.1 ≠ 2 ^ 8) ∧ bTest e = v.1 ∧ bUnits e ≠ [])
    ∧ (let e := { runs 0x900 [3, 2 ^ 47, 0x1000, 0] with phase := 1, items := [47] }
       let s := { withEntries [e] with links := [(47, { loopback := some .dark })] }
       (getLink s 47).loopback.isSome = true ∧ loopTest s 47 = some (1, 2) ∧ Sole s 1 2 0x900 e ∧ e.items = [47]) := by
  unfold Sole
  decide +kernel

theorem wit_repair :
    (∀ v ∈ [(5 * 2 ^ 35, 0), (5 * 2 ^ 35, 1), (6 * 2 ^ 35, 1)], let e := runs 0x901 [v.1, v.2]
      let s := { charging 0x901 [v.1, v.2] with repair := { cands := [(5, 0, 0, 0)] } }
      Sole s 1 2 0x901 e ∧ fld (pw e 0) 34 0 = 0 ∧ fld (pw e 8) 63 1 = 0 ∧ tailZero e 0x10 = true
        ∧ ((rowOk s (pw e 0 / 2 ^ 35) && s.repair.cands.any (fun x => x.1 = pw e 0 / 2 ^ 35)) = true ↔ v.1 = 5 * 2 ^ 35)
        ∧ rowGroup 5 ∉ s.repair.hardUsed ∧ rowGroup 5 ∈ ({ hardUsed := [rowGroup 5] } : Repair).hardUsed)
    ∧ (let e := runs 0x902 [0x1000, 1]
       Sole (charging 0x902 [0x1000, 1]) 1 2 0x902 e ∧ fld (pw e 8) 63 1 = 0 ∧ tailZero e 0x10 = true)
    ∧ (∀ v ∈ [(3, 0), (3, 1), (4, 0)], let e := { runs 0x904 [v.1] with phase := v.2 }
      let s := { withEntries [e] with power := { st := .active } }
      Sole s 1 2 0x904 e ∧ (siteStatus s e = 0 ↔ v.1 = 3) ∧ raisePending s = false ∧ s.power.waiting = []
        ∧ heldW s + watts 20 s.power.applied ≤ poolW s ∧ grantedW s + watts 20 s.power.applied ≤ poolW s) := by
  unfold Sole
  decide +kernel

theorem wit_resets :
    (let s := { State.reset with boot := { off := true } }; s.boot.off = true ∧ s.pins.modEn = true ∧ inputPresent s.power.vinNow = true)
    ∧ sidebandUp up = true ∧ up.boot.shutdown = false ∧ up.pins.modReset = false ∧ up.boot.off = false
    ∧ (∀ n ∈ [1, 2, 3, 6, 7, 8, 9], let s := { State.reset with boot := { stage := n } }
       s.boot.off = false ∧ s.boot.held = false ∧ s.boot.failed = false ∧ s.boot.ready = false ∧ s.pins.modReset = false
         ∧ s.sec.fw.length = 8 ∧ s.sec.version.length = 8 ∧ nextStage s = n + 1
         ∧ (∀ k ∈ stageSubs (n + 1), copyPasses s k (s.sec.fw.getD k ({}, {})).1 0 = true)
         ∧ ∀ k ∈ stageSubs (n + 1), copyPasses s k (s.sec.fw.getD k ({}, {})).1 255 = false ∧ copyPasses s k (s.sec.fw.getD k ({}, {})).2 255 = false)
    ∧ (let s := { State.reset with boot := { stage := 1 } }
       nextStage s = 2 ∧ stageSubs 2 = [0] ∧ copyPasses s 0 (s.sec.fw.getD 0 ({}, {})).1 1 = false ∧ copyPasses s 0 (s.sec.fw.getD 0 ({}, {})).2 0 = true)
    ∧ bitOf ({ scopes := 7 } : Sec).scopes 2 = true
    ∧ (let s := { up with pins := { i3cAddr := some 9 }, sec := { scopes := 2 } }
       sidebandUp s = true ∧ s.pins.i3cAddr.isSome = true ∧ s.boot.failKind ≠ 3 ∧ bitOf s.sec.scopes 1 = true) := by
  decide +kernel

/-! ## Witnesses: rules stated whole -/

theorem wit_vector_follows :
    canMaster up .a = true
    ∧ (∀ v ∈ [(0, 0x0101), (7, 0x0101), (7, 0x0200)], let p : Port := { up.portA with msix := [(16 * 7 + 12, 0)] }
      let x : Ctx := { msixEn := true, msixVec := v.1 }
      let s := { up with portA := p, ctxs := [(1, x)] }
      ((x.msixEn && (false || severity v.2 = 2)) = true ↔ v.2 = 0x0101)
        ∧ ((msixByte (getPort s (getCtx s 1).owner) (16 * (getCtx s 1).msixVec + 12)).toNat % 2 = 1 ↔ v.1 = 0)) := by
  decide +kernel

theorem wit_drawn : ∀ op ∈ [0x400, 0x510, 0x900, 0x008, 0x600, 0x700, 0x800], let e := entry op []
    let s := { withEntries [e] with power := { st := .drawn } }
    let x := getCtx s 1
    nextQueued x = some ([], e) ∧ bootGate s op = some 0 ∧ held s 1 x e = false ∧ mayDispatch x [] e = true ∧ e.reserved = false
      ∧ definedOp op = true ∧ x.admin = true ∧ (opClass op ∈ [4, 5, 9] ∨ opClass op ∈ [0, 6, 7, 8] ∧ lifecycleGate s op = 0) := by
  decide

theorem wit_accumulators : ∀ sat ∈ [0, 2 ^ 11], let r : PhaseRec := { step := 5, sat := sat, accs := List.replicate 11 0 ++ [2 ^ 40 - 2] }
    let s := { up with step := { st := .updated }, tel := { phases := [r] } }
    phasePeriod s = some 3 ∧ r.fin = 0 ∧ r.accs.length = 12 ∧ 2 ^ 40 - 1 ≤ r.accs.getD (3 * 3 + 2) 0 + 1 ∧ s.tel.lostNow = 0
      ∧ s.tel.buffer.length < 4096 ∧ (bitOf r.sat 11 = true ↔ sat ≠ 0) := by
  decide

theorem wit_launch_start :
    let i : Item := { kind := .launch, ctx := 1, cseq := 2, entry := 32767, args := [1, 2, 3, 4, 5, 6, 7, 8] }
    let s := { up with cores := [(87, { queue := [i] })] }
    itemReady s 87 = some i ∧ i.args.length = 8 ∧ (∀ n < 32, (getRunner s 87 n).cfgNew = none ∧ (getRunner s 87 n).spillNew = none
      ∧ (getRunner s 87 n).enabled = false) := by
  decide

theorem wit_statuses : ∀ row ∈ statusRows, (row.2[0]?).isSome = true := by
  decide
/-! ## Commands and well-formedness -/

/-- A shot whose payload is too short. -/
def badShot : Shot :=
  { dest := 0, core := 0, vl := 0, epoch := 0, typ := 0, flow := 0, seq := 0, last := false, rcarry := false, mcast := false, payload := [], tail := 0 }

/-- A frame longer than direct mode has. -/
def longWire : List Byte := List.replicate 529 0

/-- Commands whose context does not exist are refused. -/
theorem test_wf_context : ∀ i ∈ [Instr.intakeWrite .a 1024 0 [0], .chargeDispatch 1025 {}, .executorFinishReport 1025 0, .abortMark 1025, .chargeRetire 1025,
    .consumedCountPoll 1024 0, .takeoverApply 1024, .ctxOpen 1024, .ctxClose 1025 0, .ctxTakeover 1024, .ctxReset 1025 0, .hopperFlush 1025 0,
    .chargeAbort 1025 0, .nop 1025 0, .mapLoad 1025 0 {}, .mapRead 1025 0, .copy 1025 0 {}, .fill 1025 0 {}, .hostRead 1025 0 [] {}, .hostWrite 1025 0 {},
    .gather 1025 0 {}, .progLoad 1025 0 {}, .tableLoad 1025 0 {}, .launch 1025 0 {}, .groupDefine 1025 0, .allReduce 1025 0 {}, .reduceScatter 1025 0 {},
    .allGather 1025 0 {}, .allToAllV 1025 0 {}, .broadcast 1025 0 {}, .barrier 1025 0, .phaseMarkForward 1025 0, .phaseMarkBackward 1025 0,
    .phaseMarkExchange 1025 0, .phaseMarkUpdate 1025 0, .seal 1025 0, .rollbackRedo 1025 0 [], .rollbackAbandon 1025 0 [], .replayRun 1025 0 none,
    .replayCapture 1025 0, .replayRestore 1025 0, .linkStatus 1025 0, .linkRetrain 1025 0, .routeTableLoad 1025 0, .routeEpochSwitch 1025 0,
    .mcastTreeLoad 1025 0, .powerStateSet 1025 0, .powerLimitSet 1025 0, .ladleStatus 1025 0, .attestQuote 1025 0, .fwUpdate 1025 0 {},
    .debugOpen 1025 0 true {}, .debugClose 1025 0, .lifecycleAdvance 1025 0 {}, .countersRead 1025 0, .phaseRecordsRead 1025 0, .eventRingSet 1025 0,
    .bistRun 1025 0 {}, .hbmRepair 1025 0 {}, .mbistRead 1025 0, .coreFence 1025 0, .siteTest 1025 0 0, .collStalled 1025 0,
    .pcieCompletionTimeout .a 1025 0], i.wf = false := by
  decide

/-- Commands whose core does not exist are refused. -/
theorem test_wf_core : ∀ i ∈ [Instr.workQueueItemStart, .launchStop, .salfelNop, .add, .sub, .mul, .mulhu, .and, .or, .xor, .shl, .shr, .sar, .min, .max,
    .sethi, .cmpeq, .cmplt, .cmpltu, .pset, .br, .call, .jmp, .loop, .halt, .trap, (.ld · {}), .st, (.aadd · {}), (.aadds · {}), (.aswap · {}), (.arr · {}),
    (.vec · {}), (.mov · {}), .qwait, (.push · false {}), (.pop · false {}), (.popw · false {}), .sig, .waitc, .waito, .rset, .rread, .time, .whoami,
    (.ladleGrant · 0), (.arrayDescriptorStart · 0 {}), (.checkGroupVerdict · 0 {} {} {} {}), (.strikeExpiry · 0), (.completionSignal · 0 {}),
    (.convert · {}), (.vecAdd · {}),
    (.vecMul · {}), (.fma · {}), (.axpby · {}), (.residAdd · {}), (.relu · {}), (.sigmoid · {}), (.tanh · {}), (.exp · {}), (.gelu · {}), (.silu · {}),
    (.swiglu · {}), (.softmaxRow · {}), (.softmaxParts · {}), (.rmsnorm · {}), (.layernorm · {}), (.rowSumsq · {}), (.scaleRows · {}), (.dropout · {}),
    (.rowStats · {}), (.update · {}), (.pwpoly · {}), (.moveCopy · 0 [] {}), (.moveFill · 0 {}), (.moveSend · 0 {}), (.moveSendAtomic · 0 {}),
    (.moveRunnerPush · 0 none {}), (.moveRunnerPop · 0 none {}), (.moveGather · 0 {}), (.patrolScrubRow · 0 0 {}), (.runnerFlush · 0), (.runCfgWrite · 0 0),
    (.runSpillWrite · 0 0), (.spillTailWrite · 0 false), (.spillHeadRefill · 0 false {}), (.storeReloaded · 0 0 false), (.dbgCoreHalt · true),
    (.dbgCoreStep · false {}), (.dbgCoreBpEn · true 0), (.ready · 0 {}), (.grant · 0 {}), (.count · 0 {}), (.digest · 0 {}), (.finish · 0 {})],
    (i 88).wf = false := by
  decide

/-- Engines, runners, stores, banks, mailboxes and units that do not exist are refused. -/
theorem test_wf_engine : ∀ i ∈ [Instr.ladleGrant 0 7, .arrayDescriptorStart 0 2 {}, .checkGroupVerdict 0 2 {} {} {} {}, .strikeExpiry 0 2,
    .completionSignal 0 7 {}, .ready 0 2 {}, .grant 0 2 {}, .count 0 2 {}, .digest 0 2 {}, .finish 0 2 {},
    .moveCopy 0 4 [] {}, .moveFill 0 4 {}, .moveSend 0 4 {}, .moveSendAtomic 0 4 {}, .moveRunnerPush 0 4 none {}, .moveRunnerPop 0 4 none {},
    .moveGather 0 4 {}, .patrolScrubRow 0 192 0 {}, .runnerFlush 0 32, .runCfgWrite 0 32 0, .runSpillWrite 0 32 0, .spillTailWrite 0 32 false,
    .spillHeadRefill 0 32 false {}, .storeReloaded 0 2 0 true, .siteTest 0 0 8, .faultWindowExpiry 8 0, .faultWindowExpiry 96 0, .faultWindowExpiry 256 0,
    .dbgCoreBpEn 0 true 32768, .bridgeUnit 2 true, .bridgeLost 2, .fenceStart 2, .fenceStopComplete 2 0, .transplantComplete 2 0 {}, .transplantFailed 2 0,
    .fenceBindComplete 2, .memoryPatrol 63 false {}, .bistRun 0 0 { rows := [2 ^ 29] }, .bistRun 0 0 { units := [1] }, .replayRun 0 0 (some (88, 0)),
    .replayRun 0 0 (some (0, 1024)), .rollbackRedo 0 0 [(0, [])], .rollbackAbandon 0 0 [(0, [])], .coreRailLow 65536,
    .busMasterEnableSet .a { mps := 1024 }, .busMasterEnableSet .a { mrrs := 64 }], i.wf = false := by
  decide

/-- Links, ports, shots and messages that no carrier holds are refused. -/
theorem test_wf_link : ∀ i ∈ [(Instr.linkDataFrame · [] true), (.ackOnlyFrame · [] true), (.challenge · [] true), (.identity · [] true), (.verdict · [] true),
      (.drop · [] true), (.leave · [] true), (.drawnIntent · [] true), .idleFrameTimer, .ackTimeout, .retryLimit, .lossOfLock, .linkTrained, .trainingFailed,
      .dropRetrainTimer, .dropAllowanceSpanEnd, .linkLeaveBundle, .linkControlRepeat, (.neighborSolicitation · 0), (.echoRequest · 0 []),
      (.loopbackTestEnd · 0)], (i 48).wf = false ∧ (i 47).wf = true := by
  decide

theorem test_wf_shots : ∀ i ∈ [Instr.shotForward 12, .openFlow 128 (shot0 0 0 false (List.replicate 64 0)), .openFlow 0 badShot, .write 0 badShot {},
    .atomic 0 badShot {}, .atomicSat 0 badShot {}, .entry 0 badShot false, .nack 0 badShot, .drain 10 (shot0 10 0 true (List.replicate 64 0)),
    .drain 0 badShot, .drainEmit 12, .piece 0 [] [], .commit 0 [], .ack 0 [], .restoreReq 0 [], .restoreEnd 0 [], .fold [], .sealStage [] [],
    .sealStage (List.replicate 64 0) [0], .collEndMessage []], i.wf = false := by
  decide

/-- A frame is as long as its link's mode allows. -/
theorem test_wf_wire : ∀ i ∈ [(Instr.linkDataFrame · longWire true), (.ackOnlyFrame · longWire true), (.challenge · longWire true),
    (.identity · longWire true), (.verdict · longWire true), (.drop · longWire true), (.leave · longWire true), (.drawnIntent · longWire true)],
    (i 41).wf = false ∧ (i 42).wf = true := by
  decide +kernel

/-- Writes, reads and values that no port carries are refused. -/
theorem test_wf_host : ∀ i ∈ [Instr.intakeWrite .a 0 0 [], .intakeWrite .a 0 65535 [0, 0], .consumedCountPoll 0 (2 ^ 64), .bar4Write .a 0 [] {},
    .bar4Write .a (2 ^ 36) [0] {}, .bar4Read .a (2 ^ 36) 1 {}, .bar4Read .a 0 4097 {}, .registerWrite .a (2 ^ 20) [0], .fabRateWindow 65536 0, .fabRateWindow 0 65536,
    .eventRingWrite (2 ^ 64), .entdaa 128], i.wf = false := by
  decide

/-- The boundary operands of the same checks are accepted. -/
theorem test_wf_accepts : ∀ i ∈ [Instr.intakeWrite .a 1023 65535 [0], .nop 1024 0, .add 87, .ladleGrant 87 6, .moveFill 87 3 {}, .runnerFlush 87 31,
    .faultWindowExpiry 215 0, .idleFrameTimer 47, .drop 47 [] false, .shotForward 11, .openFlow 127 (shot0 0 0 false (List.replicate 64 0)),
    .bar4Read .b (2 ^ 36 - 4096) 4096 {}, .entdaa 127], i.wf = true := by
  decide

/-- The opcode table gives no row bits: no word spells a command, and placing one changes nothing. -/
theorem test_no_word : decodeTableWord 64 0 = none ∧ State.reset.withFetchWord 64 0 = State.reset := by decide

/-! ## The spec's worked examples -/

/-- Chapter 4: `ADD g5, g3, 40` is 0x0011_4301_0000_0028, stored as bytes 28 00 00 00 01 43 11 00; run with g3 = 2, g5 becomes 42. -/
theorem test_add_example : word 1 5 3 0 1 40 = 0x0011430100000028 ∧ toLE 8 0x0011430100000028 = [0x28, 0, 0, 0, 1, 0x43, 0x11, 0]
    ∧ iOp 0x0011430100000028 = 1 ∧ iDst 0x0011430100000028 = 5 ∧ iSrcA 0x0011430100000028 = 3 ∧ iForm 0x0011430100000028 = 1
    ∧ (match exec (.add 0) (atWord 0x0011430100000028 { g := [(3, 2)] }) with
       | .next t => decide (gReg (getCore t 0) 5 = 42 ∧ (getCore t 0).pc = 1)
       | _ => false) = true := by
  decide

/-- R90: the sum wraps, and g0 as destination keeps nothing. -/
theorem test_add_wraps : ∀ d ∈ [0, 5], (match exec (.add 0) (atWord (word 1 d 3 4 0 0) { g := [(3, 2 ^ 64 - 1), (4, 3)] }) with
    | .next t => gReg (getCore t 0) d
    | _ => 9) = if d = 0 then 0 else 2 := by
  decide +kernel

/-- R90: shifts take B modulo 64, SAR keeps the sign. -/
theorem test_shifts : (match exec (.shl 0) (atWord (word 8 5 3 4 0 0) { g := [(3, 3), (4, 65)] }) with
      | .next t => gReg (getCore t 0) 5
      | _ => 0) = 6
    ∧ (match exec (.sar 0) (atWord (word 0xA 5 3 4 0 0) { g := [(3, 2 ^ 63), (4, 1)] }) with
      | .next t => gReg (getCore t 0) 5
      | _ => 0) = 0xC000000000000000 := by
  decide +kernel

/-- Chapter 6: the merge of 0.75 into 2²⁴ stays under round-to-nearest-even, and goes to 16,777,218 or stays by the grain. -/
theorem test_merge_example : rne32 ((f32 0x4B800000).add (f32 0x3F400000)) = f32 0x4B800000
    ∧ sr32 0xB0000000 ((f32 0x4B800000).add (f32 0x3F400000)) = f32 0x4B800001
    ∧ sr32 0x40000000 ((f32 0x4B800000).add (f32 0x3F400000)) = f32 0x4B800000 := by
  decide +kernel

/-- Chapter 6: 3.9 in E4M3 with factor 2⁻⁷ saturates to 0x7E; with 2⁻⁶ it is 0x78; 3.6 with 2⁻⁷ is 0x7E and does not saturate. -/
theorem test_block_example : convNum 3 .rne false true ((f32 0x4079999A).mul (mkPow false 1 7)) = (0x7E, some 0)
    ∧ convNum 3 .rne false true ((f32 0x4079999A).mul (mkPow false 1 6)) = (0x78, none)
    ∧ convNum 3 .rne false true ((f32 0x40666666).mul (mkPow false 1 7)) = (0x7E, none) := by
  decide +kernel

/-- Chapter 14: layer 41 enters the fallback: mode 1, factor 2¹¹⁴, one change reported. -/
theorem test_layer_example :
    let o := layerSeal (toLE 8 (0x148 * 2 ^ 48) ++ List.replicate 120 0) 0x0DE00000 1207959552 7549747 20000
    fld (w64 o.1 0) 20 20 = 1 ∧ fld (w64 o.1 0) 47 40 = 114 ∧ o.2 = (true, false) := by
  decide +kernel

/-- Chapter 9: the barrier's riser: a signal of the next round waits in NEXT; the third grant ends the round. -/
theorem test_riser_example : ({ cur := 1, nxt := 1, queue := [4] } : Riser).granted = { cur := 1, nxt := 0, round := 1, queue := [] }
    ∧ ({ cur := 3, queue := [4] } : Riser).granted = { cur := 2, queue := [] } := by
  decide

/-- A map of the running example at a coordinate: rings of 4, 8, 4, 4 and 16, every port in use. -/
def mapRun (c : Nat) : List Byte :=
  desc ([1, 4, c + 7 * 2 ^ 16 + 3 * 2 ^ 19 + 3 * 2 ^ 21 + 15 * 2 ^ 23, 0, 0, 0, 0, 0] ++ ((List.range 10).map (fun _ => [77, 2 ^ 8 + 1, 0, 0])).flatten)

/-- Chapter 12: hops of the worked route to (3, 1, 2, 0, 7): the port that a shot takes at a module, and its lane there. -/
theorem test_route_example : ∀ h ∈ [((1, 5, 0, 2), 10, 0, 0, 0), ((3, 5, 0, 2), 1, 0, 2, 0), ((3, 7, 0, 2), 3, 0, 2, 1), ((3, 0, 0, 2), 3, 1, 2, 1),
      ((3, 1, 0, 2), 3, 1, 4, 0), ((3, 1, 2, 2), 5, 0, 6, 0), ((3, 1, 2, 3), 7, 0, 6, 1)],
    let co := fun (t x q p : Nat) => t * 2 ^ 12 + x * 2 ^ 9 + q * 2 ^ 7 + p * 2 ^ 5 + 7
    let s0 := { up with map := some (mapRun (co h.1.1 h.1.2.1 h.1.2.2.1 h.1.2.2.2)) }
    let s := { s0 with route := { cur := resetTable s0 }, links := [0, 16, 28, 36].map (fun n => (n, { st := .active })) }
    let x := { shot0 1 1 false [] with dest := co 3 1 2 0, vl := h.2.2.1 }
    hopOf s h.2.1 x = .out h.2.2.2.1 ∧ laneOf s h.2.1 h.2.2.2.1 x = h.2.2.2.2 := by
  decide +kernel

/-- R143: element 1 of a line of FP6 lies in bits 6 to 11, across a byte boundary; 12 is 1.0 in E3M2. -/
theorem test_fp6_crosses_a_byte : lineElem { cores := [(0, { scratch := [(1, 3)] })] } 0 1 0 1 = decodeNum 1 12 := by
  decide +kernel

end Sys2Proof.Tests
end

section
/-! Reads and writes of device ranges by charges (R6, R222), for a state in which nothing is lasting: what a range reads after a
write, and what the write leaves as it was. -/

namespace Sys2Proof.Machine

open Sys2Proof.Claims

/-! ## Windows -/

/-- A range lies in the populated part of a window exactly when it is a range of that scratchpad. -/
theorem inWindow_eq_some {a n l o : Nat} : inWindow a n = some (l, o) ↔ a = winAddr l o ∧ l < 88 ∧ o + n ≤ spSize := by
  simp only [inWindow, Option.ite_none_right_eq_some, Option.some.injEq, Prod.mk.injEq]
  simp only [winAddr, winBase0, winSize, spSize]
  omega

/-- Below the windows lies no window. -/
theorem inWindow_eq_none_of_lt {a n : Nat} (h : a < winBase0) : inWindow a n = none := if_neg fun hw => by omega

/-- A part of a range in a window lies in the same window. -/
theorem inWindow_part {a n l o k m : Nat} (h : inWindow a n = some (l, o)) (hk : k + m ≤ n) : inWindow (a + k) m = some (l, o + k) := by
  rw [inWindow_eq_some, winAddr] at h ⊢
  omega

/-- Populated memory ends below the windows. -/
theorem inMem_below {s : State} {a n : Nat} (h : inMem s a n = true) : a + n < winBase0 := by
  have hfast : fastBytes s ≤ 0x8000000000 := by unfold fastBytes; split <;> decide
  have hdeep : deepBytes s ≤ 0x18000000000 := by unfold deepBytes; split <;> decide
  simp only [inMem, inFast, inDeep, Bool.or_eq_true, Bool.and_eq_true, decide_eq_true_eq] at h
  simp only [deepBase] at h
  rw [winBase0]
  omega

/-- A range that a charge may name lies in memory, below the windows, or in one window. -/
theorem deviceOk_cases {s : State} {a n : Nat} (h : deviceOk s a n = true) : a + n < winBase0 ∨ ∃ l o, inWindow a n = some (l, o) := by
  rw [deviceOk, Bool.or_eq_true] at h
  rcases h with h | h
  · exact .inl (inMem_below h)
  · split at h
    case h_1 l o hw => exact .inr ⟨l, o, hw⟩
    case h_2 => simp at h

/-- A range that the Afiup may reach raises no record. -/
theorem deviceRegion_open {s : State} {a n : Nat} {k : Kind} (h : (deviceRegion s a n k).2 = true) : deviceRegion s a n k = (s, true) := by
  unfold deviceRegion at h ⊢
  split
  case h_1 l o hw =>
    simp only [hw, checkRegion] at h ⊢
    split at h
    · rfl
    · simp at h
  case h_2 => rfl

/-! ## Scratchpads without lasting words -/

theorem readWords_clean (l master : Nat) (x : Acc) (ws : List Nat) (h : (getCore x.s l).spBad = []) : readWords {} l master x ws = x := by
  unfold readWords
  induction ws.dedup with
  | nil => rfl
  | cons w r ih =>
    have hw : readWord {} l master x w = x := by simp [readWord, h]
    rw [List.foldl_cons, hw, ih]

/-- A word piece is stored, whole or in part. -/
theorem writeWord_clean (l master : Nat) (x : Acc) (a : Nat) (d : List Byte) (h : (getCore x.s l).spBad = []) :
    writeWord {} l master x a d = { x with s := modCore x.s l (fun c => putScratch c a d) } := by
  unfold writeWord
  by_cases hd : d.length = 8
  · have hs : (getCore x.s l).spBad.filter (· ≠ a / 8 * 8) = (getCore x.s l).spBad := by simp [h]
    simp only [hd, if_true, modCore, hs]
  · simp [hd, readWord, h]

/-- The scratchpad of core `l` takes these bytes; nothing outside its core differs. -/
structure ScratchWritten (s t : State) (l a : Nat) (d : List Byte) : Prop where
  frame : { t with cores := s.cores } = s
  scratch : (getCore t l).scratch = writeB (getCore s l).scratch a d
  others : ∀ k, k ≠ l → getCore t k = getCore s k

theorem pieces_writeWord (l master fuel : Nat) (x : Acc) (a : Nat) (d : List Byte) (h : (getCore x.s l).spBad = [])
    (hf : d.length + a % 8 ≤ 8 * fuel) :
    ScratchWritten x.s ((pieces 8 fuel a d).foldl (fun y p => writeWord {} l master y p.1 p.2) x).s l a d := by
  induction fuel generalizing x a d with
  | zero =>
    have : d = [] := List.length_eq_zero_iff.mp (by omega)
    subst this
    exact ⟨rfl, rfl, fun _ _ => rfl⟩
  | succ n ih =>
    unfold pieces
    by_cases h0 : d = []
    · subst h0
      exact ⟨rfl, rfl, fun _ _ => rfl⟩
    · rw [if_neg h0, List.foldl_cons, writeWord_clean l master x _ _ h]
      have hl : 0 < d.length := List.length_pos_iff.mpr h0
      obtain ⟨hframe, hscratch, hothers⟩ := ih { x with s := modCore x.s l (fun c => putScratch c a (d.take (8 - a % 8))) }
        (a / 8 * 8 + 8) (d.drop (8 - a % 8)) (by rw [getCore_modCore]; exact h) (by simp only [List.length_drop]; omega)
      refine ⟨?_, ?_, fun k hk => ?_⟩
      · exact congrArg (fun y : State => { y with cores := x.s.cores }) hframe
      · rw [hscratch, getCore_modCore]
        change writeB (writeB _ a (d.take (8 - a % 8))) _ _ = _
        by_cases h1 : d.length ≤ 8 - a % 8
        · simp [List.drop_eq_nil_of_le h1, List.take_of_length_le h1, writeB]
        · have h2 : a / 8 * 8 + 8 = a + (d.take (8 - a % 8)).length := by rw [List.length_take]; omega
          rw [h2, writeB_append, List.take_append_drop]
      · rw [hothers k hk, getCore_modCore_ne _ hk]

theorem writeSp_clean (s : State) (l master a : Nat) (d : List Byte) (h : (getCore s l).spBad = []) :
    ScratchWritten s (writeSp {} l master { s := s } a d).s l a d :=
  pieces_writeWord l master _ { s := s } a d h (by omega)

/-! ## Device ranges -/

/-- Part of what was written is read back. -/
theorem readB_writeB_part (t : Tab Byte) (a k n : Nat) (d : List Byte) (h : k + n ≤ d.length) :
    readB (writeB t a d) (a + k) n = (d.drop k).take n := by
  apply List.ext_getElem
  · rw [length_readB, List.length_take, List.length_drop]; omega
  · intro i h1 _
    rw [length_readB] at h1
    simp only [readB, List.getElem_map, List.getElem_range, List.getElem_take, List.getElem_drop]
    rw [Nat.add_assoc, tget_writeB_inside t a d (k + i) (by omega), List.getD_eq_getElem _ _ (by omega)]

/-- The bytes of a device range are these, and nothing else differs but what a core keeps beside its scratchpad. -/
structure DeviceWritten (s t : State) (a : Nat) (d : List Byte) : Prop where
  frame : { t with mem := s.mem, cores := s.cores } = s
  inside : ∀ k n, k + n ≤ d.length → bytesAt t (a + k) n = (d.drop k).take n
  outside : OnlyRange s t a d.length

/-- A write below the windows is one of memory. -/
theorem deviceWritten_mem {s : State} {a : Nat} {d : List Byte} (h : a + d.length < winBase0) :
    DeviceWritten s { s with mem := writeB s.mem a d } a d where
  frame := rfl
  inside k n hk := by
    rw [bytesAt, inWindow_eq_none_of_lt (by omega)]
    exact readB_writeB_part s.mem a k n d hk
  outside i hi := by
    unfold byteAt bytesAt
    split
    · rfl
    · rw [memB, readB_writeB_disjoint _ _ _ _ _ (by omega)]; rfl

/-- A write in a window is one of its core's scratchpad. -/
theorem deviceWritten_window {s t : State} {a l o : Nat} {d : List Byte} (hw : inWindow a d.length = some (l, o))
    (h : ScratchWritten s t l o d) : DeviceWritten s t a d where
  frame := congrArg (fun y : State => { y with mem := s.mem }) h.frame
  inside k n hk := by
    rw [bytesAt, inWindow_part hw hk]
    change readB (getCore t l).scratch (o + k) n = _
    rw [h.scratch, readB_writeB_part _ o k n d hk]
  outside i hi := by
    have hmem := congrArg State.mem h.frame
    dsimp only at hmem
    unfold byteAt bytesAt
    split
    case h_1 m j hj =>
      by_cases hm : m = l
      · subst hm
        obtain ⟨ha, -, -⟩ := inWindow_eq_some.1 hw
        obtain ⟨hi', -, -⟩ := inWindow_eq_some.1 hj
        rw [winAddr] at ha hi'
        rw [spB, h.scratch, readB_writeB_disjoint _ _ _ _ _ (by omega)]; rfl
      · rw [spB, h.others m hm]; rfl
    case h_2 => rw [memB, hmem]; rfl

/-- With nothing lasting, a write to a range that a charge may name stores its bytes. -/
theorem writeAt_clean {s : State} {a : Nat} {d : List Byte} (hb : NoBad s) (h : deviceOk s a d.length = true) :
    DeviceWritten s (writeAt {} 8 noSubject { s := s } a d).s a d := by
  obtain ⟨hpoison, hsp⟩ := hb
  unfold writeAt
  rcases deviceOk_cases h with hlt | ⟨l, o, hw⟩
  · rw [inWindow_eq_none_of_lt (by omega)]
    have hput := putMem_clean s a d hpoison
    rw [putMem] at hput
    simp only [hput]
    exact deviceWritten_mem hlt
  · rw [hw]
    exact deviceWritten_window hw (writeSp_clean s l 8 o d (hsp l))

/-- With nothing lasting, a read finds nothing. -/
theorem readAt_clean {s : State} (master subj : Nat) (a n : Nat) (hb : NoBad s) :
    readAt {} master subj { s := s } [(a, n)] = { s := s } := by
  obtain ⟨hpoison, hsp⟩ := hb
  unfold readAt
  dsimp only
  rw [readUnits_clean subj { s := s } _ hpoison]
  split
  · rfl
  · exact readWords_clean _ master { s := s } _ (hsp _)

/-- A charge's answer lies in the range that it names, and the charge reports success. -/
theorem putDevice_writes {s : State} {a : Nat} {d : List Byte} (c q r : Nat) (h : Reachable s a d.length .wr) :
    Reports s (putDevice s c q a d r) c q 0 r ∧ (∀ k n, k + n ≤ d.length → bytesAt (putDevice s c q a d r) (a + k) n = (d.drop k).take n)
      ∧ OnlyRange s (putDevice s c q a d r) a d.length
      ∧ { putDevice s c q a d r with mem := s.mem, cores := s.cores, ctxs := s.ctxs } = s := by
  obtain ⟨hok, hopen, hbad⟩ := h
  have hput : putDevice s c q a d r = report (writeAt {} 8 noSubject { s := s } a d).s c q 0 r := by
    rw [putDevice, deviceRegion_open hopen]
  obtain ⟨hframe, hinside, houtside⟩ := writeAt_clean hbad hok
  rw [hput]
  refine ⟨?_, hinside, houtside, ?_⟩
  · have hctxs := congrArg State.ctxs hframe
    exact report_ctxs hctxs c q 0 r
  · exact congrArg (fun y : State => { y with ctxs := s.ctxs }) hframe

/-! ## Tables of records -/

/-- Record `n` of a run of records of one length. -/
theorem flatMap_range_part {β : Type} (f : Nat → List β) (w k n : Nat) (hf : ∀ i, (f i).length = w) (hn : n < k) :
    (((List.range k).flatMap f).drop (w * n)).take w = f n := by
  have hlen : ∀ m, ((List.range m).flatMap f).length = w * m := fun m => by simp [List.length_flatMap, hf, Nat.mul_comm]
  obtain ⟨j, rfl⟩ := Nat.exists_eq_add_of_le hn
  rw [show n.succ + j = n + (1 + j) by omega, List.range_add, List.flatMap_append, ← hlen n, List.drop_left, List.range_add]
  simp [← hf n]

end Sys2Proof.Machine
end

section
/-! What a map change and a retrain do to the links (R268, R270, R275, R279). A link that joins its bundle lets the port send what
waits, so the other links of the port carry frames meanwhile: `Carried` says what that changes of a link, `PortWork` what work on a
port's links leaves as it was. -/

namespace Sys2Proof.Machine

/-! ## What link work leaves as it was -/

/-- The contexts, the cores, memory and the map are as before. -/
structure SparesBoard (s t : State) : Prop where
  ctxs : t.ctxs = s.ctxs
  cores : t.cores = s.cores
  mem : t.mem = s.mem
  map : t.map = s.map

/-- So are the links. -/
structure SparesLinks (s t : State) : Prop extends SparesBoard s t where
  links : t.links = s.links

theorem SparesBoard.refl (s : State) : SparesBoard s s := ⟨rfl, rfl, rfl, rfl⟩

theorem SparesBoard.trans {s t u : State} (h : SparesBoard s t) (k : SparesBoard t u) : SparesBoard s u :=
  ⟨k.ctxs.trans h.ctxs, k.cores.trans h.cores, k.mem.trans h.mem, k.map.trans h.map⟩

theorem SparesLinks.refl (s : State) : SparesLinks s s := ⟨.refl s, rfl⟩

theorem SparesLinks.trans {s t u : State} (h : SparesLinks s t) (k : SparesLinks t u) : SparesLinks s u :=
  ⟨h.toSparesBoard.trans k.toSparesBoard, k.links.trans h.links⟩

theorem SparesLinks.getLink {s t : State} (h : SparesLinks s t) (n : Nat) : getLink t n = getLink s n := by
  rw [Machine.getLink, h.links]; rfl

theorem SparesLinks.foldl {α : Type} {f : State → α → State} (h : ∀ s x, SparesLinks s (f s x)) (l : List α) (s : State) :
    SparesLinks s (l.foldl f s) := by
  induction l generalizing s with
  | nil => exact .refl s
  | cons x r ih => exact (h s x).trans (ih (f s x))

theorem sparesBoard_setLink (s : State) (n : Nat) (l : Link) : SparesBoard s (setLink s n l) := ⟨rfl, rfl, rfl, rfl⟩
theorem sparesLinks_modLPort (s : State) (p : Nat) (f : LPort → LPort) : SparesLinks s (modLPort s p f) := ⟨⟨rfl, rfl, rfl, rfl⟩, rfl⟩
theorem sparesLinks_setLPort (s : State) (p : Nat) (x : LPort) : SparesLinks s (setLPort s p x) := ⟨⟨rfl, rfl, rfl, rfl⟩, rfl⟩
theorem sparesLinks_emit (s : State) (o : Output) : SparesLinks s (emit s o) := ⟨⟨rfl, rfl, rfl, rfl⟩, rfl⟩
theorem sparesLinks_bump (s : State) (set i n : Nat) : SparesLinks s (bump s set i n) := ⟨⟨rfl, rfl, rfl, rfl⟩, rfl⟩
theorem sparesLinks_tel (s : State) (x : Tel) : SparesLinks s { s with tel := x } := ⟨⟨rfl, rfl, rfl, rfl⟩, rfl⟩
theorem sparesLinks_twin (s : State) (x : Twin) : SparesLinks s { s with twin := x } := ⟨⟨rfl, rfl, rfl, rfl⟩, rfl⟩

/-! ## Event records and phase times -/

theorem sparesLinks_enterEvent (s : State) (e : Event) : SparesLinks s (enterEvent s e) := by
  unfold enterEvent
  split <;> exact sparesLinks_tel _ _

theorem sparesLinks_enterOverflow (s : State) : SparesLinks s (enterOverflow s) := by
  unfold enterOverflow
  split
  · exact ((sparesLinks_tel s _).trans (sparesLinks_bump _ 0 0 1)).trans (sparesLinks_enterEvent _ _)
  · exact .refl s

theorem sparesLinks_raiseEv (s : State) (st src subj w a b : Nat) : SparesLinks s (raiseEv s st src subj w a b) :=
  ((sparesLinks_enterOverflow s).trans (sparesLinks_bump _ 0 0 1)).trans (sparesLinks_enterEvent _ _)

theorem sparesLinks_modPhase (s : State) (f : PhaseRec → PhaseRec) : SparesLinks s (modPhase s f) := by
  unfold modPhase
  split
  · split
    · exact sparesLinks_tel _ _
    · exact .refl s
  · exact .refl s

theorem sparesLinks_phaseAdd (s : State) (q n : Nat) : SparesLinks s (phaseAdd s q n) := by
  unfold phaseAdd
  split
  · dsimp only
    split
    · exact .refl s
    · split
      · exact sparesLinks_modPhase s _
      · split
        · exact sparesLinks_modPhase s _
        · exact (sparesLinks_modPhase s _).trans (sparesLinks_raiseEv _ _ _ _ _ _ _)
  · exact .refl s

/-! ## Frames and messages that a link sends -/

theorem sparesLinks_takeCredits (s : State) (p : Nat) : SparesLinks s (takeCredits s p).1 := by
  unfold takeCredits
  split
  · exact .refl s
  · exact sparesLinks_modLPort s p (fun x => { x with owed := x.owed.map (fun e => (e.1, e.2 - min 4095 e.2)) })

theorem sparesLinks_sendFrame (s : State) (n kind fseq bseq : Nat) (shots : List Shot) : SparesLinks s (sendFrame s n kind fseq bseq shots) :=
  (sparesLinks_takeCredits s (portOf n)).trans (sparesLinks_emit _ _)

theorem sparesLinks_sendFragment (s : State) (n : Nat) (body : List Byte) : SparesLinks s (sendFragment s n body) := by
  unfold sendFragment
  dsimp only
  split
  · exact (sparesLinks_takeCredits s (portOf n)).trans (sparesLinks_emit _ _)
  · exact sparesLinks_emit _ _

/-- A link-control message takes a number of its link; its frames change no link. -/
theorem sparesLinks_sendControl (s : State) (n mtype reason : Nat) (body : List Byte) :
    SparesLinks (modLink s n (fun l => { l with mseq := l.mseq + 1 })) (sendControl s n mtype reason body) :=
  SparesLinks.foldl (fun s b => sparesLinks_sendFragment s n b) _ _

theorem sparesLinks_linkEvent (s : State) (status n reason : Nat) : SparesLinks s (linkEvent s status n reason) :=
  sparesLinks_raiseEv _ _ _ _ _ _ _

/-! ## Messages of the Afiup -/

theorem sparesLinks_sendAfiup (s : State) (coord : Nat) (mirror : Bool) (head data : List Byte) :
    SparesLinks s (sendAfiup s coord mirror head data) :=
  SparesLinks.foldl (fun s _ => sparesLinks_modLPort s _ _) _ _

theorem sparesLinks_sendDelta (s : State) (step : Nat) (full : Bool) (as : List Nat) : SparesLinks s (sendDelta s step full as) := by
  unfold sendDelta
  split
  · exact .refl s
  · exact ((SparesLinks.foldl (fun s _ => sparesLinks_sendAfiup s _ _ _ _) as s).trans (sparesLinks_sendAfiup _ _ _ _ _)).trans
      (sparesLinks_twin _ _)

theorem sparesLinks_startDelta (s : State) (step : Nat) (full : Bool) (as : List Nat) : SparesLinks s (startDelta s step full as) := by
  unfold startDelta
  split
  · exact .refl s
  · split
    · exact sparesLinks_twin s _
    · exact sparesLinks_sendDelta s step full as

theorem sparesLinks_fullDelta (s : State) : SparesLinks s (fullDelta s) := by
  unfold fullDelta
  split
  · exact sparesLinks_startDelta s _ _ _
  · exact .refl s

/-- A new twin gets a full delta through the hub. -/
theorem sparesLinks_remapTwin (s : State) (old : Option (List Byte)) (m : List Byte) : SparesLinks s (remapTwin s old m) := by
  have hnew := (sparesLinks_twin s { s.twin with acked := none, sending := none, queued := none }).trans (sparesLinks_fullDelta _)
  unfold remapTwin
  cases old with
  | none => exact hnew
  | some o =>
    dsimp only
    split
    · exact .refl s
    · exact hnew

/-! ## Links that carry frames -/

/-- What the sending of frames changes of a link: an ACTIVE link numbers and keeps them. -/
def Carried (l l' : Link) : Prop := l' = l ∨ l.st = .active ∧ ∃ x k, l' = { l with txFseq := x, kept := k }

theorem Carried.trans {a b c : Link} (h : Carried a b) (k : Carried b c) : Carried a c := by
  rcases h with rfl | ⟨ha, x, y, rfl⟩
  · exact k
  · rcases k with rfl | ⟨-, x', y', rfl⟩
    · exact .inr ⟨ha, x, y, rfl⟩
    · exact .inr ⟨ha, x', y', rfl⟩

theorem Carried.loopback {l l' : Link} (h : Carried l l') : l'.loopback = l.loopback := by
  rcases h with rfl | ⟨-, x, k, rfl⟩ <;> rfl

/-- Work on the links `ns` of port `p`: the port's other links carry frames, the links of other ports do not change. -/
structure PortWork (p : Nat) (ns : List Nat) (s t : State) : Prop extends SparesBoard s t where
  carried : ∀ k, k ∉ ns → Carried (getLink s k) (getLink t k)
  beside : ∀ k, k ∉ portLinks p → getLink t k = getLink s k

theorem SparesLinks.portWork {s t : State} (h : SparesLinks s t) (p : Nat) (ns : List Nat) : PortWork p ns s t :=
  ⟨h.toSparesBoard, fun k _ => .inl (h.getLink k), fun k _ => h.getLink k⟩

theorem PortWork.trans {p : Nat} {ns : List Nat} {s t u : State} (h : PortWork p ns s t) (k : PortWork p ns t u) : PortWork p ns s u :=
  ⟨h.toSparesBoard.trans k.toSparesBoard, fun n hn => (h.carried n hn).trans (k.carried n hn),
    fun n hn => (k.beside n hn).trans (h.beside n hn)⟩

theorem PortWork.mono {p : Nat} {ns ms : List Nat} {s t : State} (h : PortWork p ns s t) (hs : ns ⊆ ms) : PortWork p ms s t :=
  ⟨h.toSparesBoard, fun k hk => h.carried k (fun hn => hk (hs hn)), h.beside⟩

theorem portWork_setLink {p n : Nat} (hn : n ∈ portLinks p) (s : State) (l : Link) : PortWork p [n] s (setLink s n l) where
  toSparesBoard := sparesBoard_setLink s n l
  carried k hk := .inl (getLink_setLink_ne s (by simpa using hk) l)
  beside k hk := getLink_setLink_ne s (fun h => hk (by rw [h]; exact hn)) l

/-! ## The port sends what waits -/

/-- The next link to take a frame is an ACTIVE one of the port. -/
theorem nextLink_spec {s : State} {p n : Nat} (h : nextLink s p = some n) : n ∈ portLinks p ∧ (getLink s n).st = .active := by
  have hmem := List.mem_of_find?_eq_some h
  have hst := List.find?_some h
  obtain ⟨i, hi, rfl⟩ := List.mem_map.1 hmem
  rw [List.mem_range] at hi
  refine ⟨List.mem_map.2 ⟨_, List.mem_range.2 (Nat.mod_lt _ (by omega)), rfl⟩, ?_⟩
  simp only [Bool.and_eq_true, decide_eq_true_eq] at hst
  exact hst.1.1.1

theorem portWork_placeFrame {s : State} {p n : Nat} (bseq : Nat) (shots : List Shot) (hn : n ∈ portLinks p)
    (ha : (getLink s n).st = .active) : PortWork p [] s (placeFrame s p n bseq shots) := by
  have hset : PortWork p [] s (setLink s n { getLink s n with
      txFseq := ((getLink s n).txFseq + 1) % 4096
      kept := (getLink s n).kept ++ [{ fseq := (getLink s n).txFseq, bseq := bseq, shots := shots }] }) := by
    refine ⟨sparesBoard_setLink s n _, fun k _ => ?_, (portWork_setLink hn s _).beside⟩
    by_cases hk : k = n
    · subst hk
      exact .inr ⟨ha, _, _, getLink_setLink ..⟩
    · exact .inl (getLink_setLink_ne s hk _)
  refine hset.trans (SparesLinks.portWork ?_ p [])
  exact ((((sparesLinks_modLPort _ p _).trans (sparesLinks_bump _ 2 _ _)).trans (sparesLinks_bump _ 2 _ _)).trans
    (sparesLinks_phaseAdd _ 1 _)).trans (sparesLinks_sendFrame _ n 0 _ bseq shots)

theorem portWork_pumpPort (s : State) (p fuel : Nat) : PortWork p [] s (pumpPort s p fuel) := by
  induction fuel generalizing s with
  | zero => exact (SparesLinks.refl s).portWork p []
  | succ fuel ih =>
    unfold pumpPort
    split
    case h_1 => exact (SparesLinks.refl s).portWork p []
    case h_2 n hnext =>
      obtain ⟨hn, ha⟩ := nextLink_spec hnext
      split
      case h_1 f r _ =>
        have hq := sparesLinks_modLPort s p (fun x => { x with resend := r })
        exact ((hq.portWork p []).trans (portWork_placeFrame f.1 f.2 hn (by rw [hq.getLink]; exact ha))).trans (ih _)
      case h_2 =>
        dsimp only
        split
        · exact (SparesLinks.refl s).portWork p []
        · have hq := sparesLinks_setLPort s p
            { (fillFrame p ((getLPort s p).outq.length + (getLPort s p).mirrorq.length) (getLPort s p) []).1 with
              txBseq := ((getLPort s p).txBseq + 1) % 4096 }
          exact ((hq.portWork p []).trans (portWork_placeFrame _ _ hn (by rw [hq.getLink]; exact ha))).trans (ih _)

theorem portWork_pumpOut (s : State) (p : Nat) : PortWork p [] s (pumpOut s p) := portWork_pumpPort s p _

/-! ## Ports of links -/

theorem portOf_of_mem_portLinks : ∀ p < 10, ∀ n ∈ portLinks p, portOf n = p := by decide

theorem mem_portLinks_portOf : ∀ n < 48, portOf n < 10 ∧ n ∈ portLinks (portOf n) := by decide

theorem nodup_portLinks (p : Nat) : (portLinks p).Nodup :=
  List.Nodup.map (fun _ _ h => Nat.add_left_cancel h) List.nodup_range

/-! ## Judging a peer's record -/

/-- Work on link `n` of port `p` after which this end has a verdict, on the record that the link keeps. -/
structure Judges (p n : Nat) (s t : State) : Prop extends PortWork p [n] s t where
  ownOk : (getLink t n).ownOk ≠ none
  peer : (getLink t n).peer = (getLink s n).peer

/-- The verdict stands through work that keeps it and the record. -/
theorem Judges.trans {p n : Nat} {s t u : State} (h : Judges p n s t) (k : PortWork p [n] t u)
    (hok : (getLink u n).ownOk = (getLink t n).ownOk) (hpeer : (getLink u n).peer = (getLink t n).peer) : Judges p n s u :=
  ⟨h.toPortWork.trans k, hok ▸ h.ownOk, hpeer.trans h.peer⟩

/-- A link of the port joins its bundle, and the port sends. -/
theorem judges_joinLink {s t : State} {p n : Nat} (h : Judges p n s t) (hp : portOf n = p) (hn : n ∈ portLinks p) :
    Judges p n s (joinLink t n) := by
  unfold joinLink
  extract_lets l u
  have hset : Judges p n s u :=
    h.trans (portWork_setLink hn t _) (by simp only [u, l, getLink_setLink]) (by simp only [u, l, getLink_setLink])
  have hpump := portWork_pumpOut u p
  rw [hp]
  refine hset.trans (hpump.mono (List.nil_subset _)) ?_ ?_
  all_goals
    rcases hpump.carried n List.not_mem_nil with hsame | ⟨-, x, k, hkept⟩
    · rw [hsame]
    · rw [hkept]

theorem judges_quarantine {s t : State} {p n : Nat} (h : Judges p n s t) (hn : n ∈ portLinks p) : Judges p n s (quarantine t n) := by
  have hev : SparesLinks _ (quarantine t n) := sparesLinks_linkEvent _ _ n _
  refine h.trans ((portWork_setLink hn t _).trans (hev.portWork p [n])) ?_ ?_
  all_goals rw [hev.getLink, getLink_setLink]

theorem judges_sendVerdict {s t : State} {p n : Nat} (h : Judges p n s t) (hn : n ∈ portLinks p) : Judges p n s (sendVerdict t n) := by
  have hsent : SparesLinks _ (sendVerdict t n) := sparesLinks_sendControl t n 3 _ _
  refine h.trans ((portWork_setLink hn t _).trans (hsent.portWork p [n])) ?_ ?_
  all_goals rw [hsent.getLink, modLink, getLink_setLink]

/-- A verdict is recorded and sent before anything follows from it. -/
theorem judges_judge {s : State} {p n : Nat} (reason level : Nat) (hp : portOf n = p) (hn : n ∈ portLinks p) :
    Judges p n s (judge s n reason level) := by
  unfold judge
  extract_lets u v
  have hu : Judges p n s u := ⟨portWork_setLink hn s _, by simp [u, modLink], by simp [u, modLink]⟩
  have hv : Judges p n s v := judges_sendVerdict hu hn
  split
  · split
    · exact hv.trans (portWork_setLink hn v _) (by rw [modLink, getLink_setLink]) (by rw [modLink, getLink_setLink])
    · exact hv
  · split
    · exact judges_quarantine hv hn
    · split
      · exact judges_joinLink hv hp hn
      · exact hv

/-- Under a map, the check of a record ends in a verdict. -/
theorem judges_checkPeer {s : State} {p n : Nat} {m : List Byte} (q : Peer) (hm : s.map = some m) (hp : portOf n = p)
    (hn : n ∈ portLinks p) : Judges p n s (checkPeer s n q) := by
  unfold checkPeer
  rw [hm]
  dsimp only
  split
  · exact judges_judge 1 0 hp hn
  · split
    · exact judges_judge 2 0 hp hn
    · exact judges_judge 0 _ hp hn

end Sys2Proof.Machine
end

section
/-! A map change works through the links of every port whose entry changed, a retrain through the links that it names (R268, R275,
R279): what each link becomes. -/

namespace Sys2Proof.Machine

open Sys2Proof.Claims

/-! ## A link under a new map -/

/-- What a new map makes of a link, expected or not (R275). -/
def Remapped (expected : Bool) (l l' : Link) : Prop :=
  if expected = true then
    (l.st = .active ∨ l.st = .keepalive → l'.st = l.st ∧ l'.leaving = true ∧ l'.darkNext = false)
    ∧ (l.st = .dark ∨ l.st = .dropped ∨ l.st = .quarantined ∨ l.st = .identify ∧ l.peer ≠ none ∧ l.ownOk ≠ none →
        l'.st = .training ∧ l'.reason = 0 ∧ l'.mseq = 0)
    ∧ (l.st = .training ∨ l.st = .identify ∧ l.peer = none → l' = l)
    ∧ (l.st = .identify → l.peer ≠ none → l.ownOk = none → l'.ownOk ≠ none ∧ l'.peer = l.peer)
  else if l.st = .active ∨ l.st = .keepalive then l'.st = l.st ∧ l'.leaving = true ∧ l'.darkNext = true
  else l'.st = .dark ∧ l'.reason = 0

/-- Frames that a link carries before the map reaches it do not matter. -/
theorem Remapped.after_carried {w : Bool} {a b c : Link} (h : Carried a b) (k : Remapped w b c) : Remapped w a c := by
  rcases h with rfl | ⟨ha, x, y, rfl⟩
  · exact k
  · simpa [Remapped, ha] using k

/-- Nor do those that it carries afterwards. -/
theorem Remapped.then_carried {w : Bool} {a b c : Link} (h : Remapped w a b) (k : Carried b c) : Remapped w a c := by
  rcases k with rfl | ⟨hb, x, y, rfl⟩
  · exact h
  · unfold Remapped at h ⊢
    split
    case isTrue hw =>
      rw [if_pos hw] at h
      obtain ⟨hcarry, htrain, hsame, hjudge⟩ := h
      refine ⟨hcarry, htrain, fun hl => ?_, hjudge⟩
      rw [hsame hl] at hb
      simp [hb] at hl
    case isFalse hw =>
      rw [if_neg hw] at h
      exact h

theorem preemptLoop_idle {s : State} {n : Nat} (h : (getLink s n).loopback = none) : preemptLoop s n = s := by
  simp [preemptLoop, h]

/-- An update of the link itself is work on its port. -/
theorem remaps_modLink {s : State} {p n : Nat} {w : Bool} (f : Link → Link) (hn : n ∈ portLinks p)
    (h : Remapped w (getLink s n) (f (getLink s n))) :
    PortWork p [n] s (modLink s n f) ∧ Remapped w (getLink s n) (getLink (modLink s n f) n) :=
  ⟨portWork_setLink hn s _, by rwa [modLink, getLink_setLink]⟩

/-- A link that waits in IDENTIFY with a record judges it, or trains again when it was judged before. -/
theorem remaps_identify {s u : State} {p n : Nat} {m : List Byte} {q : Peer} (hm : s.map = some m) (hp : portOf n = p)
    (hn : n ∈ portLinks p) (hst : (getLink s n).st = .identify) (hpeer : (getLink s n).peer = some q) (hu : SparesLinks s u) :
    let t := if (getLink s n).ownOk = none then checkPeer u n q else trainLink u n
    PortWork p [n] s t ∧ Remapped true (getLink s n) (getLink t n) := by
  dsimp only
  have hwork := hu.portWork p [n]
  split
  case isTrue hown =>
    have hj := judges_checkPeer q (hu.map.trans hm) hp hn
    have hkept : (getLink (checkPeer u n q) n).peer = some q := by rw [hj.peer, hu.getLink, hpeer]
    exact ⟨hwork.trans hj.toPortWork, by simp [Remapped, hst, hpeer, hown, hj.ownOk, hkept]⟩
  case isFalse hown =>
    refine ⟨hwork.trans (portWork_setLink hn u _), ?_⟩
    rw [trainLink, modLink, getLink_setLink]
    simp [Remapped, hst, hpeer, hown]

/-- A new map acts on one link of a port as R275 says. -/
theorem remaps_remapLink {s : State} {p n : Nat} {m : List Byte} (w : Bool) (hm : s.map = some m) (hp : portOf n = p)
    (hn : n ∈ portLinks p) (hl : (getLink s n).loopback = none) :
    PortWork p [n] s (remapLink s n w) ∧ Remapped w (getLink s n) (getLink (remapLink s n w) n) := by
  unfold remapLink
  simp only [preemptLoop_idle hl]
  cases w with
  | true =>
    rw [if_pos rfl]
    cases hst : (getLink s n).st with
    | active => exact remaps_modLink _ hn (by simp [Remapped, hst])
    | keepalive => exact remaps_modLink _ hn (by simp [Remapped, hst])
    | dark => exact remaps_modLink _ hn (by simp [Remapped, hst])
    | dropped => exact remaps_modLink _ hn (by simp [Remapped, hst])
    | quarantined => exact remaps_modLink _ hn (by simp [Remapped, hst])
    | training => exact ⟨(SparesLinks.refl s).portWork p [n], by simp [Remapped, hst]⟩
    | identify =>
      have hu : SparesLinks s (if isNet (portOf n) = true then emit s (.neighborAdvert n) else s) := by
        split
        · exact sparesLinks_emit s _
        · exact .refl s
      dsimp only
      split
      case h_1 q hpeer => exact remaps_identify hm hp hn hst hpeer hu
      case h_2 hpeer =>
        rw [hu.getLink]
        exact ⟨hu.portWork p [n], by simp [Remapped, hst, hpeer]⟩
  | false =>
    rw [if_neg Bool.false_ne_true]
    split
    case isTrue hb =>
      have hst : (getLink s n).st = .active ∨ (getLink s n).st = .keepalive := by simpa [inBundle] using hb
      exact remaps_modLink _ hn (by simp [Remapped, hst])
    case isFalse hb =>
      have hst : ¬((getLink s n).st = .active ∨ (getLink s n).st = .keepalive) := by simpa [inBundle] using hb
      exact remaps_modLink _ hn (by simp [Remapped, hst])

/-! ## The links of a port, and of every port, under a new map -/

/-- The links of a port under a new map, one after another. -/
theorem remaps_links {p : Nat} {m : List Byte} (w : Nat → Bool) (hp : p < 10) (ns : List Nat) (hd : ns.Nodup)
    (hns : ns ⊆ portLinks p) (s : State) (hm : s.map = some m) (hl : ∀ n ∈ ns, (getLink s n).loopback = none) :
    let t := ns.foldl (fun s n => remapLink s n (w n)) s
    PortWork p ns s t ∧ ∀ n ∈ ns, Remapped (w n) (getLink s n) (getLink t n) := by
  induction ns generalizing s with
  | nil => exact ⟨(SparesLinks.refl s).portWork p [], by simp⟩
  | cons n r ih =>
    obtain ⟨hnr, hr⟩ := List.nodup_cons.1 hd
    obtain ⟨hn, hsub⟩ := List.cons_subset.1 hns
    obtain ⟨hwork, hremap⟩ := remaps_remapLink (w n) hm (portOf_of_mem_portLinks p hp n hn) hn (hl n List.mem_cons_self)
    have hother : ∀ k ∈ r, Carried (getLink s k) (getLink (remapLink s n (w n)) k) := fun k hk =>
      hwork.carried k (by rintro h; rw [List.mem_singleton.1 h] at hk; exact hnr hk)
    obtain ⟨hwork', hremap'⟩ := ih hr hsub (remapLink s n (w n)) (hwork.map.trans hm)
      (fun k hk => (hother k hk).loopback.trans (hl k (List.mem_cons_of_mem n hk)))
    refine ⟨(hwork.mono (by simp)).trans (hwork'.mono (List.subset_cons_self n r)), fun k hk => ?_⟩
    rcases List.mem_cons.1 hk with rfl | hk
    · exact hremap.then_carried (hwork'.carried k hnr)
    · exact (hremap' k hk).after_carried (hother k hk)

/-- The map before holds the same entry for a port. -/
def keptEntry (old : Option (List Byte)) (m : List Byte) (p : Nat) : Prop := ∃ o, old = some o ∧ mapEntry o p = mapEntry m p

/-- What a new map does to the links of one port. -/
def remapPort (old : Option (List Byte)) (m : List Byte) (s : State) (p : Nat) : State :=
  let same := match old with
    | some o => decide (mapEntry o p = mapEntry m p)
    | none => false
  if same then s else (portLinks p).foldl (fun s n => remapLink s n (mapUsed m p && bitOf (mapExpected m p) (linkIndex n))) s

theorem remapLinks_eq (s : State) (old : Option (List Byte)) (m : List Byte) :
    remapLinks s old m = (List.range 10).foldl (remapPort old m) s := rfl

theorem remapPort_kept {old : Option (List Byte)} {m : List Byte} {p : Nat} (h : keptEntry old m p) (s : State) :
    remapPort old m s p = s := by
  obtain ⟨o, rfl, ho⟩ := h
  exact if_pos (by simp [ho])

theorem remapPort_changed {old : Option (List Byte)} {m : List Byte} {p : Nat} (h : ¬keptEntry old m p) (s : State) :
    remapPort old m s p =
      (portLinks p).foldl (fun s n => remapLink s n (mapUsed m p && bitOf (mapExpected m p) (linkIndex n))) s := by
  unfold remapPort
  cases old with
  | none => rfl
  | some o => exact if_neg (by simpa [keptEntry] using h)

/-- What becomes of a link of a port under a new map. -/
def MapTakesLink (old : Option (List Byte)) (m : List Byte) (n : Nat) (l l' : Link) : Prop :=
  (keptEntry old m (portOf n) → l' = l) ∧ (¬keptEntry old m (portOf n) → Remapped (wanted m n) l l')

theorem remaps_remapPort {s : State} {p : Nat} {m : List Byte} (old : Option (List Byte)) (hp : p < 10) (hm : s.map = some m)
    (hl : ∀ n ∈ portLinks p, (getLink s n).loopback = none) :
    SparesBoard s (remapPort old m s p) ∧ (∀ n, n ∉ portLinks p → getLink (remapPort old m s p) n = getLink s n)
      ∧ ∀ n ∈ portLinks p, MapTakesLink old m n (getLink s n) (getLink (remapPort old m s p) n) := by
  by_cases hk : keptEntry old m p
  · rw [remapPort_kept hk]
    refine ⟨.refl s, fun _ _ => rfl, fun n hn => ⟨fun _ => rfl, fun h => ?_⟩⟩
    rw [portOf_of_mem_portLinks p hp n hn] at h
    exact absurd hk h
  · rw [remapPort_changed hk]
    obtain ⟨hwork, hremap⟩ := remaps_links (fun n => mapUsed m p && bitOf (mapExpected m p) (linkIndex n)) hp (portLinks p)
      (nodup_portLinks p) (List.Subset.refl _) s hm hl
    refine ⟨hwork.toSparesBoard, hwork.beside, fun n hn => ?_⟩
    have hpn := portOf_of_mem_portLinks p hp n hn
    rw [MapTakesLink, wanted, hpn]
    exact ⟨fun h => absurd h hk, fun _ => hremap n hn⟩

/-- The ports under a new map, one after another. -/
theorem remaps_ports {m : List Byte} (old : Option (List Byte)) (ps : List Nat) (hd : ps.Nodup) (hps : ∀ p ∈ ps, p < 10) (s : State)
    (hm : s.map = some m) (hl : ∀ p ∈ ps, ∀ n ∈ portLinks p, (getLink s n).loopback = none) :
    let t := ps.foldl (remapPort old m) s
    SparesBoard s t ∧ (∀ n, (∀ p ∈ ps, n ∉ portLinks p) → getLink t n = getLink s n)
      ∧ ∀ p ∈ ps, ∀ n ∈ portLinks p, MapTakesLink old m n (getLink s n) (getLink t n) := by
  induction ps generalizing s with
  | nil => exact ⟨.refl s, fun _ _ => rfl, by simp⟩
  | cons p r ih =>
    obtain ⟨hpr, hr⟩ := List.nodup_cons.1 hd
    obtain ⟨hp, hps⟩ := List.forall_mem_cons.1 hps
    obtain ⟨hlp, hlr⟩ := List.forall_mem_cons.1 hl
    obtain ⟨hboard, hbeside, htakes⟩ := remaps_remapPort old hp hm hlp
    have hapart : ∀ k ∈ r, ∀ n ∈ portLinks k, n ∉ portLinks p := fun k hk n hn hnp => by
      have hkp : k = p := (portOf_of_mem_portLinks k (hps k hk) n hn).symm.trans (portOf_of_mem_portLinks p hp n hnp)
      exact hpr (hkp ▸ hk)
    obtain ⟨hboard', hbeside', htakes'⟩ := ih hr hps (remapPort old m s p) (hboard.map.trans hm)
      (fun k hk n hn => by rw [hbeside n (hapart k hk n hn)]; exact hlr k hk n hn)
    refine ⟨hboard.trans hboard', fun n hn => ?_, List.forall_mem_cons.2 ⟨fun n hn => ?_, fun k hk n hn => ?_⟩⟩
    · obtain ⟨hnp, hnr⟩ := List.forall_mem_cons.1 hn
      exact (hbeside' n hnr).trans (hbeside n hnp)
    · have hsame := hbeside' n (fun k hk hnk => hapart k hk n hnk hn)
      rw [List.foldl_cons, hsame]
      exact htakes n hn
    · rw [← hbeside n (hapart k hk n hn)]
      exact htakes' k hk n hn

/-- A new map takes effect on every link, and on nothing of the board but the map (R275). -/
theorem remaps_remapLinks {s : State} {m : List Byte} (old : Option (List Byte)) (hm : s.map = some m)
    (hl : ∀ n, (getLink s n).loopback = none) :
    SparesBoard s (remapLinks s old m) ∧ ∀ n < 48, MapTakesLink old m n (getLink s n) (getLink (remapLinks s old m) n) := by
  obtain ⟨hboard, -, htakes⟩ := remaps_ports old (List.range 10) List.nodup_range (fun p hp => List.mem_range.1 hp) s hm
    (fun _ _ n _ => hl n)
  rw [remapLinks_eq]
  refine ⟨hboard, fun n hn => ?_⟩
  obtain ⟨hp, hmem⟩ := mem_portLinks_portOf n hn
  exact htakes (portOf n) (List.mem_range.2 hp) n hmem

/-! ## A retrain of links -/

/-- A link after the charge has named it. -/
def retrained (l : Link) : Link :=
  if inBundle l then { l with leaving := true, noLeave := false }
  else if l.st = .dropped ∨ l.st = .quarantined then
    { resetLink l with st := .training, reason := 0, mseq := 0, chal := [], parts := [], stuck := false }
  else l

/-- A link that carries traffic leaves its bundle, with a LEAVE of its own. -/
theorem retrained_carrying {l : Link} (h : l.st = .active ∨ l.st = .keepalive) : retrained l = { l with leaving := true, noLeave := false } :=
  if_pos (by simpa [inBundle] using h)

/-- A link that was given up trains, with its allowance. -/
theorem retrained_stopped {l : Link} (h : l.st = .dropped ∨ l.st = .quarantined) :
    (retrained l).st = .training ∧ (retrained l).stuck = false := by
  have hb : inBundle l = false := by rcases h with h | h <;> simp [inBundle, h]
  simp [retrained, hb, h]

/-- A link that trains already, or that nothing uses, goes on. -/
theorem retrained_otherwise {l : Link} (h : l.st = .training ∨ l.st = .identify ∨ l.st = .dark) : retrained l = l := by
  rcases h with h | h | h <;> simp [retrained, inBundle, h]

/-- A retrain of one link changes that link alone. -/
theorem retrainLink_spec {s : State} {n : Nat} (h : (getLink s n).loopback = none) :
    { retrainLink s n with links := s.links } = s ∧ getLink (retrainLink s n) n = retrained (getLink s n)
      ∧ ∀ k, k ≠ n → getLink (retrainLink s n) k = getLink s k := by
  unfold retrainLink retrained
  simp only [preemptLoop_idle h]
  split
  · exact ⟨rfl, getLink_setLink .., fun k hk => getLink_setLink_ne s hk _⟩
  · split
    · exact ⟨rfl, getLink_setLink .., fun k hk => getLink_setLink_ne s hk _⟩
    · exact ⟨rfl, rfl, fun _ _ => rfl⟩

/-- A retrain of several links, one after another. -/
theorem foldl_retrainLink (ns : List Nat) (hd : ns.Nodup) (s : State) (h : ∀ n ∈ ns, (getLink s n).loopback = none) :
    let t := ns.foldl retrainLink s
    { t with links := s.links } = s ∧ (∀ n, n ∉ ns → getLink t n = getLink s n)
      ∧ ∀ n ∈ ns, getLink t n = retrained (getLink s n) := by
  induction ns generalizing s with
  | nil => exact ⟨rfl, fun _ _ => rfl, by simp⟩
  | cons n r ih =>
    obtain ⟨hnr, hr⟩ := List.nodup_cons.1 hd
    obtain ⟨hn, hrest⟩ := List.forall_mem_cons.1 h
    obtain ⟨hframe, hself, hothers⟩ := retrainLink_spec hn
    have hne : ∀ k ∈ r, k ≠ n := fun k hk hkn => hnr (hkn ▸ hk)
    obtain ⟨hframe', hout', hin'⟩ := ih hr (retrainLink s n) (fun k hk => by rw [hothers k (hne k hk)]; exact hrest k hk)
    refine ⟨?_, fun k hk => ?_, List.forall_mem_cons.2 ⟨?_, fun k hk => ?_⟩⟩
    · exact (congrArg (fun y : State => { y with links := s.links }) hframe').trans hframe
    · obtain ⟨hkn, hkr⟩ := not_or.1 (mt List.mem_cons.2 hk)
      exact (hout' k hkr).trans (hothers k hkn)
    · exact (hout' n hnr).trans hself
    · rw [← hothers k (hne k hk)]
      exact hin' k hk

end Sys2Proof.Machine
end

section
/-! The charges MAP_LOAD, MAP_READ, LINK_STATUS and LINK_RETRAIN (R7, R274 to R276, R279). -/

namespace Sys2Proof.Machine

open Sys2Proof.Claims

/-! ## MAP_LOAD -/

/-- A well-formed MAP_LOAD whose source can be read is refused by the map's own checks, or puts the map in force. -/
theorem exec_mapLoad {s : State} {c q : Nat} {e : Entry} (hrun : running s c q 0x010 = some e) (halign : pw e 0 % 64 = 0)
    (hlen : pw e 8 = 1024) (htail : tailZero e 0x10 = true) (hreach : Reachable s (pw e 0) 1024 .rd) :
    let m := bytesAt s (pw e 0) 1024
    exec (.mapLoad c q {}) s = .next (if (mapRefusal s m).1 ≠ 0 then report s c q (mapRefusal s m).1 (mapRefusal s m).2
      else report (remapTwin (remapLinks { s with map := some m } s.map m) s.map m) c q 0 0) := by
  obtain ⟨hok, hopen, hbad⟩ := hreach
  change execMapLoad c q {} s = _
  rw [execMapLoad, onCharge_running _ hrun]
  simp [firstFail_cons, halign, hlen, htail, hok, hopen, readAt_clean 8 noSubject (pw e 0) 1024 hbad]

/-- A map in force has remapped the links, told the twin, and touched nothing else of the board. -/
theorem remapped_board {s : State} (m : List Byte) (hl : ∀ n, (getLink s n).loopback = none) :
    let u := remapTwin (remapLinks { s with map := some m } s.map m) s.map m
    SparesBoard { s with map := some m } u ∧ ∀ n < 48, MapTakesLink s.map m n (getLink s n) (getLink u n) := by
  have htwin := sparesLinks_remapTwin (remapLinks { s with map := some m } s.map m) s.map m
  obtain ⟨hboard, htakes⟩ := remaps_remapLinks (s := { s with map := some m }) s.map rfl hl
  refine ⟨hboard.trans htwin.toSparesBoard, fun n hn => ?_⟩
  rw [htwin.getLink]
  exact htakes n hn

/-! ## MAP_READ -/

theorem length_peerBytes (l : Link) : (peerBytes l).length = 32 := by
  unfold peerBytes
  split
  · rfl
  · simp [length_toLE]

/-- The 1,024 bytes of the map that MAP_READ writes (R276). -/
def mapBytes (s : State) : List Byte :=
  match s.map with
  | some m => slice m 0 1024
  | none => List.replicate 1024 0

theorem length_mapBytes (s : State) : (mapBytes s).length = 1024 := by
  unfold mapBytes
  split
  · rw [slice, List.length_append, List.length_replicate, List.length_take]; omega
  · exact List.length_replicate

theorem mapBytes_some {s : State} {m : List Byte} (hm : s.map = some m) (hl : m.length = 1024) : mapBytes s = m := by
  have htake : (m.drop 0).take 1024 = m := List.take_of_length_le (by rw [List.drop_zero, hl])
  rw [mapBytes, hm]
  dsimp only
  rw [slice, htake, hl, Nat.sub_self, List.replicate_zero, List.append_nil]

theorem mapBytes_none {s : State} (hm : s.map = none) : mapBytes s = List.replicate 1024 0 := by
  rw [mapBytes, hm]

/-- The version of the map in force, 0 without one. -/
def versionInForce (s : State) : Nat :=
  match s.map with
  | some m => mapVersion m
  | none => 0

/-- The peer records that follow the map. -/
def peerTable (s : State) : List Byte := (List.range 48).flatMap (fun n => peerBytes (getLink s n))

theorem length_peerTable (s : State) : (peerTable s).length = 1536 := by
  simp [peerTable, List.length_flatMap, length_peerBytes]

/-- The checks that MAP_READ and LINK_STATUS make of their destination. -/
theorem destination_passes {s : State} {e : Entry} {n : Nat} (halign : pw e 0 % 64 = 0) (htail : tailZero e 8 = true)
    (hok : deviceOk s (pw e 0) n = true) : firstFail [(decide (pw e 0 % 64 = 0) && tailZero e 8, Status.fieldReserved),
      (deviceOk s (pw e 0) n, Status.addressUnpopulated)] = 0 := by
  simp [firstFail_cons, halign, htail, hok]

theorem exec_mapRead {s : State} {c q : Nat} {e : Entry} (hrun : running s c q 0x011 = some e) (halign : pw e 0 % 64 = 0)
    (htail : tailZero e 8 = true) (hok : deviceOk s (pw e 0) 2560 = true) :
    exec (.mapRead c q) s = .next (putDevice s c q (pw e 0) (mapBytes s ++ peerTable s) (versionInForce s)) := by
  change execMapRead c q s = _
  rw [execMapRead, onCharge_running _ hrun]
  simp only [destination_passes halign htail hok]
  rfl

/-! ## LINK_STATUS -/

theorem length_linkRecord (s : State) (n : Nat) : (linkRecord s n).length = 32 := by
  simp [linkRecord, length_toLE]

theorem exec_linkStatus {s : State} {c q : Nat} {e : Entry} (hrun : running s c q 0x500 = some e) (halign : pw e 0 % 64 = 0)
    (htail : tailZero e 8 = true) (hok : deviceOk s (pw e 0) 1536 = true) :
    exec (.linkStatus c q) s = .next (putDevice s c q (pw e 0) ((List.range 48).flatMap (linkRecord s)) 0) := by
  change execLinkStatus c q s = _
  rw [execLinkStatus, onCharge_running _ hrun]
  simp only [destination_passes halign htail hok]
  rfl

/-! ## LINK_RETRAIN -/

theorem nodup_bitsOf (n mask : Nat) : (bitsOf n mask).Nodup := List.Nodup.filter _ List.nodup_range

theorem getLink_modRunning (s : State) (c q : Nat) (f : Entry → Entry) (n : Nat) : getLink (modRunning s c q f) n = getLink s n := rfl

/-- A LINK_RETRAIN that begins is refused, or names its links and waits. -/
theorem exec_linkRetrain_begins {s : State} {c q : Nat} {e : Entry} (hrun : running s c q 0x501 = some e) (hd : pw e 0 < 2 ^ 49)
    (htail : tailZero e 8 = true) (hphase : e.phase = 0) :
    let mask := pw e 0 % 2 ^ 48
    let ns := bitsOf 48 mask
    exec (.linkRetrain c q) s = .next (if retrainRefused s mask (bitOf (pw e 0) 48) = true then report s c q Status.linkRetrainRefused 0
      else if ns = [] then report (ns.foldl retrainLink s) c q 0 0
      else modRunning (ns.foldl retrainLink s) c q (fun e => { e with phase := 1 })) := by
  have hmask : fld (pw e 0) 47 0 = pw e 0 % 2 ^ 48 := by simp [fld]
  have hreserved : fld (pw e 0) 63 49 = 0 := by rw [fld, Nat.shiftRight_eq_div_pow, Nat.div_eq_of_lt hd, Nat.zero_mod]
  change execLinkRetrain c q s = _
  rw [execLinkRetrain, onCharge_running _ hrun]
  simp only [hmask, hreserved, htail, hphase, firstFail_cons, firstFail_nil, decide_true, Bool.and_self, if_true]
  cases retrainRefused s (pw e 0 % 2 ^ 48) (bitOf (pw e 0) 48) <;> rfl

/-- A LINK_RETRAIN that waits reports once every link that it named has come to rest. -/
theorem exec_linkRetrain_rests {s : State} {c q : Nat} {e : Entry} (hrun : running s c q 0x501 = some e) (hphase : e.phase ≠ 0)
    (hdone : ∀ n ∈ bitsOf 48 (pw e 0 % 2 ^ 48), retrainDone (getLink s n) = true) :
    exec (.linkRetrain c q) s = .next (report s c q 0
      ((((bitsOf 48 (pw e 0 % 2 ^ 48)).filter (fun n => (getLink s n).st = .active)).map (fun n => 2 ^ n)).sum)) := by
  have hmask : fld (pw e 0) 47 0 = pw e 0 % 2 ^ 48 := by simp [fld]
  change execLinkRetrain c q s = _
  rw [execLinkRetrain, onCharge_running _ hrun]
  simp only [hmask, if_neg hphase, List.all_eq_true.2 hdone, if_true]

/-! ## The two halves of O36 -/

/-- MAP_LOAD and MAP_READ do what R274 to R276 say. -/
theorem mapLoadRemapsTheLinks : Claims.MapLoadRemapsTheLinks := by
  intro s c q e d m
  refine ⟨fun hrun halign hlen htail hreach => ?_, fun hrun halign htail hreach => ?_⟩
  · have hexec := exec_mapLoad hrun halign hlen htail hreach
    refine ⟨fun hbad => ?_, fun hok hl => ?_⟩
    · rw [hexec, if_pos hbad]
    · rw [hexec, if_neg (not_not.2 hok)]
      obtain ⟨hboard, htakes⟩ := remapped_board m hl
      refine ⟨_, rfl, hboard.map, report_ctxs hboard.ctxs c q 0 0, hboard.mem, hboard.cores, fun n hn => ?_⟩
      obtain ⟨hkept, hremap⟩ := htakes n hn
      dsimp only
      split
      case isTrue hk => exact hkept hk
      case isFalse hk => exact hremap hk
  · obtain ⟨hok, -, -⟩ := id hreach
    have hsize : (mapBytes s ++ peerTable s).length = 2560 := by rw [List.length_append, length_mapBytes, length_peerTable]
    obtain ⟨hreports, hinside, houtside, hframe⟩ := putDevice_writes c q (versionInForce s) (hsize.symm ▸ hreach)
    have hmap : bytesAt (putDevice s c q (pw e 0) (mapBytes s ++ peerTable s) (versionInForce s)) (pw e 0) 1024 = mapBytes s := by
      have h := hinside 0 1024 (by omega)
      rwa [Nat.add_zero, List.drop_zero, List.take_left' (length_mapBytes s)] at h
    rw [exec_mapRead hrun halign htail hok]
    refine ⟨_, rfl, hreports, fun o ho hlen => hmap.trans (mapBytes_some ho hlen), fun hnone => hmap.trans (mapBytes_none hnone),
      fun n hn => ?_, hsize ▸ houtside, hframe⟩
    rw [Nat.add_assoc, hinside (1024 + 32 * n) 32 (by omega), ← List.drop_drop, List.drop_left' (length_mapBytes s)]
    exact flatMap_range_part _ 32 48 n (fun i => length_peerBytes _) hn

/-- LINK_STATUS and LINK_RETRAIN do what R279 says. -/
theorem linkChargesReadAndRetrainLinks : Claims.LinkChargesReadAndRetrainLinks := by
  intro s c q e d mask ns
  refine ⟨fun hrun halign htail hreach => ?_, fun hrun hd htail hl =>
    ⟨fun hphase href => ?_, fun hphase href hns => ?_, fun hphase hdone => ?_⟩⟩
  · obtain ⟨hok, -, -⟩ := id hreach
    have hsize : ((List.range 48).flatMap (linkRecord s)).length = 1536 := by simp [List.length_flatMap, length_linkRecord]
    obtain ⟨hreports, hinside, houtside, hframe⟩ := putDevice_writes c q 0 (hsize.symm ▸ hreach)
    rw [exec_linkStatus hrun halign htail hok]
    refine ⟨_, rfl, hreports, fun n hn => ?_, hsize ▸ houtside, hframe⟩
    rw [hinside (32 * n) 32 (by omega)]
    exact flatMap_range_part _ 32 48 n (length_linkRecord s) hn
  · rw [exec_linkRetrain_begins hrun hd htail hphase]
    exact congrArg _ (if_pos href)
  · obtain ⟨hframe, hout, hin⟩ := foldl_retrainLink ns (nodup_bitsOf 48 mask) s (fun n _ => hl n)
    have hexec : exec (.linkRetrain c q) s = .next (modRunning (ns.foldl retrainLink s) c q (fun e => { e with phase := 1 })) := by
      rw [exec_linkRetrain_begins hrun hd htail hphase]
      exact congrArg _ ((if_neg (by rw [href]; exact Bool.false_ne_true)).trans (if_neg hns))
    refine ⟨_, hexec, ?_, hout, fun n hn => ?_⟩
    · exact congrArg (fun y : State => { y with ctxs := s.ctxs }) hframe
    · rw [getLink_modRunning, hin n hn]
      exact ⟨retrained_carrying, retrained_stopped, retrained_otherwise⟩
  · exact exec_linkRetrain_rests hrun hphase hdone

end Sys2Proof.Machine

/-- Settles O36: the port-by-port remap of the links, the device writes of the two reads, and the link-by-link retrain. -/
theorem linkChargesMapReadAndRetrain : Obligations.LinkChargesMapReadAndRetrain :=
  ⟨Sys2Proof.Machine.mapLoadRemapsTheLinks, Sys2Proof.Machine.linkChargesReadAndRetrainLinks⟩

end

section
/-! Event records and counters (R439 to R452): what a record and an advance of a counter leave as it was. -/

namespace Sys2Proof.Machine

/-- Nothing but the telemetry differs, and no number of an event record is taken back. -/
structure Recorded (s t : State) : Prop where
  frame : { t with tel := s.tel } = s
  eseq : s.tel.eseq ≤ t.tel.eseq

theorem Recorded.refl (s : State) : Recorded s s := ⟨rfl, Nat.le_refl _⟩

theorem Recorded.trans {s t u : State} (h : Recorded s t) (k : Recorded t u) : Recorded s u :=
  ⟨(congrArg (fun y : State => { y with tel := s.tel }) k.frame).trans h.frame, Nat.le_trans h.eseq k.eseq⟩

/-- The state after it is the one before it with a telemetry of its own. -/
theorem Recorded.eq {s t : State} (h : Recorded s t) : t = { s with tel := t.tel } :=
  (congrArg (fun y : State => { y with tel := t.tel }) h.frame : { t with tel := t.tel } = _)

theorem recorded_bump (s : State) (set i n : Nat) : Recorded s (bump s set i n) := ⟨rfl, Nat.le_refl _⟩

theorem recorded_enterEvent (s : State) (e : Event) : Recorded s (enterEvent s e) := by
  unfold enterEvent
  split <;> exact ⟨rfl, Nat.le_succ _⟩

/-- A record takes a number, whether it enters the buffer or is lost. -/
theorem enterEvent_eseq (s : State) (e : Event) : (enterEvent s e).tel.eseq = s.tel.eseq + 1 := by
  unfold enterEvent
  split <;> rfl

theorem recorded_enterOverflow (s : State) : Recorded s (enterOverflow s) := by
  unfold enterOverflow
  split
  · extract_lets n f x u
    have hu : Recorded s u := ⟨rfl, Nat.le_refl _⟩
    exact hu.trans (recorded_enterEvent u _)
  · exact .refl s

theorem recorded_raiseEv (s : State) (st src subj w a b : Nat) : Recorded s (raiseEv s st src subj w a b) :=
  ((recorded_enterOverflow s).trans (recorded_bump _ 0 0 1)).trans (recorded_enterEvent _ _)

/-- Every event record takes a number. -/
theorem raiseEv_eseq (s : State) (st src subj w a b : Nat) : s.tel.eseq < (raiseEv s st src subj w a b).tel.eseq := by
  have hle : s.tel.eseq ≤ (bump (enterOverflow s) 0 0 1).tel.eseq := (recorded_enterOverflow s).eseq
  rw [raiseEv, enterEvent_eseq]
  exact Nat.lt_succ_of_le hle

/-- A counter that advances reads its new value. -/
theorem counterOf_bump_same (s : State) {set i : Nat} (n : Nat) (h : ¬(set = 0 ∧ i = 1)) :
    counterOf (bump s set i n) set i = (counterOf s set i).addN n := by
  simp only [counterOf, if_neg h]
  exact tget_tput_same _ _ _ _

/-- Every other counter stays. -/
theorem counterOf_bump_ne (s : State) {set i set' i' : Nat} (n : Nat) (h : 4096 * set' + i' ≠ 4096 * set + i) :
    counterOf (bump s set i n) set' i' = counterOf s set' i' := by
  simp only [counterOf]
  split
  · rfl
  · exact tget_tput_ne _ _ h _

theorem counterOf_enterEvent (s : State) (e : Event) {set i : Nat} (h : ¬(set = 0 ∧ i = 1)) :
    counterOf (enterEvent s e) set i = counterOf s set i := by
  unfold enterEvent
  split <;> simp only [counterOf, if_neg h]

theorem counterOf_enterOverflow (s : State) {set i : Nat} (h : ¬(set = 0 ∧ i = 1)) (h0 : 4096 * set + i ≠ 0) :
    counterOf (enterOverflow s) set i = counterOf s set i := by
  unfold enterOverflow
  split
  · exact (counterOf_enterEvent _ _ h).trans (counterOf_bump_ne _ 1 (by omega))
  · rfl

/-- An event record counts itself alone. -/
theorem counterOf_raiseEv (s : State) (st src subj w a b : Nat) {set i : Nat} (h : ¬(set = 0 ∧ i = 1)) (h0 : 4096 * set + i ≠ 0) :
    counterOf (raiseEv s st src subj w a b) set i = counterOf s set i :=
  (counterOf_enterEvent _ _ h).trans ((counterOf_bump_ne _ 1 (by omega)).trans (counterOf_enterOverflow s h h0))

end Sys2Proof.Machine
end

section
/-! Runners, patrols and bridges (R29, R199, R203 to R210, R243): one rule for each command. -/

namespace Sys2Proof.Machine

/-! ## Runners -/

@[simp] theorem getRunner_setRunner (s : State) (l n : Nat) (r : Runner) : getRunner (setRunner s l n r) l n = r := by
  simp only [getRunner, setRunner, getCore_modCore, tget_tput_same]

@[simp] theorem setRunner_mem (s : State) (l n : Nat) (r : Runner) : (setRunner s l n r).mem = s.mem := rfl

/-- An enabled spill runner whose tail cannot pass to the head writes the tail's oldest entry to the middle (R204). -/
theorem exec_spillTailWrite {s : State} {l n : Nat} {e : List Byte} {rest : List (List Byte)} (hrun : coreRuns s l = true)
    (hen : (getRunner s l n).enabled = true) (hsp : (getRunner s l n).isSpill = true) (htail : (getRunner s l n).tail = e :: rest)
    (hroom : (getRunner s l n).span < 2 ^ (getRunner s l n).ptrLog)
    (hpass : (getRunner s l n).span ≠ 0 ∨ 16 ≤ (getRunner s l n).head.length) :
    exec (.spillTailWrite l n false) s = .next (setRunner (putMem s ((getRunner s l n).slot (getRunner s l n).wp) e) l n
      { getRunner s l n with tail := rest, wp := (getRunner s l n).adv (getRunner s l n).wp }) := by
  have hstay : ¬((getRunner s l n).span = 0 ∧ (getRunner s l n).head.length < 16) := by omega
  change execSpillTailWrite l n false s = _
  simp [execSpillTailWrite, tailToMiddle, hrun, hen, hsp, htail, hstay, Nat.not_le.2 hroom]

/-- A low head of an enabled spill runner takes the middle's oldest entries, in order (R204). -/
theorem exec_spillHeadRefill {s : State} {l n : Nat} (hrun : coreRuns s l = true) (hen : (getRunner s l n).enabled = true)
    (hsp : (getRunner s l n).isSpill = true) (hpoison : s.poison = []) (hlow : (getRunner s l n).head.length < 8)
    (hspan : (getRunner s l n).span ≠ 0) :
    let q := getRunner s l n
    let k := min (16 - q.head.length) q.span
    exec (.spillHeadRefill l n false {}) s = .next (setRunner s l n (Runner.pass
      { q with head := q.head ++ (middleSlots q k).map (fun u => memB s u 64), rp := (q.rp + k) % 2 ^ (q.ptrLog + 1) })) := by
  change execSpillHeadRefill l n false {} s = _
  simp [execSpillHeadRefill, hrun, hen, hsp, hspan, Nat.not_le.2 hlow, readUnits_clean _ { s := s } _ hpoison]

/-- The half of O14 about runners. -/
theorem runnerRegistersAndSpillMoversKeepTheOrder : Claims.RunnerRegistersAndSpillMoversKeepTheOrder := by
  intro s l n v q
  refine ⟨⟨_, rfl, getRunner_setRunner ..⟩, ⟨_, rfl, getRunner_setRunner ..⟩, ⟨_, rfl, getRunner_setRunner ..⟩,
    fun hrun hen hsp hpoison => ⟨fun e rest htail hlen hroom hpass => ?_, fun hlow hspan => ?_⟩⟩
  · refine ⟨_, exec_spillTailWrite hrun hen hsp htail hroom hpass, getRunner_setRunner .., ?_, fun a ha => ?_⟩
    · have hread := memB_putMem s (q.slot q.wp) e hpoison
      rwa [hlen] at hread
    · rw [setRunner_mem, putMem_clean s _ e hpoison]
      exact tget_writeB_outside _ _ _ _ (by rwa [hlen])
  · refine ⟨_, exec_spillHeadRefill hrun hen hsp hpoison hlow hspan, rfl, ?_⟩
    rw [getRunner_setRunner, middleSlots, List.map_map]
    rfl

/-! ## Patrols -/

/-- A patrol read of memory that finds nothing counts its unit, and the end of a tier's pass. -/
theorem exec_memoryPatrol {s : State} {a : Nat} (halign : a % 64 = 0) (hmem : inMem s a 64 = true) (hoff : s.boot.off = false)
    (hdown : s.boot.shutdown = false) (hpoison : s.poison = []) :
    let t := bump s 3 (memUnit s a + 4) 1
    exec (.memoryPatrol a false {}) s
      = .next (if a + 64 = fastBytes s ∨ a + 64 = deepBase + deepBytes s then bump t 0 14 1 else t) := by
  have hclean : patrolUnit {} false s a = bump s 3 (memUnit s a + 4) 1 := by simp [patrolUnit, readUnit, hpoison]
  change execMemoryPatrol a false {} s = _
  simp only [execMemoryPatrol, halign, hmem, hoff, hdown, hclean]
  rfl

/-! ## Bridges -/

@[simp] theorem getBridge_setBridge (s : State) (die : Nat) (b : Bridge) : getBridge (setBridge s die b) die = b := by
  unfold getBridge setBridge
  split <;> rfl

theorem getBridge_tel (s : State) (die : Nat) (x : Tel) : getBridge { s with tel := x } die = getBridge s die := rfl

theorem setBridge_tel (s : State) (die : Nat) (b : Bridge) : (setBridge s die b).tel = s.tel := by
  unfold setBridge
  split <;> rfl

/-- The half of O14 about the patrols and the bridges. -/
theorem scrubbersAndBridgesCountWhatTheyFind : Claims.ScrubbersAndBridgesCountWhatTheyFind := by
  refine ⟨fun s l bank row hbank hrow hbound hstages hbad => ?_, fun s a halign hmem hoff hdown hpoison => ?_,
    fun s die hdie hlost => ⟨?_, ?_, fun hfew => ?_, fun hmany => ?_⟩⟩
  · change execPatrolScrubRow l bank row {} s = _
    rw [execPatrolScrubRow, readWords_clean l 0 { s := s } _ hbad, ite_self]
  · refine ⟨_, exec_memoryPatrol halign hmem hoff hdown hpoison, ?_, ?_⟩
    · split <;> rfl
    · split
      · rw [counterOf_bump_ne _ _ (by omega), counterOf_bump_same _ _ (by omega)]
      · rw [counterOf_bump_same _ _ (by omega)]
  · change execBridgeUnit die true s = _
    simp [execBridgeUnit, Nat.not_le.2 hdie, hlost]
  · change execBridgeUnit die false s = _
    simp [execBridgeUnit, Nat.not_le.2 hdie, hlost]
  · change execBridgeLost die s = _
    simp [execBridgeLost, hfew]
  · have hexec : exec (.bridgeLost die) s
        = .next (raiseEv (setBridge s die { getBridge s die with lost := true }) Status.bridgeLost 0 noSubject 0 0 0) := by
      change execBridgeLost die s = _
      simp [execBridgeLost, Nat.not_le.2 hdie, hlost, Nat.not_lt.2 hmany]
    refine ⟨_, hexec, ?_, ?_⟩
    · rw [(recorded_raiseEv _ _ _ _ _ _ _).eq, getBridge_tel, getBridge_setBridge]
    · rw [← setBridge_tel s die { getBridge s die with lost := true }]
      exact Nat.ne_of_gt (raiseEv_eseq _ _ _ _ _ _ _)

end Sys2Proof.Machine

/-- Settles O14: a rule for each register write, flush and spill move, then the patrols and the bridges with their counters. -/
theorem runnersScrubbersAndBridgesKeepTheirAccounts : Obligations.RunnersScrubbersAndBridgesKeepTheirAccounts :=
  ⟨Sys2Proof.Machine.runnerRegistersAndSpillMoversKeepTheOrder, Sys2Proof.Machine.scrubbersAndBridgesCountWhatTheyFind⟩

end

section
/-! The frame that an output port makes of its one waiting shot (R261 to R264, R289). -/

namespace Sys2Proof.Machine

open Sys2Proof.Claims

/-! ## Phase times -/

theorem recorded_modPhase (s : State) (f : PhaseRec → PhaseRec) : Recorded s (modPhase s f) := by
  unfold modPhase
  split
  · split
    · exact ⟨rfl, Nat.le_refl _⟩
    · exact .refl s
  · exact .refl s

theorem recorded_phaseAdd (s : State) (q n : Nat) : Recorded s (phaseAdd s q n) := by
  unfold phaseAdd
  split
  · dsimp only
    split
    · exact .refl s
    · split
      · exact recorded_modPhase s _
      · split
        · exact recorded_modPhase s _
        · exact (recorded_modPhase s _).trans (recorded_raiseEv _ _ _ _ _ _ _)
  · exact .refl s

/-! ## Ports -/

@[simp] theorem modLPort_modLPort (s : State) (p : Nat) (f g : LPort → LPort) : modLPort (modLPort s p f) p g = modLPort s p (g ∘ f) := by
  simp only [modLPort, setLPort, getLPort, tget_tput_same, tput_tput, Function.comp_apply]

@[simp] theorem getLPort_modLPort (s : State) (p : Nat) (f : LPort → LPort) : getLPort (modLPort s p f) p = f (getLPort s p) :=
  getLPort_setLPort _ _ _

theorem getLPort_modLPort_ne (s : State) {p q : Nat} (h : q ≠ p) (f : LPort → LPort) : getLPort (modLPort s p f) q = getLPort s q :=
  getLPort_setLPort_ne _ h _

/-! ## One shot waits -/

/-- Of one waiting shot, the first lane with a credit that is its own gives it. -/
theorem laneShot_single {p : Nat} {x : LPort} {y : Shot} (hq : x.outq = [y]) (hc : lookD 0 x.used y.vl < laneBuffers p) (lanes : List Nat) :
    laneShot p x lanes = if y.vl ∈ lanes then some y else none := by
  induction lanes with
  | nil => rfl
  | cons v r ih =>
    rw [laneShot] at ih ⊢
    rw [List.findSome?_cons, ih, hq]
    by_cases hv : y.vl = v
    · subst hv
      simp [hc]
    · simp [hv]

theorem mem_controlOrder (x : LPort) (v : Nat) : v ∈ controlOrder x ↔ v = 2 ∨ v = 3 := by
  unfold controlOrder
  split <;> simp [or_comm]

theorem mem_dataOrder (x : LPort) (v : Nat) : v ∈ dataOrder x ↔ v = 0 ∨ v = 1 := by
  unfold dataOrder
  split <;> simp [or_comm]

/-- An empty frame has room for any shot. -/
theorem bodyRoom_empty (p : Nat) (y : Shot) : bodyRoom p 0 0 y = true := by
  have hwords : shotWords y ≤ 10 := by unfold shotWords; split <;> omega
  unfold bodyRoom
  split <;> simp <;> omega

/-- The one waiting shot of a port, on any of the four lanes, is the next one of an empty frame. -/
theorem nextShot_single {p : Nat} {x : LPort} {y : Shot} (hq : x.outq = [y]) (hm : x.mirrorq = []) (hv : y.vl < 4)
    (hc : lookD 0 x.used y.vl < laneBuffers p) : nextShot p 0 0 x = some y := by
  have hmirror : mirrorShot p x = none := by simp [mirrorShot, hm]
  have hlane : (laneShot p x (controlOrder x)).or (laneShot p x (dataOrder x)) = some y := by
    rw [laneShot_single hq hc, laneShot_single hq hc]
    by_cases hcontrol : y.vl ∈ controlOrder x
    · simp [hcontrol]
    · have hdata : y.vl ∈ dataOrder x := by
        rw [mem_controlOrder] at hcontrol
        rw [mem_dataOrder]
        omega
      simp [hcontrol, hdata]
  rw [nextShot, hmirror, Option.none_or, hlane]
  simp [bodyRoom_empty]

/-- The frame of the one waiting shot holds it, and the queue is empty. -/
theorem fillFrame_single {p : Nat} {x : LPort} {y : Shot} (hq : x.outq = [y]) (hm : x.mirrorq = []) (hv : y.vl < 4)
    (hc : lookD 0 x.used y.vl < laneBuffers p) (hy : y.mirror = false) : fillFrame p 1 x [] = (takeShot x y, [y]) := by
  have hsame : { y with mirror := false } = y := by rw [← hy]
  have hnext := nextShot_single hq hm hv hc
  simp only [fillFrame, List.map_nil, List.sum_nil, List.length_nil, hnext, List.nil_append, hsame]

/-- A shot that leaves a queue of its own is taken from there, and no other queue changes. -/
theorem takeShot_single {x : LPort} {y : Shot} (hq : x.outq = [y]) (hy : y.mirror = false) :
    (takeShot x y).outq = [] ∧ (takeShot x y).mirrorq = x.mirrorq ∧ (takeShot x y).resend = x.resend := by
  unfold takeShot
  simp only [hy, hq, Bool.false_eq_true, if_false]
  split <;> simp

/-! ## The port sends -/

/-- A port with nothing to send sends nothing. -/
theorem pumpPort_quiet {s : State} {p : Nat} (h : Quiet s p) (fuel : Nat) : pumpPort s p fuel = s := by
  obtain ⟨hq, hm, hr⟩ := h
  cases fuel with
  | zero => rfl
  | succ fuel =>
    unfold pumpPort
    split
    · rfl
    · simp [hr, hq, hm, fillFrame]

/-- A port that no link of takes frames sends nothing. -/
theorem pumpPort_blocked {s : State} {p : Nat} (h : nextLink s p = none) (fuel : Nat) : pumpPort s p fuel = s := by
  cases fuel with
  | zero => rfl
  | succ fuel => simp [pumpPort, h]

/-- A frame that is sent takes the credits that its port owes; otherwise it is an output alone. -/
theorem sendFrame_spec {s : State} (n kind fseq bseq : Nat) (shots : List Shot) (hpower : s.power.st ≠ .drawn) :
    ∃ f o, sendFrame s n kind fseq bseq shots = emit (modLPort s (portOf n) (fun x => { x with owed := o })) (.frame n f) := by
  simp only [sendFrame, takeCredits, if_neg hpower]
  exact ⟨_, (getLPort s (portOf n)).owed.map (fun e => (e.1, e.2 - min 4095 e.2)), rfl⟩

/-- A link that keeps one more frame for replay (R265). -/
def Link.keeping (l : Link) (bseq : Nat) (shots : List Shot) : Link :=
  { l with txFseq := (l.txFseq + 1) % 4096, kept := l.kept ++ [{ fseq := l.txFseq, bseq := bseq, shots := shots }] }

/-- A port whose one waiting shot has gone into a frame. -/
def LPort.framed (x : LPort) (y : Shot) : LPort := { takeShot x y with txBseq := (x.txBseq + 1) % 4096 }

/-- A frame that is placed on a link of its port is kept for replay and sent; beside the link and the port only the telemetry differs. -/
theorem placeFrame_spec {s : State} {p n : Nat} (bseq : Nat) (shots : List Shot) (hn : portOf n = p) (hpower : s.power.st ≠ .drawn) :
    ∃ f c o t, placeFrame s p n bseq shots = emit { modLPort (setLink s n ((getLink s n).keeping bseq shots)) p
      (fun x => { x with cursor := c, owed := o }) with tel := t } (.frame n f) := by
  unfold placeFrame
  extract_lets l u v w
  have hadd := (recorded_phaseAdd w 1 shots.length).eq
  obtain ⟨f, o, hsend⟩ := sendFrame_spec (s := phaseAdd w 1 shots.length) n 0 l.txFseq bseq shots (by rw [hadd]; exact hpower)
  refine ⟨f, linkIndex n, o, (phaseAdd w 1 shots.length).tel, ?_⟩
  rw [hsend, hn, hadd]
  have hports := modLPort_modLPort u p (fun x => { x with cursor := linkIndex n }) (fun x => { x with owed := o })
  exact congrArg (fun y : State => emit { y with tel := (phaseAdd w 1 shots.length).tel } (.frame n f)) hports

/-- Memory, the cores, the port and the held shots are as they were, and the router keeps its old epoch or has none. -/
structure Routed (p : Nat) (s t : State) : Prop where
  mem : t.mem = s.mem
  cores : t.cores = s.cores
  port : getLPort t p = getLPort s p
  held : t.route.heldShots = s.route.heldShots
  old : t.route.old = s.route.old

theorem Routed.trans {p : Nat} {s t u : State} (h : Routed p s t) (k : Routed p t u) : Routed p s u :=
  ⟨k.mem.trans h.mem, k.cores.trans h.cores, k.port.trans h.port, k.held.trans h.held, k.old.trans h.old⟩

/-- With a link, a credit and room in the bundle's order, the one waiting shot of a port leaves in a frame of its own (R263, R264). -/
theorem pumpOut_single {s : State} {p n : Nat} {y : Shot} (hnext : nextLink s p = some n) (hq : (getLPort s p).outq = [y])
    (hm : (getLPort s p).mirrorq = []) (hr : (getLPort s p).resend = []) (hv : y.vl < 4) (hy : y.mirror = false)
    (hc : lookD 0 (getLPort s p).used y.vl < laneBuffers p) (hspan : bseqSpan s p < 1024) (hpower : s.power.st ≠ .drawn) :
    ∃ f, (∀ q, q ≠ p → Routed q s (pumpOut s p)) ∧ (getLPort (pumpOut s p) p).outq = [] ∧ (pumpOut s p).out = .frame n f :: s.out
      ∧ getLink (pumpOut s p) n = (getLink s n).keeping (getLPort s p).txBseq [y] := by
  obtain ⟨hmem, -⟩ := nextLink_spec hnext
  have hp : p < 10 := by
    by_contra hp
    have hcount : linkCount p = 0 := List.getD_eq_default _ _ (by simpa using hp)
    simp [portLinks, hcount] at hmem
  obtain ⟨f, c, o, t, hplace⟩ := placeFrame_spec (s := setLPort s p ((getLPort s p).framed y)) (getLPort s p).txBseq [y]
    (portOf_of_mem_portLinks p hp n hmem) hpower
  have hport : modLPort (setLink (setLPort s p ((getLPort s p).framed y)) n ((getLink s n).keeping (getLPort s p).txBseq [y])) p
        (fun x => { x with cursor := c, owed := o })
      = setLPort (setLink s n ((getLink s n).keeping (getLPort s p).txBseq [y])) p
          { (getLPort s p).framed y with cursor := c, owed := o } := by
    simp only [modLPort, setLPort, setLink, getLPort, tget_tput_same, tput_tput]
  obtain ⟨htq, htm, htr⟩ := takeShot_single hq hy
  have hsent : placeFrame (setLPort s p ((getLPort s p).framed y)) p n (getLPort s p).txBseq [y]
      = emit { setLPort (setLink s n ((getLink s n).keeping (getLPort s p).txBseq [y])) p
          { (getLPort s p).framed y with cursor := c, owed := o } with tel := t } (.frame n f) :=
    hplace.trans (congrArg (fun z : State => emit { z with tel := t } (.frame n f)) hport)
  have hquiet : Quiet (placeFrame (setLPort s p ((getLPort s p).framed y)) p n (getLPort s p).txBseq [y]) p := by
    have hget : getLPort (placeFrame (setLPort s p ((getLPort s p).framed y)) p n (getLPort s p).txBseq [y]) p
        = { (getLPort s p).framed y with cursor := c, owed := o } := by
      rw [hsent]
      exact getLPort_setLPort _ _ _
    rw [Quiet, hget]
    exact ⟨htq, htm.trans hm, htr.trans hr⟩
  have hfill := fillFrame_single hq hm hv hc hy
  have hpump : pumpOut s p = pumpPort (placeFrame (setLPort s p ((getLPort s p).framed y)) p n (getLPort s p).txBseq [y]) p 1 := by
    have hstop : ¬([y] = [] ∨ 1024 ≤ bseqSpan s p ∨ s.power.st = .drawn) := by simp [hspan, hpower]
    simp only [pumpOut, hq, hm, hr, List.length_singleton, List.length_nil, Nat.add_zero]
    rw [pumpPort]
    simp only [hnext, hr, hq, hm, List.length_singleton, List.length_nil, Nat.add_zero, hfill, if_neg hstop]
    rfl
  rw [hpump, pumpPort_quiet hquiet, hsent]
  refine ⟨f, fun q hne => ⟨rfl, rfl, getLPort_setLPort_ne (setLink s n _) hne _, rfl, rfl⟩, ?_, rfl, getLink_setLink s n _⟩
  exact (congrArg LPort.outq (getLPort_setLPort (setLink s n _) p _)).trans htq

end Sys2Proof.Machine
end

section
/-! The router (R26, R283 to R289): where the oldest shot of a lane goes, and what that leaves as it was. -/

namespace Sys2Proof.Machine

open Sys2Proof.Claims

/-! ## A shot leaves its input buffer -/

/-- The shot has left the input buffer of its port, and the router has counted it. -/
def shotGone (s : State) (p : Nat) (x : Shot) : State :=
  modLPort { s with route := { s.route with holds := s.route.holds + 1 } } p (fun q => { q with inbuf := q.inbuf.erase x })

/-- The input buffer has passed the shot on; memory and the cores are as they were. -/
def LeftBuffer (s t : State) (p : Nat) (x : Shot) : Prop :=
  (getLPort t p).inbuf = (getLPort s p).inbuf.erase x ∧ t.mem = s.mem ∧ t.cores = s.cores

/-- It has, and owes its lane's credit. -/
def TookShot (s t : State) (p : Nat) (x : Shot) : Prop :=
  LeftBuffer s t p x ∧ lookD 0 (getLPort t p).owed x.vl = lookD 0 (getLPort s p).owed x.vl + 1

theorem getLPort_shotGone (s : State) (p : Nat) (x : Shot) :
    getLPort (shotGone s p x) p = { getLPort s p with inbuf := (getLPort s p).inbuf.erase x } := getLPort_modLPort _ _ _

theorem getLPort_shotGone_ne (s : State) {p o : Nat} (h : o ≠ p) (x : Shot) : getLPort (shotGone s p x) o = getLPort s o :=
  getLPort_modLPort_ne _ h _

/-- SHOT_FORWARD carries the oldest shot that may leave to its hop. -/
theorem exec_shotForward {s : State} {p : Nat} {x : Shot} (hoff : s.boot.off = false) (hdown : s.boot.shutdown = false)
    (hfind : (headsOf s p).find? (mayLeave s p) = some x) : exec (.shotForward p) s = .next (settleOld (freeBuffer
      (doHop (shotGone s p x) p (s.route.holds + 1) x (hopOf s p x)) p x.vl (s.route.holds + 1))) := by
  change execShotForward p s = _
  simp only [execShotForward, hfind, hoff, hdown, Bool.or_self, Bool.false_eq_true, if_false, shotGone]

/-- Without an old epoch nothing is left to drain. -/
theorem settleOld_none {s : State} (h : s.route.old = none) : settleOld s = s := by simp [settleOld, h]

theorem oweCredit_port {p : Nat} (hp : p < 10) (s : State) (v : Nat) :
    oweCredit s p v = modLPort s p (fun x => { x with owed := addLane x.owed v 1 }) := if_pos hp

/-- While a copy of it is held, a shot keeps its credit. -/
theorem settleOld_freeBuffer_held {s : State} {p v : Nat} {h : Held} (hold : s.route.old = none) (hmem : h ∈ s.route.heldShots)
    {key : Nat} (hkey : h.key = key) : settleOld (freeBuffer s p v key) = s := by
  have hany : s.route.heldShots.any (fun y => y.key = key) = true := List.any_eq_true.2 ⟨h, hmem, by simp [hkey]⟩
  rw [freeBuffer, if_pos hany, settleOld_none hold]

/-! ## A shot for this module (R26) -/

/-- The return table takes what an OPEN says; nothing else differs. -/
theorem noteOpen_spec (s : State) (core : Nat) (x : Shot) :
    ∃ a b, noteOpen s core x = { s with route := { s.route with ret := a, nacked := b } } := by
  unfold noteOpen
  split
  · exact ⟨_, _, rfl⟩
  · exact ⟨s.route.ret, s.route.nacked, rfl⟩

theorem foldl_noteOpen_spec (x : Shot) (ls : List Nat) (s : State) :
    ∃ a b, ls.foldl (fun s l => noteOpen s l x) s = { s with route := { s.route with ret := a, nacked := b } } := by
  induction ls generalizing s with
  | nil => exact ⟨s.route.ret, s.route.nacked, rfl⟩
  | cons l r ih =>
    obtain ⟨a, b, hnote⟩ := noteOpen_spec s l x
    obtain ⟨a', b', hrest⟩ := ih (noteOpen s l x)
    rw [List.foldl_cons, hrest, hnote]
    exact ⟨a', b', rfl⟩

/-- A shot for a core that takes shots reaches it. -/
theorem deliver_reaches {s : State} {port lane key core : Nat} {x : Shot} (hgone : coreGone s core = false)
    (hheld : coreHeld s core = false) : deliver s port lane key core x = emit s (.local_ { x with core := core }) := by
  simp [deliver, hgone, toCore, hheld]

/-- A shot for a core that is held waits with its credit. -/
theorem deliver_waits {s : State} {port lane key core : Nat} {x : Shot} (hgone : coreGone s core = false)
    (hheld : coreHeld s core = true) : deliver s port lane key core x = { s with route := { s.route with
      heldShots := s.route.heldShots ++ [{ shot := { x with core := core }, port := port, lane := lane, key := key }] } } := by
  simp [deliver, hgone, toCore, hheld]

/-- Its copies reach every core of a tree, in order. -/
theorem foldl_deliver_reaches (port lane key : Nat) (x : Shot) (ls : List Nat) (s : State)
    (h : ∀ l ∈ ls, coreGone s l = false ∧ coreHeld s l = false) : ls.foldl (fun s l => deliver s port lane key l x) s
      = { s with out := (ls.map (fun l => Output.local_ { x with core := l })).reverse ++ s.out } := by
  induction ls generalizing s with
  | nil => rfl
  | cons l r ih =>
    obtain ⟨⟨hgone, hheld⟩, hr⟩ := List.forall_mem_cons.1 h
    have hrest := ih (emit s (.local_ { x with core := l })) hr
    rw [List.foldl_cons, deliver_reaches hgone hheld, hrest]
    simp [emit]

/-- A negative acknowledgement of the hub itself goes into the hub through die port 10. -/
theorem sendNack_hub (s : State) (status flow seq mover byCore toCoord core : Nat) :
    ∃ q, sendNack s status flow seq mover byCore toCoord core 2 = setLPort s 10 q := by
  have hdie : dieOf core ≠ 2 := by unfold dieOf; split <;> omega
  simp only [sendNack, hdie, and_false, if_false]
  exact ⟨_, rfl⟩

/-- A shot that no core takes leaves at most its mark and one acknowledgement at the hub. -/
theorem fencedDrop_spec (s : State) (core : Nat) (x : Shot) :
    fencedDrop s core x = s ∨ ∃ n q, fencedDrop s core x = setLPort { s with route := { s.route with nacked := n } } 10 q := by
  unfold fencedDrop
  dsimp only
  split
  · split
    · exact .inl rfl
    · obtain ⟨q, hq⟩ := sendNack_hub { s with route := { s.route with nacked := (1024 * core + x.flow) :: s.route.nacked } }
        Status.shotFencedDrop x.flow x.seq _ 127 _ _
      exact .inr ⟨_, q, hq⟩
  · exact .inl rfl

/-! ## A shot for another module (R283 to R285) -/

/-- A port that a unicast shot leaves by takes it. -/
theorem portTakes_of_unicastHop {s : State} {p o : Nat} {x : Shot} (h : unicastHop s p x = .out o) : portTakes s o = true := by
  unfold unicastHop at h
  split at h
  · cases h
  · split at h
    · cases h
    · split at h
      case h_1 => cases h
      case h_2 =>
        extract_lets q at h
        split at h
        · cases h
        · split at h
          case isTrue htakes =>
            rw [← Hop.out.inj h]
            exact (Bool.and_eq_true_iff.1 htakes).1
          case isFalse => cases h
      case h_3 => cases h

theorem portTakes_of_hopOf {s : State} {p o : Nat} {x : Shot} (hm : x.mcast = false) (h : hopOf s p x = .out o) :
    portTakes s o = true := by
  rw [hopOf, hm] at h
  split at h
  · cases h
  · exact portTakes_of_unicastHop h

/-- A unicast shot's lane at its port has a credit for one more shot. -/
theorem laneFree_of_mayLeave {s : State} {p o : Nat} {x : Shot} (hr : x.replay = false) (hm : x.mirror = false)
    (hop : hopOf s p x = .out o) (h : mayLeave s p x = true) : laneFree s o (laneOf s p o x) = true := by
  simp only [mayLeave, hop, hr, hm, Bool.false_or, Bool.and_eq_true] at h
  exact h.1

theorem laneOf_lt {s : State} {p o : Nat} {x : Shot} (h : x.vl < 4) : laneOf s p o x < 4 := by
  have hbase : (if isControl x = true then 2 else 0) ≤ 2 := by split <;> omega
  unfold laneOf
  dsimp only
  split
  · omega
  · split <;> omega

/-- The port of a shot takes it, on the lane of R285, behind those that wait. -/
theorem doHop_out {s : State} {p o : Nat} {x : Shot} (hold : s.route.old = none) (hop : hopOf s p x = .out o) (hne : o ≠ p)
    (hreplay : x.replay = false) (hmcast : x.mcast = false) (hmirror : x.mirror = false) (key : Nat) :
    ∃ t, doHop (shotGone s p x) p key x (.out o) = pumpOut (setLPort (shotGone s p x) o
      { getLPort s o with outq := (getLPort s o).outq ++ [{ x with vl := laneOf s p o x }], lastIn := t }) o := by
  have htakes : portTakes (shotGone s p x) o = true := by
    have h := portTakes_of_hopOf hmcast hop
    rwa [portTakes, ← getLPort_shotGone_ne s hne x] at h
  have hallowed : oldAllowed (shotGone s p x) o x.epoch = true := by
    have h : (shotGone s p x).route.old = none := hold
    rw [oldAllowed, h]
  refine ⟨tput (getLPort s o).lastIn (laneOf s p o x) p, ?_⟩
  simp only [doHop, leaves, hreplay, forwardOn, htakes, hallowed, hmirror]
  rw [modLPort, getLPort_shotGone_ne s hne x]
  rfl

/-- With a link that takes frames and a credit, the port's one shot leaves in a frame. -/
theorem pumpOut_out {s : State} {p o n : Nat} {x y : Shot} (t : List (Nat × Nat)) (hne : o ≠ p) (hq : Quiet s o)
    (hnext : nextLink s o = some n) (hv : y.vl < 4) (hy : y.mirror = false) (hfree : laneFree s o y.vl = true) (hspan : bseqSpan s o < 1024)
    (hpower : s.power.st ≠ .drawn) :
    let v := pumpOut (setLPort (shotGone s p x) o { getLPort s o with outq := (getLPort s o).outq ++ [y], lastIn := t }) o
    ∃ f, Routed p (shotGone s p x) v ∧ (getLPort v o).outq = [] ∧ v.out = .frame n f :: s.out
      ∧ (getLink v n).kept = (getLink s n).kept ++ [{ fseq := (getLink s n).txFseq, bseq := (getLPort s o).txBseq, shots := [y] }] := by
  obtain ⟨houtq, hmirrorq, hresend⟩ := hq
  have hcredit : lookD 0 (getLPort s o).used y.vl < laneBuffers o := by simpa [laneFree, houtq] using hfree
  generalize hu : setLPort (shotGone s p x) o { getLPort s o with outq := (getLPort s o).outq ++ [y], lastIn := t } = u
  have hrouted : Routed p (shotGone s p x) u := by
    rw [← hu]
    exact ⟨rfl, rfl, getLPort_setLPort_ne _ hne.symm _, rfl, rfl⟩
  have hport : getLPort u o = { getLPort s o with outq := (getLPort s o).outq ++ [y], lastIn := t } := hu ▸ getLPort_setLPort _ _ _
  have hlink : ∀ k, getLink u k = getLink s k := by
    rw [← hu]
    exact fun k => rfl
  have hsame : u.power = s.power ∧ u.out = s.out := by
    rw [← hu]
    exact ⟨rfl, rfl⟩
  obtain ⟨hpw, hout⟩ := hsame
  have hnext' : nextLink u o = some n := by
    rw [← hnext]
    simp only [nextLink, hport, hlink]
  have hspan' : bseqSpan u o < 1024 := by simpa only [bseqSpan, hport, hlink] using hspan
  obtain ⟨f, hbeside, hempty, hsent, hkept⟩ := pumpOut_single (y := y) hnext' (by rw [hport, houtq]; rfl) (by rw [hport, hmirrorq])
    (by rw [hport, hresend]) hv hy (by rw [hport]; exact hcredit) hspan' (by rw [hpw]; exact hpower)
  refine ⟨f, hrouted.trans (hbeside p hne.symm), hempty, hsent.trans (by rw [hout]), ?_⟩
  rw [hkept, hport, hlink]
  rfl

/-! ## Discards (R287) -/

/-- A discard of anything but an OPEN is counted by its reason, and leaves at most a record. -/
theorem discardShot_spec {s : State} {x : Shot} (p reason status : Nat) (htype : x.typ ≠ 0) :
    (∃ t w, discardShot s p x reason status = { s with tel := t, route := { s.route with windows := w } })
      ∧ counterOf (discardShot s p x reason status) 0 (5 + reason) = (counterOf s 0 (5 + reason)).addN 1 := by
  have hbump := counterOf_bump_same s (set := 0) (i := 5 + reason) 1 (by omega)
  have hno : ¬(x.typ = 0 ∧ reason ≠ 2) := fun h => htype h.1
  unfold discardShot
  dsimp only
  rw [if_neg hno]
  split
  · exact ⟨⟨(bump s 0 (5 + reason) 1).tel, s.route.windows, rfl⟩, hbump⟩
  · refine ⟨⟨_, (reason, s.time) :: s.route.windows.filter (fun w => w.1 ≠ reason), (recorded_raiseEv _ _ _ _ _ _ _).eq⟩, ?_⟩
    rw [counterOf_raiseEv _ _ _ _ _ _ _ (by omega) (by omega)]
    exact hbump

/-! ## The oldest shot that may leave -/

section
variable {s : State} {p : Nat} {x : Shot} (hp : p < 10) (hoff : s.boot.off = false) (hdown : s.boot.shutdown = false)
  (hold : s.route.old = none) (hfind : (headsOf s p).find? (mayLeave s p) = some x)
  (hkey : ∀ h ∈ s.route.heldShots, h.key ≠ s.route.holds + 1)

include hp hoff hdown hold hfind hkey

/-- A shot that no core holds goes where its hop says, and its credit is owed. -/
theorem exec_shotForward_took {u : State} (hu : doHop (shotGone s p x) p (s.route.holds + 1) x (hopOf s p x) = u)
    (h : Routed p (shotGone s p x) u) :
    exec (.shotForward p) s = .next (oweCredit u p x.vl) ∧ TookShot s (oweCredit u p x.vl) p x := by
  have hnone : ¬u.route.heldShots.any (fun y => y.key = s.route.holds + 1) = true := by
    have hheld : u.route.heldShots = s.route.heldShots := h.held
    simpa [hheld] using hkey
  have hport := h.port.trans (getLPort_shotGone s p x)
  rw [exec_shotForward hoff hdown hfind, hu, freeBuffer, if_neg hnone, oweCredit_port hp]
  refine ⟨congrArg _ (settleOld_none (h.old.trans hold)), ⟨?_, h.mem, h.cores⟩, ?_⟩
  · rw [getLPort_modLPort, hport]
  · rw [getLPort_modLPort, hport]
    exact tget_tput_same _ _ _ _

/-- So it is sent on with what the hop puts out. -/
theorem exec_shotForward_out {u : State} {os : List Output}
    (hu : doHop (shotGone s p x) p (s.route.holds + 1) x (hopOf s p x) = u) (h : Routed p (shotGone s p x) u) (hout : u.out = os) :
    ∃ t, exec (.shotForward p) s = .next t ∧ TookShot s t p x ∧ t.out = os := by
  obtain ⟨hexec, hshot⟩ := exec_shotForward_took hp hoff hdown hold hfind hkey hu h
  refine ⟨_, hexec, hshot, ?_⟩
  rw [oweCredit_port hp]
  exact hout

theorem shotForward_afiup (hdie : hopOf s p x = .toDie) (htype : x.typ = 9) :
    ∃ t, exec (.shotForward p) s = .next t ∧ TookShot s t p x ∧ t.out = .local_ x :: s.out := by
  refine exec_shotForward_out hp hoff hdown hold hfind hkey (u := emit (shotGone s p x) (.local_ x)) ?_ ⟨rfl, rfl, rfl, rfl, rfl⟩ rfl
  simp only [hdie, doHop, deliverHere, htype, if_true]

theorem shotForward_core (hdie : hopOf s p x = .toDie) (htype : x.typ ≠ 9) (hgone : coreGone s x.core = false)
    (hheld : coreHeld s x.core = false) : ∃ t, exec (.shotForward p) s = .next t ∧ TookShot s t p x ∧ t.out = .local_ x :: s.out := by
  obtain ⟨a, b, hnote⟩ := noteOpen_spec (shotGone s p x) x.core x
  refine exec_shotForward_out hp hoff hdown hold hfind hkey (u := emit (noteOpen (shotGone s p x) x.core x) (.local_ x)) ?_ ?_ ?_
  · rw [hdie, doHop, deliverHere, if_neg htype, hnote]
    exact deliver_reaches hgone hheld
  · rw [hnote]
    exact ⟨rfl, rfl, rfl, rfl, rfl⟩
  · rw [hnote]
    rfl

omit hp hkey in
theorem shotForward_held (hdie : hopOf s p x = .toDie) (htype : x.typ ≠ 9) (hgone : coreGone s x.core = false)
    (hheld : coreHeld s x.core = true) : ∃ t, exec (.shotForward p) s = .next t ∧ LeftBuffer s t p x
      ∧ (getLPort t p).owed = (getLPort s p).owed ∧ t.out = s.out
      ∧ t.route.heldShots = s.route.heldShots ++ [{ shot := x, port := p, lane := x.vl, key := s.route.holds + 1 }] := by
  obtain ⟨a, b, hnote⟩ := noteOpen_spec (shotGone s p x) x.core x
  have hdo : doHop (shotGone s p x) p (s.route.holds + 1) x (hopOf s p x)
      = deliver (noteOpen (shotGone s p x) x.core x) p x.vl (s.route.holds + 1) x.core x := by
    rw [hdie, doHop, deliverHere, if_neg htype]
  have hwaits := deliver_waits (s := noteOpen (shotGone s p x) x.core x) (port := p) (lane := x.vl) (key := s.route.holds + 1) (x := x)
    (by rw [hnote]; exact hgone) (by rw [hnote]; exact hheld)
  have hstays := settleOld_freeBuffer_held (s := deliver (noteOpen (shotGone s p x) x.core x) p x.vl (s.route.holds + 1) x.core x) (p := p)
    (v := x.vl) (h := { shot := x, port := p, lane := x.vl, key := s.route.holds + 1 }) (key := s.route.holds + 1)
    (by rw [hwaits, hnote]; exact hold) (by rw [hwaits]; exact List.mem_append_right _ List.mem_cons_self) rfl
  have hinbuf : (getLPort (shotGone s p x) p).inbuf = (getLPort s p).inbuf.erase x := by rw [getLPort_shotGone]
  have howed : (getLPort (shotGone s p x) p).owed = (getLPort s p).owed := by rw [getLPort_shotGone]
  rw [exec_shotForward hoff hdown hfind, hdo, hstays, hwaits, hnote]
  exact ⟨_, rfl, ⟨hinbuf, rfl, rfl⟩, howed, rfl, rfl⟩

theorem shotForward_dropped (hdie : hopOf s p x = .toDie) (htype : x.typ ≠ 9) (hgone : coreGone s x.core = true) :
    ∃ t, exec (.shotForward p) s = .next t ∧ TookShot s t p x ∧ t.out = s.out := by
  obtain ⟨a, b, hnote⟩ := noteOpen_spec (shotGone s p x) x.core x
  have hdo : doHop (shotGone s p x) p (s.route.holds + 1) x (hopOf s p x) = fencedDrop (noteOpen (shotGone s p x) x.core x) x.core x := by
    rw [hdie, doHop, deliverHere, if_neg htype, deliver, hnote]
    exact if_pos hgone
  refine exec_shotForward_out hp hoff hdown hold hfind hkey hdo ?_ ?_
  · rcases fencedDrop_spec (noteOpen (shotGone s p x) x.core x) x.core x with h | ⟨n, q, h⟩
    · rw [h, hnote]
      exact ⟨rfl, rfl, rfl, rfl, rfl⟩
    · rw [h, hnote]
      exact ⟨rfl, rfl, getLPort_setLPort_ne _ (by omega) _, rfl, rfl⟩
  · rcases fencedDrop_spec (noteOpen (shotGone s p x) x.core x) x.core x with h | ⟨n, q, h⟩
    · rw [h, hnote]
      rfl
    · rw [h, hnote]
      rfl

theorem shotForward_copies {ls : List Nat} (hcopies : hopOf s p x = .copies [] ls)
    (htake : ∀ l ∈ ls, coreGone s l = false ∧ coreHeld s l = false) : ∃ t, exec (.shotForward p) s = .next t ∧ TookShot s t p x
      ∧ t.out = (ls.map (fun l => Output.local_ { x with core := l })).reverse ++ s.out := by
  obtain ⟨a, b, hnote⟩ := foldl_noteOpen_spec x ls (shotGone s p x)
  have hdo := foldl_deliver_reaches p x.vl (s.route.holds + 1) x ls (ls.foldl (fun s l => noteOpen s l x) (shotGone s p x))
    (by rw [hnote]; exact htake)
  refine exec_shotForward_out hp hoff hdown hold hfind hkey ((congrArg (doHop _ p _ x) hcopies).trans hdo) ?_ ?_
  · rw [hnote]
    exact ⟨rfl, rfl, rfl, rfl, rfl⟩
  · rw [hnote]
    rfl

theorem shotForward_discarded {reason st : Nat} (hdiscard : hopOf s p x = .discard reason st) (hreplay : x.replay = false)
    (htype : x.typ ≠ 0) : ∃ t, exec (.shotForward p) s = .next t ∧ TookShot s t p x ∧ t.out = s.out
      ∧ counterOf t 0 (5 + reason) = (counterOf s 0 (5 + reason)).addN 1 := by
  obtain ⟨⟨t, w, hdrop⟩, hcount⟩ := discardShot_spec (s := shotGone s p x) p reason st htype
  have hdo : doHop (shotGone s p x) p (s.route.holds + 1) x (hopOf s p x) = discardShot (shotGone s p x) p x reason st := by
    simp [hdiscard, doHop, hreplay]
  obtain ⟨hexec, hshot⟩ := exec_shotForward_took hp hoff hdown hold hfind hkey hdo (by rw [hdrop]; exact ⟨rfl, rfl, rfl, rfl, rfl⟩)
  rw [oweCredit_port hp] at hexec hshot
  refine ⟨_, hexec, hshot, ?_, hcount⟩
  rw [hdrop]
  rfl

theorem shotForward_waits {o : Nat} (hop : hopOf s p x = .out o) (hne : o ≠ p) (hreplay : x.replay = false) (hmcast : x.mcast = false)
    (hmirror : x.mirror = false) (hnext : nextLink s o = none) : ∃ t, exec (.shotForward p) s = .next t ∧ TookShot s t p x
      ∧ (getLPort t o).outq = (getLPort s o).outq ++ [{ x with vl := laneOf s p o x }] ∧ t.out = s.out := by
  obtain ⟨t, hdo⟩ := doHop_out hold hop hne hreplay hmcast hmirror (s.route.holds + 1)
  have hblocked : nextLink (setLPort (shotGone s p x) o
      { getLPort s o with outq := (getLPort s o).outq ++ [{ x with vl := laneOf s p o x }], lastIn := t }) o = none := by
    rw [← hnext]
    simp only [nextLink, getLPort_setLPort]
    rfl
  rw [pumpOut, pumpPort_blocked hblocked] at hdo
  obtain ⟨hexec, hshot⟩ := exec_shotForward_took hp hoff hdown hold hfind hkey ((congrArg (doHop _ p _ x) hop).trans hdo)
    ⟨rfl, rfl, getLPort_setLPort_ne _ hne.symm _, rfl, rfl⟩
  rw [oweCredit_port hp] at hexec hshot
  refine ⟨_, hexec, hshot, ?_, rfl⟩
  rw [getLPort_modLPort_ne _ hne, getLPort_setLPort]

theorem shotForward_sends {o n : Nat} (hop : hopOf s p x = .out o) (hne : o ≠ p) (hreplay : x.replay = false) (hmcast : x.mcast = false)
    (hmirror : x.mirror = false) (hvl : x.vl < 4) (hnext : nextLink s o = some n) (hquiet : Quiet s o) (hspan : bseqSpan s o < 1024)
    (hpower : s.power.st ≠ .drawn) : ∃ t f, exec (.shotForward p) s = .next t ∧ TookShot s t p x ∧ (getLPort t o).outq = []
      ∧ t.out = .frame n f :: s.out ∧ (getLink t n).kept = (getLink s n).kept
        ++ [{ fseq := (getLink s n).txFseq, bseq := (getLPort s o).txBseq, shots := [{ x with vl := laneOf s p o x }] }] := by
  obtain ⟨t, hdo⟩ := doHop_out hold hop hne hreplay hmcast hmirror (s.route.holds + 1)
  have hfree := laneFree_of_mayLeave hreplay hmirror hop (List.find?_some hfind)
  obtain ⟨f, hrouted, houtq, hout, hkept⟩ := pumpOut_out (p := p) (x := x) (y := { x with vl := laneOf s p o x }) t hne hquiet hnext
    (laneOf_lt hvl) hmirror hfree hspan hpower
  rw [← hdo] at hrouted houtq hout hkept
  obtain ⟨hexec, hshot⟩ := exec_shotForward_took hp hoff hdown hold hfind hkey (congrArg (doHop _ p _ x) hop) hrouted
  rw [oweCredit_port hp] at hexec hshot
  refine ⟨_, f, hexec, hshot, ?_, hout, hkept⟩
  rw [getLPort_modLPort_ne _ hne, houtq]

end

end Sys2Proof.Machine

open Sys2Proof.Machine in
/-- Settles O40: one lemma for each kind of hop, of the oldest shot that may leave its buffer. -/
theorem routerMovesTheOldestShot : Obligations.RouterMovesTheOldestShot := by
  intro s p x hp hoff hdown hold hfind hkey left took
  refine ⟨fun hdie => ⟨fun htype => ?_, fun htype hgone hheld => ?_, fun htype hgone hheld => ?_, fun htype hgone => ?_⟩,
    fun o hout hne hreplay hmcast hmirror hvl => ⟨fun hnext => ?_, fun n hnext hquiet hspan hpower => ?_⟩,
    fun ls hcopies htake => ?_, fun reason st hdiscard hreplay htype => ?_⟩
  · exact shotForward_afiup hp hoff hdown hold hfind hkey hdie htype
  · exact shotForward_core hp hoff hdown hold hfind hkey hdie htype hgone hheld
  · exact shotForward_held hoff hdown hold hfind hdie htype hgone hheld
  · exact shotForward_dropped hp hoff hdown hold hfind hkey hdie htype hgone
  · exact shotForward_waits hp hoff hdown hold hfind hkey hout hne hreplay hmcast hmirror hnext
  · exact shotForward_sends hp hoff hdown hold hfind hkey hout hne hreplay hmcast hmirror hvl hnext hquiet hspan hpower
  · exact shotForward_copies hp hoff hdown hold hfind hkey hcopies htake
  · exact shotForward_discarded hp hoff hdown hold hfind hkey hdiscard hreplay htype

end

section
/-! Arriving shots (R190 to R192, R198, R255 to R259): what opens a flow, what writes its lines, and what refuses a shot. -/

namespace Sys2Proof.Machine

open Sys2Proof.Claims

/-! ## What stays -/

/-- The contexts, the cores, memory, the map, the links and the ports are as before. -/
structure SparesPorts (s t : State) : Prop extends SparesLinks s t where
  lports : t.lports = s.lports

theorem SparesPorts.refl (s : State) : SparesPorts s s := ⟨.refl s, rfl⟩

theorem SparesPorts.trans {s t u : State} (h : SparesPorts s t) (k : SparesPorts t u) : SparesPorts s u :=
  ⟨h.toSparesLinks.trans k.toSparesLinks, k.lports.trans h.lports⟩

theorem Recorded.sparesPorts {s t : State} (h : Recorded s t) : SparesPorts s t := by
  rw [h.eq]
  exact ⟨⟨⟨rfl, rfl, rfl, rfl⟩, rfl⟩, rfl⟩

theorem SparesPorts.getCore {s t : State} (h : SparesPorts s t) (l : Nat) : getCore t l = getCore s l := by
  rw [Machine.getCore, h.cores]
  rfl

theorem SparesPorts.onlyCore {s t : State} (h : SparesPorts s t) (l : Nat) : OnlyCore s t l :=
  ⟨fun k _ => h.getCore k, h.mem, h.ctxs, h.links, h.lports⟩

theorem onlyCore_refl (s : State) (l : Nat) : OnlyCore s s l := (SparesPorts.refl s).onlyCore l

theorem onlyCore_trans {s t u : State} {l : Nat} (h : OnlyCore s t l) (k : OnlyCore t u l) : OnlyCore s u l := by
  obtain ⟨hcores, hmem, hctxs, hlinks, hlports⟩ := h
  obtain ⟨kcores, kmem, kctxs, klinks, klports⟩ := k
  exact ⟨fun m hm => (kcores m hm).trans (hcores m hm), kmem.trans hmem, kctxs.trans hctxs, klinks.trans hlinks, klports.trans hlports⟩

theorem onlyCore_modCore (s : State) (l : Nat) (f : Core → Core) : OnlyCore s (modCore s l f) l :=
  ⟨fun _ hk => getCore_modCore_ne s hk f, rfl, rfl, rfl, rfl⟩

theorem ScratchWritten.onlyCore {s t : State} {l a : Nat} {d : List Byte} (h : ScratchWritten s t l a d) : OnlyCore s t l := by
  have hmem := congrArg State.mem h.frame
  have hctxs := congrArg State.ctxs h.frame
  have hlinks := congrArg State.links h.frame
  have hlports := congrArg State.lports h.frame
  exact ⟨h.others, hmem, hctxs, hlinks, hlports⟩

/-! ## The journal (R400) -/

theorem sparesPorts_modJournal (s : State) (f : JEntry → JEntry) : SparesPorts s (modJournal s f) := by
  unfold modJournal
  split
  · split
    · exact ⟨⟨⟨rfl, rfl, rfl, rfl⟩, rfl⟩, rfl⟩
    · exact .refl s
  · exact .refl s

theorem sparesPorts_takeRoom (s : State) (n : Nat) (f : JEntry → JEntry) : SparesPorts s (takeRoom s n f) := by
  unfold takeRoom
  split
  · split
    · exact .refl s
    · split
      · exact sparesPorts_modJournal s _
      · exact (sparesPorts_modJournal s _).trans (recorded_raiseEv _ _ _ _ _ _ _).sparesPorts
  · exact .refl s

theorem sparesPorts_journalShot (s : State) (own : Nat) (sh : Shot) : SparesPorts s (journalShot s own sh) := by
  unfold journalShot
  extract_lets p up u
  have hu : SparesPorts s u := sparesPorts_modJournal s _
  split
  · exact hu.trans (sparesPorts_takeRoom u _ _)
  · exact hu

theorem sparesPorts_journalOpen (s : State) (peer peerCore own : Nat) (sh : Shot) (shots : Nat) :
    SparesPorts s (journalOpen s peer peerCore own sh shots) := sparesPorts_modJournal s _

/-! ## Flow contexts -/

@[simp] theorem getFlow_setFlow (s : State) (l n : Nat) (x : Flow) : getFlow (setFlow s l n x) l n = x := by
  simp only [getFlow, setFlow, getCore_modCore, tget_tput_same]

/-- A flow context is one of its core's tables, and the core's stores are not. -/
theorem getCore_setFlow (s : State) (l n : Nat) (x : Flow) :
    getCore (setFlow s l n x) l = { getCore s l with flows := tput (getCore s l).flows n x } := getCore_modCore _ _ _

theorem onlyCore_setFlow (s : State) (l n : Nat) (x : Flow) : OnlyCore s (setFlow s l n x) l := onlyCore_modCore s l _

/-! ## Refusals (R257, R259) -/

/-- A negative acknowledgement leaves the cores and memory as they were. -/
theorem sendNack_stores (s : State) (status flow seq mover byCore toCoord core die : Nat) :
    (sendNack s status flow seq mover byCore toCoord core die).cores = s.cores
      ∧ (sendNack s status flow seq mover byCore toCoord core die).mem = s.mem := by
  unfold sendNack
  dsimp only
  split
  · split
    · unfold toCore
      split <;> exact ⟨rfl, rfl⟩
    · exact ⟨rfl, rfl⟩
  · exact ⟨rfl, rfl⟩

theorem nackTo_stores (s : State) (l status flow seq : Nat) (x : Flow) :
    (nackTo s l status flow seq x).cores = s.cores ∧ (nackTo s l status flow seq x).mem = s.mem :=
  sendNack_stores (bumpCore s l 27 1) status flow seq x.srcMover l x.srcCoord x.srcCore (dieOf l)

/-- A data shot outside an open transfer is discarded. -/
theorem dataShot_closed {s : State} {l typ : Nat} {sh : Shot} (f : State → Flow → State) (h : (getFlow s l sh.flow).st ≠ 1) :
    dataShot s l sh typ f = s := by
  simp [dataShot, h]

/-- One that fits goes on. -/
theorem dataShot_fits {s : State} {l typ : Nat} {sh : Shot} {x : Flow} (f : State → Flow → State) (h : Fits s l typ sh x) :
    dataShot s l sh typ f = f s x := by
  obtain ⟨hruns, -, htyp, rfl, hst, hfits⟩ := h
  simp [dataShot, hruns, htyp, hst, hfits]

/-- One that does not fit faults its flow, and leaves the scratchpad and memory as they were. -/
theorem dataShot_misfit {s : State} {l typ : Nat} {sh : Shot} (f : State → Flow → State) (htyp : sh.typ = typ)
    (hruns : writerRuns s l = true) (hst : (getFlow s l sh.flow).st = 1) (hfits : shotFits (getFlow s l sh.flow) sh = false) :
    let t := dataShot s l sh typ f
    getFlow t l sh.flow = { getFlow s l sh.flow with st := 2 } ∧ (getCore t l).scratch = (getCore s l).scratch ∧ t.mem = s.mem := by
  intro t
  have ht : t = nackTo (bumpCore (setFlow s l sh.flow { getFlow s l sh.flow with st := 2 }) l 26 1) l Status.flowProtocol sh.flow sh.seq
      (getFlow s l sh.flow) := by
    simp [t, dataShot, htyp, hruns, hst, hfits]
  obtain ⟨hcores, hmem⟩ := nackTo_stores (bumpCore (setFlow s l sh.flow { getFlow s l sh.flow with st := 2 }) l 26 1) l
    Status.flowProtocol sh.flow sh.seq (getFlow s l sh.flow)
  have hcore : getCore t l = getCore (setFlow s l sh.flow { getFlow s l sh.flow with st := 2 }) l := by
    rw [getCore, ht, hcores]
    rfl
  refine ⟨?_, ?_, ?_⟩
  · rw [getFlow, hcore]
    exact getFlow_setFlow s l sh.flow _
  · rw [hcore, getCore_setFlow]
  · rw [ht, hmem]
    rfl

/-! ## OPEN -/

/-- An OPEN for a context that no transfer holds opens it. -/
theorem openFlow_opens {s : State} {l : Nat} {sh : Shot} (htyp : sh.typ = 0) (hruns : writerRuns s l = true)
    (hst : (getFlow s l sh.flow).st ≠ 1) : ∃ t, exec (.openFlow l sh) s = .next t ∧ getFlow t l sh.flow = openRecord sh.payload
      ∧ (getCore t l).scratch = (getCore s l).scratch ∧ OnlyCore s t l := by
  let r := openRecord sh.payload
  let u := if r.srcCoord = ownCoord s then s else journalOpen s r.srcCoord r.srcCore l sh r.count
  have hu : SparesPorts s u := by
    unfold u
    split
    · exact .refl s
    · exact sparesPorts_journalOpen s _ _ _ _ _
  have hexec : exec (.openFlow l sh) s = .next (setFlow u l sh.flow r) := by
    change execOpenFlow l sh s = _
    simp [execOpenFlow, htyp, hruns, hst, u, r]
  refine ⟨_, hexec, getFlow_setFlow .., ?_, onlyCore_trans (hu.onlyCore l) (onlyCore_setFlow ..)⟩
  rw [getCore_setFlow, hu.getCore]

/-- An OPEN of another source is refused while a transfer holds the context. -/
theorem openFlow_busy {s : State} {l : Nat} {sh : Shot} (htyp : sh.typ = 0) (hruns : writerRuns s l = true)
    (hst : (getFlow s l sh.flow).st = 1) (hother : (getFlow s l sh.flow).srcCoord ≠ (openRecord sh.payload).srcCoord
      ∨ (getFlow s l sh.flow).srcCore ≠ (openRecord sh.payload).srcCore ∨ (getFlow s l sh.flow).srcMover ≠ (openRecord sh.payload).srcMover) :
    ∃ t, exec (.openFlow l sh) s = .next t ∧ getFlow t l sh.flow = getFlow s l sh.flow ∧ t.cores = s.cores := by
  have hexec : exec (.openFlow l sh) s
      = .next (nackTo (bumpCore s l 26 1) l Status.flowBusy sh.flow sh.seq (openRecord sh.payload)) := by
    change execOpenFlow l sh s = _
    simp [execOpenFlow, htyp, hruns, hst, hother]
  obtain ⟨hcores, -⟩ := nackTo_stores (bumpCore s l 26 1) l Status.flowBusy sh.flow sh.seq (openRecord sh.payload)
  refine ⟨_, hexec, ?_, hcores⟩
  rw [getFlow, getCore, hcores]
  rfl

/-! ## A shot that is written -/

/-- A shot without a signal that is written advances its flow; of its core nothing but the flow context differs. -/
theorem shotWritten_spec {s : State} (l : Nat) {sh : Shot} (x : Flow) (hsig : NoSignal sh) :
    OnlyCore s (shotWritten s l sh x) l
      ∧ getCore (shotWritten s l sh x) l = { getCore s l with flows := tput (getCore s l).flows sh.flow (flowAfter x sh) } := by
  unfold shotWritten
  extract_lets u v w
  have hv : SparesPorts s v := by
    unfold v
    split
    · exact (recorded_bump s 1 _ 1).sparesPorts
    · exact (recorded_bump s 1 _ 1).sparesPorts.trans (sparesPorts_journalShot u l sh)
  have hno : (sh.last && sh.rcarry && decide (fld sh.tail 31 0 = x.got + 1)) = false := by
    rcases hsig with h | h <;> simp [h]
  rw [hno]
  refine ⟨onlyCore_trans (hv.onlyCore l) (onlyCore_setFlow v l sh.flow _), ?_⟩
  have hcore : getCore w l = _ := getCore_setFlow v l sh.flow _
  rw [hv.getCore] at hcore
  exact hcore

/-- So, written from a state that a core's stores have changed in. -/
theorem shotWritten_after {s u : State} {l : Nat} {sh : Shot} (x : Flow) (hsig : NoSignal sh) (hu : OnlyCore s u l) :
    let t := shotWritten u l sh x
    getFlow t l sh.flow = flowAfter x sh ∧ OnlyCore s t l ∧ (getCore t l).scratch = (getCore u l).scratch
      ∧ (getCore t l).runners = (getCore u l).runners := by
  obtain ⟨honly, hcore⟩ := shotWritten_spec (s := u) l x hsig
  refine ⟨?_, onlyCore_trans hu honly, by rw [hcore], by rw [hcore]⟩
  rw [getFlow, hcore]
  exact tget_tput_same _ _ _ _

/-- A range of the scratchpad that master 8 may access raises nothing. -/
theorem shotAllowed_open {s : State} {l : Nat} {k : Kind} {a n : Nat} (hend : a + n ≤ spSize)
    (h : firstRefused (getCore s l).regionL 8 k [(a, n)] = none) : shotAllowed s l k a n = (s, true) := by
  simp [shotAllowed, checkRegion, h, Nat.not_lt.2 hend]

/-- Nothing is left out of a write that meets no lasting word. -/
theorem writeSp_skip_clean (s : State) (l master a : Nat) (d : List Byte) (h : (getCore s l).spBad = []) :
    (writeSp {} l master { s := s } a d).skip = false := by
  suffices hfold : ∀ (ps : List (Nat × List Byte)) (x : Acc), (getCore x.s l).spBad = [] →
      (ps.foldl (fun y p => writeWord {} l master y p.1 p.2) x).skip = x.skip from hfold _ { s := s } h
  intro ps
  induction ps with
  | nil => exact fun _ _ => rfl
  | cons p r ih =>
    intro x hx
    rw [List.foldl_cons, writeWord_clean l master x p.1 p.2 hx]
    exact ih _ (by rw [getCore_modCore]; exact hx)

/-- The bytes of a slice are as many as it asks for. -/
theorem slice_length (b : List Byte) (off n : Nat) : (slice b off n).length = n := by
  simp only [slice, List.length_append, List.length_replicate, List.length_take]
  omega

/-! ## WRITE -/

/-- A fitting WRITE to a range that master 8 may write stores its bytes of the line. -/
theorem write_lands {s : State} {l : Nat} {sh : Shot} {x : Flow} (hfits : Fits s l 1 sh x) (hsig : NoSignal sh) :
    let a := (nextLine x).2.1
    let n := (nextLine x).2.2 - a
    a + n ≤ spSize → firstRefused (getCore s l).regionL 8 .wr [(a, n)] = none → ∃ t, exec (.write l sh {}) s = .next t
      ∧ getFlow t l sh.flow = flowAfter x sh ∧ spB t l a n = slice sh.payload (a - (nextLine x).1) n
      ∧ SameScratchBut (getCore s l) (getCore t l) a n ∧ OnlyCore s t l := by
  intro a n hend hregion
  obtain ⟨-, hbad, -⟩ := id hfits
  have hallowed : shotAllowed s l .wr (nextLine x).2.1 ((nextLine x).2.2 - (nextLine x).2.1) = (s, true) := shotAllowed_open hend hregion
  generalize hd : slice sh.payload (a - (nextLine x).1) n = d
  have hlen : d.length = n := hd ▸ slice_length _ _ _
  have hexec : exec (.write l sh {}) s = .next (shotWritten (writeSp {} l 8 { s := s } a d).s l sh x) := by
    change execWrite l sh {} s = _
    rw [execWrite, dataShot_fits _ hfits, ← hd]
    simp only [hallowed, writeSp_skip_clean s l 8 _ _ hbad]
    rfl
  have hwritten := writeSp_clean s l 8 a d hbad
  obtain ⟨hflow, honly, hscratch, -⟩ := shotWritten_after x hsig hwritten.onlyCore
  rw [hwritten.scratch] at hscratch
  refine ⟨_, hexec, hflow, ?_, fun i hi => ?_, honly⟩
  · have hread := readB_writeB (getCore s l).scratch a d
    rwa [hlen, ← hscratch] at hread
  · rw [hscratch]
    exact tget_writeB_outside _ _ _ _ (by rwa [hlen])

/-! ## ATOMIC and ATOMIC_SAT (R190 to R192) -/

/-- The sum of eight-byte values. -/
theorem toNat_add_ofNat (o b : Nat) : (BitVec.ofNat 64 o + BitVec.ofNat 64 b).toNat = (o + b) % 2 ^ 64 := by
  rw [← BitVec.ofNat_add, BitVec.toNat_ofNat]

theorem toInt_ofNat (w : Nat) : (BitVec.ofNat 64 w).toInt = sext 64 w := by
  rw [BitVec.toInt_eq_toNat_cond, BitVec.toNat_ofNat]
  simp only [sext]
  split <;> split <;> omega

/-- The clamped sum of eight-byte values. -/
theorem toNat_addSat_ofNat (o b : Nat) : (addSat (BitVec.ofNat 64 o) (BitVec.ofNat 64 b)).1.toNat
    = ((max (-2 ^ 63) (min (2 ^ 63 - 1) (sext 64 o + sext 64 b))) % 2 ^ 64 : Int).toNat := by
  simp only [addSat, toInt_ofNat]
  generalize sext 64 o + sext 64 b = v
  split
  case isTrue hlow =>
    rw [BitVec.toNat_ofInt, min_eq_right (by omega), max_eq_left (by omega)]
    rfl
  case isFalse hlow =>
    split
    case isTrue hhigh =>
      rw [BitVec.toNat_ofInt, min_eq_left (by omega), max_eq_right (by omega)]
      rfl
    case isFalse hhigh =>
      rw [BitVec.toNat_ofInt, min_eq_right (by omega), max_eq_right (by omega)]
      rfl

/-- The bytes of a word that was written hold its value. -/
theorem leNat_toLE_word (v : Word64) : leNat (toLE 8 v.toNat) = v.toNat := by
  rw [leNat_toLE]
  exact Nat.mod_eq_of_lt v.isLt

/-- One addend writes its word alone. -/
theorem addWord_spec (f : Word64 → Word64 → Word64 × Bool) (l subj : Nat) (s : State) (a : Nat) (b : Word64) :
    OnlyCore s (addWord f l subj s a b) l ∧ (getCore (addWord f l subj s a b) l).scratch
      = writeB (getCore s l).scratch a (toLE 8 (f (BitVec.ofNat 64 (leNat (spB s l a 8))) b).1.toNat) := by
  unfold addWord
  extract_lets q u
  have hu : OnlyCore s u l := onlyCore_modCore s l _
  have hscratch : (getCore u l).scratch = writeB (getCore s l).scratch a (toLE 8 q.1.toNat) := by
    rw [getCore_modCore]
    rfl
  split
  · have hraise := ((recorded_bump u 1 (32 * l + 20) 1).trans (recorded_raiseEv _ Status.scratchAtomicSaturated 1 subj a b.toNat 0)).sparesPorts
    refine ⟨onlyCore_trans hu (hraise.onlyCore l), ?_⟩
    rw [← hscratch]
    exact congrArg Core.scratch (hraise.getCore l)
  · exact ⟨hu, hscratch⟩

/-- The first `n` addends of a line are added, one word after another. -/
theorem foldl_addWord_spec (f : Word64 → Word64 → Word64 × Bool) (l a : Nat) (subj : State → Nat) (b : Nat → Word64) (s : State) (n : Nat) :
    let t := (List.range n).foldl (fun s e => addWord f l (subj s) s (a + 8 * e) (b e)) s
    OnlyCore s t l ∧ SameScratchBut (getCore s l) (getCore t l) a (8 * n)
      ∧ ∀ i < n, leNat (spB t l (a + 8 * i) 8) = (f (BitVec.ofNat 64 (leNat (spB s l (a + 8 * i) 8))) (b i)).1.toNat := by
  induction n with
  | zero => exact ⟨onlyCore_refl s l, fun _ _ => rfl, fun i hi => absurd hi (Nat.not_lt_zero i)⟩
  | succ n ih =>
    obtain ⟨honly, hsame, hwords⟩ := ih
    rw [List.range_succ, List.foldl_append, List.foldl_cons, List.foldl_nil]
    generalize (List.range n).foldl (fun s e => addWord f l (subj s) s (a + 8 * e) (b e)) s = u at honly hsame hwords
    obtain ⟨hstep, hscratch⟩ := addWord_spec f l (subj u) u (a + 8 * n) (b n)
    have hold : spB u l (a + 8 * n) 8 = spB s l (a + 8 * n) 8 :=
      List.map_congr_left fun i _ => hsame _ (.inr (by omega))
    rw [hold] at hscratch
    refine ⟨onlyCore_trans honly hstep, fun i hi => ?_, fun i hi => ?_⟩
    · rw [hscratch, tget_writeB_outside _ _ _ _ (by rw [length_toLE]; omega)]
      exact hsame i (by omega)
    · rw [spB, hscratch]
      rcases Nat.lt_succ_iff_lt_or_eq.1 hi with hlt | rfl
      · rw [readB_writeB_disjoint _ _ _ _ _ (by omega)]
        exact hwords i hlt
      · have hread := readB_writeB (getCore u l).scratch (a + 8 * i)
          (toLE 8 (f (BitVec.ofNat 64 (leNat (spB s l (a + 8 * i) 8))) (b i)).1.toNat)
        rw [length_toLE] at hread
        rw [hread, leNat_toLE_word]

/-- A fitting atomic shot to a line that master 8 may access atomically adds its eight words. -/
theorem atomicShot_lands {s : State} {l typ : Nat} {sh : Shot} {x : Flow} (f : Word64 → Word64 → Word64 × Bool)
    (hfits : Fits s l typ sh x) (hsig : NoSignal sh) :
    let line := (nextLine x).1
    let t := atomicShot l sh {} typ f s
    line + 64 ≤ spSize → firstRefused (getCore s l).regionL 8 .atom [(line, 64)] = none →
      getFlow t l sh.flow = flowAfter x sh ∧ SameScratchBut (getCore s l) (getCore t l) line 64 ∧ OnlyCore s t l
      ∧ ∀ i, i < 8 → leNat (spB t l (line + 8 * i) 8)
        = (f (BitVec.ofNat 64 (leNat (spB s l (line + 8 * i) 8))) (BitVec.ofNat 64 (w64 sh.payload (8 * i)))).1.toNat := by
  intro line t hend hregion
  obtain ⟨-, hbad, -⟩ := id hfits
  have hallowed : shotAllowed s l .atom (nextLine x).1 64 = (s, true) := shotAllowed_open hend hregion
  have ht : t = shotWritten ((List.range 8).foldl (fun s e => addWord f l (shotSubject s l x) s (line + 8 * e)
      (BitVec.ofNat 64 (w64 sh.payload (8 * e)))) s) l sh x := by
    simp only [t, atomicShot]
    rw [dataShot_fits _ hfits]
    simp only [hallowed, readWords_clean l 8 { s := s } _ hbad, List.contains_nil, Bool.false_eq_true, if_false, if_true]
    rfl
  obtain ⟨hadded, hsame, hwords⟩ := foldl_addWord_spec f l line (fun s => shotSubject s l x)
    (fun e => BitVec.ofNat 64 (w64 sh.payload (8 * e))) s 8
  obtain ⟨hflow, honly, hscratch, -⟩ := shotWritten_after x hsig hadded
  rw [ht]
  refine ⟨hflow, fun i hi => ?_, honly, fun i hi => ?_⟩
  · rw [hscratch]
    exact hsame i hi
  · rw [spB, hscratch]
    exact hwords i hi

/-! ## ENTRY (R203, R211) -/

theorem scratch_setRunner (s : State) (l n : Nat) (r : Runner) : (getCore (setRunner s l n r) l).scratch = (getCore s l).scratch := by
  rw [setRunner, getCore_modCore]

/-- A fitting ENTRY to a remote ring with room appends its entry. -/
theorem entry_lands {s : State} {l : Nat} {sh : Shot} {x : Flow} (hfits : Fits s l 4 sh x) (hsig : NoSignal sh)
    (hen : (getRunner s l x.runner).enabled = true) (hremote : cfgRemote (getRunner s l x.runner).cfg.toNat = true)
    (hroom : (getRunner s l x.runner).canPush = true) (hring : (getRunner s l x.runner).isSpill = false) :
    let q := getRunner s l x.runner
    ∃ t, exec (.entry l sh false) s = .next t ∧ getFlow t l sh.flow = flowAfter x sh ∧ OnlyCore s t l
      ∧ getRunner t l x.runner = { q with wp := (q.wp + 1) % 2 ^ (q.ptrLog + 1) } ∧ spB t l (q.slot q.wp) 64 = slice sh.payload 0 64 := by
  intro q
  obtain ⟨-, hbad, -⟩ := id hfits
  let u := setRunner (putSp s l 9 (q.slot q.wp) (slice sh.payload 0 64)) l x.runner { q with wp := q.adv q.wp }
  have hexec : exec (.entry l sh false) s = .next (shotWritten u l sh x) := by
    change execEntry l sh false s = _
    rw [execEntry, dataShot_fits _ hfits]
    simp [hen, hremote, hroom, pushEntry, hring, u, q]
  have hwritten : ScratchWritten s (putSp s l 9 (q.slot q.wp) (slice sh.payload 0 64)) l (q.slot q.wp) (slice sh.payload 0 64) :=
    writeSp_clean s l 9 _ _ hbad
  have hu : OnlyCore s u l := onlyCore_trans hwritten.onlyCore (onlyCore_modCore _ l _)
  obtain ⟨hflow, honly, hscratch, hrunners⟩ := shotWritten_after x hsig hu
  refine ⟨_, hexec, hflow, honly, ?_, ?_⟩
  · rw [getRunner, hrunners]
    exact getRunner_setRunner ..
  · have hstore : (getCore u l).scratch = writeB (getCore s l).scratch (q.slot q.wp) (slice sh.payload 0 64) := by
      rw [← hwritten.scratch]
      exact scratch_setRunner _ l _ _
    have hread := readB_writeB (getCore s l).scratch (q.slot q.wp) (slice sh.payload 0 64)
    rwa [slice_length, ← hstore, ← hscratch] at hread

/-! ## Every data shot -/

/-- The commands of data shots are `dataShot` under their type. -/
theorem exec_dataShots (l : Nat) (sh : Shot) (s : State) :
    ∀ row ∈ ([(1, .write l sh {}), (2, .atomic l sh {}), (3, .atomicSat l sh {}), (4, .entry l sh false)] : List (Nat × Instr)),
      ∃ f, exec row.2 s = .next (dataShot s l sh row.1 f) := by
  intro row hrow
  simp only [List.mem_cons, List.not_mem_nil, or_false] at hrow
  rcases hrow with rfl | rfl | rfl | rfl <;> exact ⟨_, rfl⟩

/-- The half of O42 about the shots that arrive. -/
theorem shotsWriteTheirLines : Claims.ShotsWriteTheirLines := by
  intro s l sh x hx a n line r may
  refine ⟨fun htyp hruns hst => ?_, fun htyp hruns hst hother => ?_, fun hfits hsig hmay => ?_, fun row hrow hfits hsig hmay _ => ?_,
    fun hfits hsig hen hremote hroom hring => ?_, fun row hrow htyp hruns => ⟨fun hst => ?_, fun hst hfits => ?_⟩⟩
  · obtain ⟨t, hexec, hflow, hscratch, honly⟩ := openFlow_opens htyp hruns (by rwa [hx])
    exact ⟨t, hexec, hflow, rfl, hscratch, honly⟩
  · subst hx
    exact openFlow_busy htyp hruns hst hother
  · exact write_lands hfits hsig hmay.1 hmay.2
  · simp only [List.mem_cons, List.not_mem_nil, or_false] at hrow
    rcases hrow with rfl | rfl
    · obtain ⟨hflow, hsame, honly, hwords⟩ := atomicShot_lands (fun o b => (o + b, false)) hfits hsig hmay.1 hmay.2
      refine ⟨_, rfl, hflow, hsame, honly, fun i hi => ?_⟩
      rw [hwords i hi]
      exact toNat_add_ofNat _ _
    · obtain ⟨hflow, hsame, honly, hwords⟩ := atomicShot_lands addSat hfits hsig hmay.1 hmay.2
      refine ⟨_, rfl, hflow, hsame, honly, fun i hi => ?_⟩
      rw [hwords i hi, toNat_addSat_ofNat]
  · exact entry_lands hfits hsig hen hremote hroom hring
  · obtain ⟨f, hexec⟩ := exec_dataShots l sh s row hrow
    rw [hexec, dataShot_closed f (by rwa [hx])]
  · obtain ⟨f, hexec⟩ := exec_dataShots l sh s row hrow
    subst hx
    exact ⟨_, hexec, dataShot_misfit f htyp hruns hst hfits⟩

end Sys2Proof.Machine
end

section
/-! The stop of a launch by a negative acknowledgement (R108, R229, R259): what a trap leaves to the charge's entry and to the cores that
run it. -/

namespace Sys2Proof.Machine

open Sys2Proof.Claims

/-! ## Tables -/

/-- A table whose entries are all changed alike reads the changed entry, where the default is changed to itself. -/
theorem tget_map {β : Type} (d : β) (g : β → β) (hg : g d = d) (t : Tab β) (i : Nat) :
    tget d (t.map (fun e => (e.1, g e.2))) i = g (tget d t i) := by
  induction t with
  | nil => exact hg.symm
  | cons e r ih =>
    simp only [List.map_cons, tget]
    split
    · rfl
    · exact ih

/-- So do the cores of a state. -/
theorem getCore_mapCores {s t : State} (g : Core → Core) (hg : g {} = {}) (ht : t.cores = s.cores.map (fun e => (e.1, g e.2))) (k : Nat) :
    getCore t k = g (getCore s k) := by
  rw [getCore, ht]
  exact tget_map {} g hg s.cores k

/-- An element of a list is there still, or changed, after a change of the first that passes a test. -/
theorem mem_updFirst {α : Type} (p : α → Bool) (f : α → α) {l : List α} {x : α} (h : x ∈ l) :
    x ∈ updFirst p f l ∨ f x ∈ updFirst p f l := by
  induction l with
  | nil => exact absurd h List.not_mem_nil
  | cons y r ih =>
    unfold updFirst
    rcases List.mem_cons.1 h with rfl | hr
    · split
      · exact .inr List.mem_cons_self
      · exact .inl List.mem_cons_self
    · split
      · exact .inl (List.mem_cons_of_mem _ hr)
      · exact (ih hr).imp (List.mem_cons_of_mem _) (List.mem_cons_of_mem _)

/-- Where some element passes the test, a changed one is there. -/
theorem exists_mem_updFirst {α : Type} (p : α → Bool) (f : α → α) {l : List α} {x : α} (h : x ∈ l) (hp : p x = true) :
    ∃ y ∈ l, p y = true ∧ f y ∈ updFirst p f l := by
  induction l with
  | nil => exact absurd h List.not_mem_nil
  | cons y r ih =>
    unfold updFirst
    split
    case isTrue hy => exact ⟨y, List.mem_cons_self, hy, List.mem_cons_self⟩
    case isFalse hy =>
      rcases List.mem_cons.1 h with rfl | hr
      · exact absurd hp hy
      · obtain ⟨z, hz, hpz, hmem⟩ := ih hr
        exact ⟨z, List.mem_cons_of_mem _ hz, hpz, List.mem_cons_of_mem _ hmem⟩

/-! ## What the end of items keeps -/

/-- Every entry keeps its CSEQ and its traps, no core starts an item or calls off a stop, and the telemetry stays. -/
structure Settles (s t : State) : Prop where
  tel : t.tel = s.tel
  traps : ∀ c, ∀ e ∈ (getCtx s c).entries, ∃ e' ∈ (getCtx t c).entries, e'.cseq = e.cseq ∧ e'.traps = e.traps
  runs : ∀ k y', (getCore t k).run = some y' →
    ∃ y, (getCore s k).run = some y ∧ y'.item = y.item ∧ (y.stopping = true → y'.stopping = true)

theorem Settles.refl (s : State) : Settles s s := ⟨rfl, fun _ e he => ⟨e, he, rfl, rfl⟩, fun _ y hy => ⟨y, hy, rfl, id⟩⟩

theorem Settles.trans {s t u : State} (h : Settles s t) (k : Settles t u) : Settles s u := by
  refine ⟨k.tel.trans h.tel, fun c e he => ?_, fun n y hy => ?_⟩
  · obtain ⟨e', he', hcseq, htraps⟩ := h.traps c e he
    obtain ⟨e'', he'', hcseq', htraps'⟩ := k.traps c e' he'
    exact ⟨e'', he'', hcseq'.trans hcseq, htraps'.trans htraps⟩
  · obtain ⟨y', hy', hitem, hstop⟩ := k.runs n y hy
    obtain ⟨y'', hy'', hitem', hstop'⟩ := h.runs n y' hy'
    exact ⟨y'', hy'', hitem.trans hitem', fun hs => hstop (hstop' hs)⟩

/-- A change of the cores that no run meets. -/
theorem settles_cores {s t : State} (htel : t.tel = s.tel) (hctxs : t.ctxs = s.ctxs) (hrun : ∀ k, (getCore t k).run = (getCore s k).run) :
    Settles s t := by
  refine ⟨htel, fun c e he => ⟨e, ?_, rfl, rfl⟩, fun k y hy => ⟨y, (hrun k).symm.trans hy, rfl, id⟩⟩
  rwa [getCtx, hctxs]

/-- One of one core, whose run ends, or goes on with its item. -/
theorem settles_modCore (s : State) (l : Nat) (f : Core → Core)
    (h : ∀ x y', (f x).run = some y' → ∃ y, x.run = some y ∧ y'.item = y.item ∧ (y.stopping = true → y'.stopping = true)) :
    Settles s (modCore s l f) := by
  refine ⟨rfl, fun _ e he => ⟨e, he, rfl, rfl⟩, fun k y hy => ?_⟩
  by_cases hk : k = l
  · subst hk
    rw [getCore_modCore] at hy
    exact h _ y hy
  · rw [getCore_modCore_ne s hk] at hy
    exact ⟨y, hy, rfl, id⟩

/-- One of a charge's entry that keeps its CSEQ and its traps. -/
theorem settles_modRunning (s : State) (c q : Nat) {f : Entry → Entry} (h : ∀ e, (f e).cseq = e.cseq ∧ (f e).traps = e.traps) :
    Settles s (modRunning s c q f) := by
  refine ⟨rfl, fun c' e he => ?_, fun _ y hy => ⟨y, hy, rfl, id⟩⟩
  by_cases hc : c' = c
  · subst hc
    rw [modRunning, getCtx_modCtx]
    rcases mem_updFirst (fun e => e.cseq = q && e.dispatched && e.st ≠ .finished) f he with hmem | hmem
    · exact ⟨e, hmem, rfl, rfl⟩
    · exact ⟨f e, hmem, h e⟩
  · have hctx : getCtx (modRunning s c q f) c' = getCtx s c' := getCtx_setCtx_ne s hc _
    rw [hctx]
    exact ⟨e, he, rfl, rfl⟩

theorem settles_report (s : State) (c q st r : Nat) : Settles s (report s c q st r) := settles_modRunning s c q fun _ => ⟨rfl, rfl⟩

theorem settles_finishItems (s : State) (c q : Nat) : Settles s (finishItems s c q) := by
  unfold finishItems
  split
  · split
    · split
      · exact settles_report s c q _ _
      · exact .refl s
    · exact .refl s
  · exact .refl s

theorem settles_removeItems (s : State) (c q : Nat) (ls : List Nat) : Settles s (removeItems s c q ls) :=
  .trans (settles_modRunning s c q (f := fun e => { e with items := e.items.filter (fun l => !ls.contains l) }) fun _ => ⟨rfl, rfl⟩)
    (settles_finishItems _ c q)

/-- A core without the items of a charge that it has not started. -/
def Core.without (x : Core) (c q : Nat) : Core :=
  fillQueue { x with queue := x.queue.filter (fun i => !ofCharge c q i), hubItems := x.hubItems.filter (fun i => !ofCharge c q i) }

theorem settles_dropQueued (s : State) (c q : Nat) : Settles s (dropQueued s c q) := by
  unfold dropQueued
  extract_lets ls t
  have hcore : ∀ k, getCore t k = (getCore s k).without c q := getCore_mapCores (Core.without · c q) rfl rfl
  have ht : Settles s t := settles_cores rfl rfl fun k => by rw [hcore]; rfl
  split
  · exact .refl s
  · exact ht.trans (settles_removeItems t c q ls)

theorem settles_endItem (s : State) (l : Nat) : Settles s (endItem s l) := by
  unfold endItem
  split
  · exact (settles_modCore s l _ fun _ _ h => absurd h (by simp)).trans (settles_removeItems _ _ _ _)
  · exact .refl s

theorem settles_settleCore (s : State) (l : Nat) : Settles s (settleCore s l) := by
  unfold settleCore
  dsimp only
  split
  · split
    · refine .trans ?_ (settles_endItem _ l)
      split
      · refine settles_modRunning s _ _ fun e => ?_
        split <;> exact ⟨rfl, rfl⟩
      · exact .refl s
    · exact .refl s
  · exact .refl s

theorem settles_modRun (s : State) (l : Nat) {f : Run → Run} (h : ∀ r, (f r).item = r.item ∧ (f r).stopping = r.stopping) :
    Settles s (modRun s l f) := by
  refine settles_modCore s l _ fun x y' hy => ?_
  obtain ⟨y, hrun, rfl⟩ := Option.map_eq_some_iff.1 hy
  obtain ⟨hitem, hstop⟩ := h y
  exact ⟨y, hrun, hitem, fun hs => hstop.trans hs⟩

theorem settles_leaveRisers (s : State) (l : Nat) : Settles s (leaveRisers s l) :=
  settles_modCore s l _ fun _ y hy => ⟨y, hy, rfl, id⟩

/-! ## Grants that return (R412, R413) -/

/-- A grant that is held, rescaled to a rail code. -/
def Job.rescaled (code : Nat) (j : Job) : Job := if j.granted = 0 then j else { j with granted := watts j.base code }

/-- A core with its grants rescaled. -/
def Core.rescaled (code : Nat) (x : Core) : Core :=
  { x with engines := x.engines.map (fun g => (g.1, { g.2 with job := g.2.job.map (Job.rescaled code), ahead := g.2.ahead.map (Job.rescaled code) })) }

theorem getCore_rescale (s : State) (code k : Nat) : getCore (rescale s code) k = (getCore s k).rescaled code :=
  getCore_mapCores (Core.rescaled code) rfl rfl k

/-- The rail follows its code, and every held grant is rescaled; or nothing happens. -/
theorem settleRail_cases (s : State) : settleRail s = s ∨ ∃ code, settleRail s = rescale s code := by
  unfold settleRail
  dsimp only
  split
  · exact .inr ⟨_, rfl⟩
  · split
    · exact .inr ⟨_, rfl⟩
    · exact .inl rfl

theorem settles_settleRail (s : State) : Settles s (settleRail s) := by
  rcases settleRail_cases s with h | ⟨code, h⟩
  · rw [h]
    exact .refl s
  · rw [h]
    exact settles_cores rfl rfl fun k => by rw [getCore_rescale]; rfl

theorem settles_returnGrant (s : State) (l w : Nat) : Settles s (returnGrant s l w) :=
  .trans (settles_modCore s l (fun x => { x with reservoir := x.reservoir + min w (8 - x.reservoir) }) fun _ y hy => ⟨y, hy, rfl, id⟩)
    (settles_settleRail _)

theorem settles_discardUnstarted (s : State) (l : Nat) : Settles s (discardUnstarted s l) := by
  unfold discardUnstarted
  extract_lets x held movers y t pw u
  have hu : Settles s u := by
    refine settles_cores rfl rfl fun k => ?_
    by_cases hk : k = l
    · have hrun : (getCore t l).run = (dropBreaches y).run := by rw [getCore_setCore]
      rw [hk]
      exact hrun
    · have hrun : getCore t k = getCore s k := getCore_setCore_ne s hk _
      exact congrArg Core.run hrun
  split
  · exact hu
  · exact hu.trans (settles_returnGrant u l held)

/-! ## Stops and traps -/

/-- Every core that runs an item of the charge is stopping. -/
def Stopping (s : State) (c q : Nat) : Prop := ∀ k y, (getCore s k).run = some y → ofCharge c q y.item = true → y.stopping = true

theorem Settles.stopping {s t : State} {c q : Nat} (h : Settles s t) (hs : Stopping s c q) : Stopping t c q := by
  intro k y' hy' hof
  obtain ⟨y, hy, hitem, hstop⟩ := h.runs k y' hy'
  exact hstop (hs k y hy (hitem ▸ hof))

/-- An entry with a CSEQ holds a trap. -/
def HasTrap (s : State) (c q : Nat) (t : Nat × Nat × Nat) : Prop := ∃ e ∈ (getCtx s c).entries, e.cseq = q ∧ t ∈ e.traps

theorem Settles.hasTrap {s t : State} {c q : Nat} {x : Nat × Nat × Nat} (h : Settles s t) (hs : HasTrap s c q x) : HasTrap t c q x := by
  obtain ⟨e, he, hcseq, hmem⟩ := hs
  obtain ⟨e', he', hcseq', htraps⟩ := h.traps c e he
  exact ⟨e', he', hcseq'.trans hcseq, htraps ▸ hmem⟩

/-- A core that is told to stop what it runs of a charge. -/
def Core.told (x : Core) (c q : Nat) : Core :=
  { x with run := x.run.map (fun r => if ofCharge c q r.item then { r with stopping := true } else r) }

/-- A stop reaches every core that runs an item of the charge. -/
theorem stopCharge_spec (s : State) (c q : Nat) : Settles s (stopCharge s c q) ∧ Stopping (stopCharge s c q) c q := by
  unfold stopCharge
  extract_lets t
  have hcore : ∀ k, getCore t k = (getCore s k).told c q := getCore_mapCores (Core.told · c q) rfl rfl
  have hruns : ∀ k y', (getCore t k).run = some y' →
      ∃ y, (getCore s k).run = some y ∧ y' = if ofCharge c q y.item = true then { y with stopping := true } else y := by
    intro k y' hy'
    rw [hcore, Core.told] at hy'
    obtain ⟨y, hy, rfl⟩ := Option.map_eq_some_iff.1 hy'
    exact ⟨y, hy, rfl⟩
  have ht : Settles s t := by
    refine ⟨rfl, fun _ e he => ⟨e, he, rfl, rfl⟩, fun k y' hy' => ?_⟩
    obtain ⟨y, hy, rfl⟩ := hruns k y' hy'
    refine ⟨y, hy, ?_, fun hs => ?_⟩
    · split <;> rfl
    · split
      · rfl
      · exact hs
  have hstop : Stopping t c q := by
    intro k y' hy' hof
    obtain ⟨y, hy, rfl⟩ := hruns k y' hy'
    split at hof
    · rw [if_pos ‹_›]
    · exact absurd hof ‹_›
  have hdrop := settles_dropQueued t c q
  exact ⟨ht.trans hdrop, hdrop.stopping hstop⟩

/-- A trap of a launch that runs takes a record, enters its charge's entry, and stops the charge on every core. -/
theorem trap_spec {s : State} {l : Nat} {r : Run} {e : Entry} (status pc code valA : Nat) (hrun : (getCore s l).run = some r)
    (hstopped : r.stopped = false) (he : e ∈ (getCtx s r.item.ctx).entries)
    (hopen : (e.cseq = r.item.cseq && e.dispatched && e.st ≠ .finished) = true) :
    let t := trap s l status pc code valA false
    s.tel.eseq < t.tel.eseq ∧ HasTrap t r.item.ctx r.item.cseq (l, status, pc) ∧ Stopping t r.item.ctx r.item.cseq := by
  unfold trap
  rw [hrun]
  simp -zeta only [hstopped, Bool.false_eq_true, if_false]
  extract_lets u1 u2 u3 u4 u5 u6
  have hraise : s.tel.eseq < u1.tel.eseq := raiseEv_eseq _ _ _ _ _ _ _
  have hctxs : u1.ctxs = s.ctxs := (recorded_raiseEv _ _ _ _ _ _ _).sparesPorts.ctxs
  have hmarked : HasTrap u2 r.item.ctx r.item.cseq (l, status, pc) := by
    obtain ⟨y, -, hy, hmem⟩ := exists_mem_updFirst (fun e => e.cseq = r.item.cseq && e.dispatched && e.st ≠ .finished)
      (fun e => { e with traps := e.traps ++ [(l, status, pc)] }) he hopen
    have hentries : (getCtx u1 r.item.ctx).entries = (getCtx s r.item.ctx).entries := by rw [getCtx, hctxs]; rfl
    refine ⟨{ y with traps := y.traps ++ [(l, status, pc)] }, ?_, ?_, List.mem_append_right _ List.mem_cons_self⟩
    · have hctx : (getCtx u2 r.item.ctx).entries = _ := congrArg Ctx.entries (getCtx_modCtx u1 r.item.ctx _)
      rw [hctx, hentries]
      exact hmem
    · simp only [Bool.and_eq_true, decide_eq_true_eq] at hy
      exact hy.1.1
  have h23 : Settles u2 u3 := settles_leaveRisers u2 l
  have h34 : Settles u3 u4 := settles_modRun u3 l fun _ => ⟨rfl, rfl⟩
  have h45 : Settles u4 u5 := settles_discardUnstarted u4 l
  obtain ⟨h56, hstop⟩ := stopCharge_spec u5 r.item.ctx r.item.cseq
  have hend := settles_settleCore u6 l
  have hall : Settles u2 (settleCore u6 l) := (((h23.trans h34).trans h45).trans h56).trans hend
  refine ⟨?_, hall.hasTrap hmarked, hend.stopping hstop⟩
  rw [hall.tel]
  exact hraise

/-! ## Negative acknowledgements (R229, R259) -/

theorem leNat_lt (b : List Byte) : leNat b < 256 ^ b.length := by
  induction b with
  | nil => decide
  | cons x r ih =>
    have hx : x.toNat < 256 := x.isLt
    rw [leNat, List.length_cons, pow_succ]
    omega

theorem w64_lt (b : List Byte) (off : Nat) : w64 b off < 2 ^ 64 := by
  have hlen : ((b.drop off).take 8).length ≤ 8 := by rw [List.length_take]; omega
  calc w64 b off < 256 ^ ((b.drop off).take 8).length := leNat_lt _
    _ ≤ 256 ^ 8 := Nat.pow_le_pow_right (by decide) hlen

theorem nack_status (sh : Shot) : fld (nackWord sh) 63 48 = w64 sh.payload 0 / 2 ^ 48 := by
  have hlt := w64_lt sh.payload 0
  rw [fld, nackWord, Nat.shiftRight_eq_div_pow]
  exact Nat.mod_eq_of_lt (by omega)

theorem nack_mover (sh : Shot) : fld (nackWord sh) 25 24 = w64 sh.payload 0 / 2 ^ 24 % 4 := by
  rw [fld, nackWord, Nat.shiftRight_eq_div_pow, show 2 ^ (25 + 1 - 24) = 4 from rfl]

theorem nack_flow (sh : Shot) : fld (nackWord sh) 47 38 = w64 sh.payload 0 / 2 ^ 38 % 2 ^ 10 := by
  rw [fld, nackWord, Nat.shiftRight_eq_div_pow]

theorem nack_by (sh : Shot) : fld (nackWord sh) 16 3 = w64 sh.payload 0 / 2 ^ 3 % 2 ^ 14 := by
  rw [fld, nackWord, Nat.shiftRight_eq_div_pow]

section
variable {s : State} {l : Nat} {sh : Shot} (htyp : sh.typ = 8) (hruns : writerRuns s l = true)

include htyp hruns

/-- One for a transfer of a collective ends the collective. -/
theorem nack_collective {k : Coll} (hcoll : collOfFlow s l (w64 sh.payload 0 / 2 ^ 38 % 2 ^ 10) = some k) :
    let u := bumpCore s l 28 1
    exec (.nack l sh) s = .next (if w64 sh.payload 0 / 2 ^ 48 = Status.routeUnreachable then originEnd u k Status.linkLost Status.linkLost
      else collTrap u k l (w64 sh.payload 0 / 2 ^ 48) (w64 sh.payload 0 / 2 ^ 3 % 2 ^ 14)) := by
  intro u
  have hcoll' : collOfFlow (bumpCore s l 28 1) l (fld (nackWord sh) 47 38) = some k := nack_flow sh ▸ hcoll
  change execNack l sh s = _
  rw [← nack_status, ← nack_by]
  simp [execNack, htyp, hruns, hcoll', u]

variable (hnone : collOfFlow s l (w64 sh.payload 0 / 2 ^ 38 % 2 ^ 10) = none)

include hnone

/-- One for a launch that has ended leaves a record. -/
theorem nack_late (hrun : (getCore s l).run = none) :
    ∃ t, exec (.nack l sh) s = .next t ∧ { t with tel := s.tel } = s ∧ s.tel.eseq < t.tel.eseq := by
  let u := bumpCore s l 28 1
  have hnone' : collOfFlow (bumpCore s l 28 1) l (fld (nackWord sh) 47 38) = none := nack_flow sh ▸ hnone
  have hrun' : (getCore (bumpCore s l 28 1) l).run = none := hrun
  have hexec : exec (.nack l sh) s = .next (raiseEv u (fld (nackWord sh) 63 48) 1 (nackSubject u l sh)
      (flowWhere (fld (nackWord sh) 47 38) (fld (nackWord sh) 37 26)) (shotHeader sh) 0) := by
    change execNack l sh s = _
    simp [execNack, htyp, hruns, hnone', hrun', u]
  have hrecorded := (recorded_bump s 1 (32 * l + 28) 1).trans (recorded_raiseEv u (fld (nackWord sh) 63 48) 1 (nackSubject u l sh)
    (flowWhere (fld (nackWord sh) 47 38) (fld (nackWord sh) 37 26)) (shotHeader sh) 0)
  exact ⟨_, hexec, hrecorded.frame, raiseEv_eseq u _ _ _ _ _ _⟩

/-- One for the descriptor that sends traps it. -/
theorem nack_sending {j : Job} {r : Run} (hjob : (getEngine (getCore s l) (w64 sh.payload 0 / 2 ^ 24 % 4 + 3)).job = some j)
    (hrun : (getCore s l).run = some r) (hkind : mKind j.desc = 2 ∨ mKind j.desc = 3 ∨ mKind j.desc = 4)
    (hflow : mFlow j.desc = w64 sh.payload 0 / 2 ^ 38 % 2 ^ 10) (hstage : 3 ≤ j.stage) :
    exec (.nack l sh) s = .next (engineTrap (bumpCore s l 28 1) l (w64 sh.payload 0 / 2 ^ 24 % 4 + 3) (w64 sh.payload 0 / 2 ^ 48)
      (w64 sh.payload 0 / 2 ^ 3 % 2 ^ 14) false) := by
  have hnone' : collOfFlow (bumpCore s l 28 1) l (fld (nackWord sh) 47 38) = none := nack_flow sh ▸ hnone
  have hjob' : (getEngine (getCore (bumpCore s l 28 1) l) (fld (nackWord sh) 25 24 + 3)).job = some j := nack_mover sh ▸ hjob
  have hflow' : mFlow j.desc = fld (nackWord sh) 47 38 := nack_flow sh ▸ hflow
  have hrun' : (getCore (bumpCore s l 28 1) l).run = some r := hrun
  have hsends : (mKind j.desc = 2 || mKind j.desc = 3 || mKind j.desc = 4) = true := by simpa [or_assoc] using hkind
  change execNack l sh s = _
  rw [← nack_status, ← nack_mover, ← nack_by]
  simp [execNack, htyp, hruns, hnone', hjob', hrun', hsends, hflow', hstage]

/-- One for a transfer that its launch has sent and left traps the launch at the instruction that dispatched it. -/
theorem nack_sent {r : Run} {pc c q : Nat} (hrun : (getCore s l).run = some r)
    (hjob : (getEngine (getCore s l) (w64 sh.payload 0 / 2 ^ 24 % 4 + 3)).job = none)
    (hsent : tget (0, 0, 0) (getCore s l).sends (1024 * (w64 sh.payload 0 / 2 ^ 24 % 4) + w64 sh.payload 0 / 2 ^ 38 % 2 ^ 10) = (pc, c, q))
    (hof : ofCharge c q r.item = true) (hlaunch : r.item.kind = .launch) :
    exec (.nack l sh) s = .next (settleCore (trap (bumpCore s l 28 1) l (w64 sh.payload 0 / 2 ^ 48) pc 0
      (w64 sh.payload 0 / 2 ^ 3 % 2 ^ 14) false) l) := by
  have hnone' : collOfFlow (bumpCore s l 28 1) l (fld (nackWord sh) 47 38) = none := nack_flow sh ▸ hnone
  have hjob' : (getEngine (getCore (bumpCore s l 28 1) l) (fld (nackWord sh) 25 24 + 3)).job = none := nack_mover sh ▸ hjob
  have hrun' : (getCore (bumpCore s l 28 1) l).run = some r := hrun
  have hsent' : tget (0, 0, 0) (getCore (bumpCore s l 28 1) l).sends
      (1024 * fld (nackWord sh) 25 24 + fld (nackWord sh) 47 38) = (pc, c, q) := nack_mover sh ▸ nack_flow sh ▸ hsent
  change execNack l sh s = _
  rw [← nack_status, ← nack_by]
  simp [execNack, htyp, hruns, hnone', hjob', hrun', hsent', hof, hlaunch]

end

/-- The half of O42 about negative acknowledgements. -/
theorem nackStopsTheSendingLaunch : Claims.NackStopsTheSendingLaunch := by
  intro s l sh w m flow st by_ x u htyp hruns
  refine ⟨fun k hcoll => nack_collective htyp hruns hcoll, fun hnone => ⟨nack_late htyp hruns hnone,
    fun j r hjob hrun hkind hflow hstage => nack_sending htyp hruns hnone hjob hrun hkind hflow hstage,
    fun r pc c q hrun hjob hsent hof hlaunch hstopped _ hsole => ?_⟩⟩
  have hcharge : r.item.ctx = c ∧ r.item.cseq = q := by simpa [ofCharge] using hof
  obtain ⟨rfl, rfl⟩ := hcharge
  obtain ⟨e, he, -⟩ := hsole
  obtain ⟨hmem, hcseq, -, hdispatched, hopen, -⟩ := running_spec he
  obtain ⟨heseq, htrap, hstop⟩ := trap_spec (s := u) st pc 0 by_ hrun hstopped hmem (by simp [hcseq, hdispatched, hopen])
  have hend := settles_settleCore (trap u l st pc 0 by_ false) l
  refine ⟨_, nack_sent htyp hruns hnone hrun hjob hsent hof hlaunch, ?_, hend.hasTrap htrap, fun k y hy hoff => .inl ?_⟩
  · rw [hend.tel]
    exact heseq
  · exact hend.stopping hstop k y hy hoff

end Sys2Proof.Machine

/-- Settles O42: the fold of an atomic line's words, the frame of a written shot, and the stop that a trap sends. -/
theorem shotsArriveOrAreRefused : Obligations.ShotsArriveOrAreRefused :=
  ⟨Sys2Proof.Machine.shotsWriteTheirLines, Sys2Proof.Machine.nackStopsTheSendingLaunch⟩

end

section
/-! Fences of cores (R380 to R389, R464): what each stage of a fence does to the state. -/

namespace Sys2Proof.Machine

open Sys2Proof.Claims

/-! ## Tables and lists -/

theorem mem_insNat (l : List Nat) (i w : Nat) : w ∈ insNat l i ↔ w = i ∨ w ∈ l := by
  induction l with
  | nil => simp [insNat]
  | cons k r ih =>
    unfold insNat
    split
    · simp
    · split
      case isTrue hk => simp [hk]
      case isFalse => simp [ih, or_left_comm]

theorem mem_foldl_insNat (is l : List Nat) (w : Nat) : w ∈ is.foldl insNat l ↔ w ∈ l ∨ w ∈ is := by
  induction is generalizing l with
  | nil => simp
  | cons i r ih => rw [List.foldl_cons, ih, mem_insNat, List.mem_cons, or_comm (a := w = i), or_assoc]

theorem contains_insNat (l : List Nat) (i : Nat) : (insNat l i).contains i = true :=
  List.contains_iff_mem.2 ((mem_insNat l i i).2 (.inl rfl))

/-- A table reads its default, or an entry that it lists. -/
theorem tget_default_or_mem {β : Type} (d : β) (t : Tab β) (i : Nat) : tget d t i = d ∨ (i, tget d t i) ∈ t := by
  induction t with
  | nil => exact .inl rfl
  | cons e r ih =>
    unfold tget
    split
    case isTrue hk => exact .inr (hk ▸ List.mem_cons_self)
    case isFalse => exact ih.imp_right (List.mem_cons_of_mem _)

theorem instr_putInstr_same (x : Core) (i : Nat) (w : Word64) : getInstr (putInstr x i w) i = w := tget_tset_same _ _ _ _

theorem instr_putInstr_ne (x : Core) {i j : Nat} (h : j ≠ i) (w : Word64) : getInstr (putInstr x i w) j = getInstr x j := by
  change tget (instrDefault x j) (tset (instrDefault x i) x.instr i w) j = tget (instrDefault x j) x.instr j
  unfold tset
  split
  · exact tget_filter_other _ _ h
  · exact tget_tput_ne _ _ h _

/-! ## The fence in progress on a die -/

theorem fenceOn_modFence (s : State) (die : Nat) (f : Fence → Fence) : fenceOn (modFence s die f) die = (fenceOn s die).map f := by
  simp only [fenceOn, modFence]
  induction s.fence.active with
  | nil => rfl
  | cons a r ih =>
    by_cases ha : a.1 = die
    · simp [ha]
    · simpa [ha] using ih

theorem modFence_frame (s : State) (die : Nat) (f : Fence → Fence) : { modFence s die f with fence := s.fence } = s := rfl

theorem endFenceCharges_frame (s : State) (x : Fence) (st r : Nat) : { endFenceCharges s x st r with ctxs := s.ctxs } = s := by
  unfold endFenceCharges
  induction x.charges generalizing s with
  | nil => rfl
  | cons c cs ih => exact congrArg (fun y : State => { y with ctxs := s.ctxs }) (ih (report s c.1 c.2 st r))

theorem endFenceCharges_eq (s : State) (x : Fence) (st r : Nat) :
    endFenceCharges s x st r = { s with ctxs := (endFenceCharges s x st r).ctxs } :=
  congrArg (fun y : State => { y with ctxs := (endFenceCharges s x st r).ctxs }) (endFenceCharges_frame s x st r)

/-- The only charge of a fence reports. -/
theorem endFenceCharges_reports {s t : State} {x : Fence} {c q : Nat} (h : x.charges = [(c, q)]) (hctxs : t.ctxs = s.ctxs) (st r : Nat) :
    Reports s (endFenceCharges t x st r) c q st r := by
  rw [endFenceCharges, h]
  exact report_ctxs hctxs c q st r

/-! ## FENCE_STOP_COMPLETE with a reserve (R383, R384) -/

/-- Only the core has changed, and of it only its run, which has left its instruction, and its risers. -/
structure StopsSequencer (l : Nat) (s t : State) : Prop where
  frame : t = { s with cores := t.cores }
  others : ∀ k, k ≠ l → getCore t k = getCore s k
  core : { getCore t l with run := (getCore s l).run, risers := (getCore s l).risers } = getCore s l
  run : (getCore t l).run = (getCore s l).run.map (fun r => { r with holding := false, waiting := false })

theorem stopsSequencer (s : State) (l : Nat) : StopsSequencer l s (stopSequencer s l) := by
  unfold stopSequencer
  split
  case h_1 r hr =>
    split
    · refine ⟨rfl, fun k hk => ?_, ?_, ?_⟩
      · rw [modRun, getCore_modCore_ne _ hk, leaveRisers, getCore_modCore_ne _ hk]
      · rw [modRun, getCore_modCore, leaveRisers, getCore_modCore]
      · rw [modRun, getCore_modCore, leaveRisers, getCore_modCore]
    case isFalse hidle =>
      obtain ⟨hw, hh⟩ : r.waiting = false ∧ r.holding = false := by simpa using hidle
      refine ⟨rfl, fun _ _ => rfl, rfl, ?_⟩
      rw [hr]
      cases r
      cases hw
      cases hh
      rfl
  case h_2 hr => exact ⟨rfl, fun _ _ => rfl, rfl, by rw [hr]; rfl⟩

/-- A site that is not under test is taken when the die has one. -/
theorem takeSpare_free {s : State} {die : Nat} (h : (spareSites s die).any (fun y => !s.fence.testing.any (fun t => t.1 = y)) = true) :
    ∃ site, takeSpare s die = some (site, bumpFree s) ∧ site ∈ spareSites s die ∧ ∀ y ∈ s.fence.testing, y.1 ≠ site := by
  obtain ⟨y, hy, hfree⟩ := List.any_eq_true.1 h
  let free := (spareSites s die).filter (fun x => !s.fence.testing.any (fun t => t.1 = x))
  have hne : free ≠ [] := List.ne_nil_of_mem (List.mem_filter.2 ⟨hy, hfree⟩)
  have hlt : (Config.freeWord s.free).toNat % free.length < free.length := Nat.mod_lt _ (List.length_pos_iff.2 hne)
  have hmem : free.getD ((Config.freeWord s.free).toNat % free.length) 0 ∈ free := by
    rw [List.getD_eq_getElem _ _ hlt]
    exact List.getElem_mem hlt
  obtain ⟨hspare, htest⟩ := List.mem_filter.1 hmem
  have htest' : s.fence.testing.any (fun t => t.1 = free.getD ((Config.freeWord s.free).toNat % free.length) 0) = false := by
    simpa using htest
  exact ⟨_, if_pos hne, hspare, fun t ht => of_decide_eq_false (Bool.eq_false_of_not_eq_true (List.any_eq_false.1 htest' t ht))⟩

/-- At the stop the die's fence takes a reserve, and the transplant may begin. -/
theorem exec_fenceStop_spare {s : State} {die : Nat} (ns : Nat) {x : Fence} (hon : fenceOn s die = some x) (hstage : x.stage = 1)
    (hupd : runsUpdate s x.core = false)
    (hspare : (spareSites s die).any (fun y => !s.fence.testing.any (fun t => t.1 = y)) = true) :
    ∃ site, site ∈ spareSites s die ∧ (∀ y ∈ s.fence.testing, y.1 ≠ site) ∧ exec (.fenceStopComplete die ns) s
      = .next (modFence (bumpFree (stopSequencer s x.core)) die (fun y => { y with stage := 2, newSite := some site, stopNs := ns })) := by
  obtain ⟨hframe, -, -, hrun⟩ := stopsSequencer s x.core
  have hdrop : dropUpdate (stopSequencer s x.core) x.core = stopSequencer s x.core := by
    have hupd' : runsUpdate (stopSequencer s x.core) x.core = false := by
      rw [runsUpdate, hrun, Option.any_map]
      exact hupd
    rw [dropUpdate, hupd']
    rfl
  have hspares : spareSites (stopSequencer s x.core) die = spareSites s die := by
    rw [hframe]
    rfl
  have htesting : (stopSequencer s x.core).fence = s.fence := by rw [hframe]
  obtain ⟨site, htake, hsite, htest⟩ := takeSpare_free (s := stopSequencer s x.core) (die := die) (by rwa [hspares, htesting])
  refine ⟨site, hspares ▸ hsite, htesting ▸ htest, ?_⟩
  change execFenceStopComplete die ns s = _
  simp only [execFenceStopComplete, hon, hstage, hdrop, htake, ne_eq, not_true_eq_false, if_false]

/-! ## Held descriptors end (R135) -/

/-- Nothing differs but cores, grants, records and free values. -/
def GrantWork (s t : State) : Prop := t = { s with cores := t.cores, power := t.power, tel := t.tel, free := t.free }

theorem GrantWork.trans {s t u : State} (h : GrantWork s t) (k : GrantWork t u) : GrantWork s u :=
  Eq.trans k (congrArg (fun y : State => { y with cores := u.cores, power := u.power, tel := u.tel, free := u.free }) h)

theorem GrantWork.fence {s t : State} (h : GrantWork s t) : t.fence = s.fence := by
  unfold GrantWork at h
  rw [h]

/-- Held descriptors of a core end: no descriptor comes, and its instruction store and its item stay. -/
structure EndsHeld (l : Nat) (s t : State) : Prop where
  frame : GrantWork s t
  instr : (getCore t l).instr = (getCore s l).instr
  run : (getCore t l).run = (getCore s l).run
  jobs : ∀ a j, (getEngine (getCore t l) a).job = some j → ∃ i, (getEngine (getCore s l) a).job = some i ∧ i.stage = j.stage

theorem EndsHeld.refl (l : Nat) (s : State) : EndsHeld l s s := ⟨rfl, rfl, rfl, fun _ j hj => ⟨j, hj, rfl⟩⟩

theorem EndsHeld.trans {l : Nat} {s t u : State} (h : EndsHeld l s t) (k : EndsHeld l t u) : EndsHeld l s u := by
  refine ⟨h.frame.trans k.frame, k.instr.trans h.instr, k.run.trans h.run, fun a j hj => ?_⟩
  obtain ⟨i, hi, hij⟩ := k.jobs a j hj
  obtain ⟨i', hi', hii⟩ := h.jobs a i hi
  exact ⟨i', hi', hii.trans hij⟩

theorem endsHeld_recorded {s t : State} (h : Recorded s t) (l : Nat) : EndsHeld l s t := by
  rw [h.eq]
  exact ⟨rfl, rfl, rfl, fun _ j hj => ⟨j, hj, rfl⟩⟩

/-- A change of the core that keeps its instruction store, its item and its engines. -/
theorem endsHeld_modCore (s : State) (l : Nat) {f : Core → Core}
    (h : ∀ x, (f x).instr = x.instr ∧ (f x).run = x.run ∧ (f x).engines = x.engines) : EndsHeld l s (modCore s l f) := by
  obtain ⟨hinstr, hrun, hengines⟩ := h (getCore s l)
  refine ⟨rfl, ?_, ?_, fun a j hj => ⟨j, ?_, rfl⟩⟩
  · rwa [getCore_modCore]
  · rwa [getCore_modCore]
  · rw [getCore_modCore, getEngine, hengines] at hj
    exact hj

theorem engine_setJob (x : Core) (e a : Nat) (j : Option Job) :
    (getEngine (setJob x e j) a).job = if a = e then j else (getEngine x a).job := by
  rw [getEngine, setJob, setEngine]
  split
  case isTrue ha => rw [ha, tget_tput_same]
  case isFalse ha => rw [tget_tput_ne _ _ ha]; rfl

theorem endsHeld_modJob (s : State) (l e : Nat) {f : Job → Job} (h : ∀ j, (f j).stage = j.stage) : EndsHeld l s (modJob s l e f) := by
  refine ⟨rfl, ?_, ?_, fun a j hj => ?_⟩
  · rw [modJob, getCore_modCore]
    rfl
  · rw [modJob, getCore_modCore]
    rfl
  · rw [modJob, getCore_modCore, engine_setJob] at hj
    split at hj
    case isTrue ha =>
      obtain ⟨i, hi, rfl⟩ := Option.map_eq_some_iff.1 hj
      exact ⟨i, ha ▸ hi, (h i).symm⟩
    case isFalse => exact ⟨j, hj, rfl⟩

/-- Rows that are written keep all of a core but its accumulator store. -/
theorem foldl_accWrite (a : Nat) (row : Nat → Nat) (vs : Nat → List Word32) (ms : List Nat) (x : Core) :
    (ms.foldl (fun x m => accWrite x a (row m) (vs m)) x).instr = x.instr
      ∧ (ms.foldl (fun x m => accWrite x a (row m) (vs m)) x).run = x.run
      ∧ (ms.foldl (fun x m => accWrite x a (row m) (vs m)) x).engines = x.engines := by
  induction ms generalizing x with
  | nil => exact ⟨rfl, rfl, rfl⟩
  | cons m r ih => exact ih (accWrite x a (row m) (vs m))

theorem endsHeld_spoilRows (s : State) (l a : Nat) (j : Job) : EndsHeld l s (spoilRows s l a j) := by
  unfold spoilRows
  split
  · have hrows := endsHeld_modCore s l fun x => foldl_accWrite a (aAccRow j.desc + ·)
      (fun m => (List.range (aCols j.desc)).map (fun n => (Config.freeWord (s.free + 128 * m + n)).setWidth 32)) (List.range (aRows j.desc)) x
    exact ⟨rfl, hrows.instr, hrows.run, hrows.jobs⟩
  · exact .refl l s

theorem endsHeld_overflowDross (s : State) (l a : Nat) (j : Job) : EndsHeld l s (overflowDross s l a j) := by
  unfold overflowDross
  split
  · exact .refl l s
  · exact (endsHeld_modJob s l a (f := fun j => { j with ovf := (0, 0, 0) }) fun _ => rfl).trans
      (endsHeld_recorded (recorded_raiseEv _ _ _ _ _ _ _) l)

theorem leaveEngine_spec (s : State) (l e : Nat) (j : Job) :
    EndsHeld l s (leaveEngine s l e j) ∧ (getEngine (getCore (leaveEngine s l e j) l) e).job = none := by
  unfold leaveEngine
  extract_lets u kept v
  have hu : EndsHeld l s u := by
    unfold u
    split
    · exact endsHeld_spoilRows s l e j
    · exact .refl l s
  have hv : EndsHeld l u v := by
    unfold v
    split
    · exact endsHeld_modCore u l fun _ => ⟨rfl, rfl, rfl⟩
    · exact .refl l u
  have hjob : ∀ a, (getEngine (getCore (modCore v l (fun x => dropBreaches (setJob x e none))) l) a).job
      = if a = e then none else (getEngine (getCore v l) a).job := fun a => by
    rw [getCore_modCore]
    exact engine_setJob (getCore v l) e a none
  refine ⟨(hu.trans hv).trans ⟨rfl, ?_, ?_, fun a j hj => ⟨j, ?_, rfl⟩⟩, (hjob e).trans (if_pos rfl)⟩
  · rw [getCore_modCore]
    rfl
  · rw [getCore_modCore]
    rfl
  · rw [hjob] at hj
    split at hj
    · exact absurd hj nofun
    · exact hj

theorem engine_rescaled (code : Nat) (x : Core) (a : Nat) :
    (getEngine (x.rescaled code) a).job = (getEngine x a).job.map (Job.rescaled code) :=
  congrArg Engine.job (tget_map ({} : Engine) (fun g : Engine => { g with job := g.job.map (Job.rescaled code), ahead := g.ahead.map (Job.rescaled code) })
    rfl x.engines a)

theorem stage_rescaled (code : Nat) (j : Job) : (j.rescaled code).stage = j.stage := by
  unfold Job.rescaled
  split <;> rfl

theorem endsHeld_settleRail (s : State) (l : Nat) : EndsHeld l s (settleRail s) := by
  rcases settleRail_cases s with h | ⟨code, h⟩
  · rw [h]
    exact .refl l s
  · rw [h]
    refine ⟨rfl, ?_, ?_, fun a j hj => ?_⟩
    · rw [getCore_rescale]
      rfl
    · rw [getCore_rescale]
      rfl
    · rw [getCore_rescale, engine_rescaled] at hj
      obtain ⟨i, hi, rfl⟩ := Option.map_eq_some_iff.1 hj
      exact ⟨i, hi, (stage_rescaled code i).symm⟩

theorem endsHeld_returnGrant (s : State) (l w : Nat) : EndsHeld l s (returnGrant s l w) :=
  (endsHeld_modCore s l (f := fun x => { x with reservoir := x.reservoir + min w (8 - x.reservoir) }) fun _ => ⟨rfl, rfl, rfl⟩).trans
    (endsHeld_settleRail _ l)

/-- The array holds no descriptor after a mismatch (R135). -/
def NotHeld (s : State) (l a : Nat) : Prop := ∀ j, (getEngine (getCore s l) a).job = some j → j.stage ≠ 6

theorem EndsHeld.notHeld {l a : Nat} {s t : State} (h : EndsHeld l s t) (hs : NotHeld s l a) : NotHeld t l a := fun j hj => by
  obtain ⟨i, hi, hij⟩ := h.jobs a j hj
  exact hij ▸ hs i hi

theorem endHeldJob_of_notHeld {s : State} {l a : Nat} (h : NotHeld s l a) : endHeldJob s l a = s := by
  unfold endHeldJob
  split
  case h_1 j hj => exact if_pos (h j hj)
  case h_2 => rfl

theorem endHeldJob_spec (s : State) (l a : Nat) : EndsHeld l s (endHeldJob s l a) ∧ NotHeld (endHeldJob s l a) l a := by
  by_cases h : NotHeld s l a
  · rw [endHeldJob_of_notHeld h]
    exact ⟨.refl l s, h⟩
  · obtain ⟨j, hj, hstage⟩ : ∃ j, (getEngine (getCore s l) a).job = some j ∧ j.stage = 6 := by simpa [NotHeld] using h
    obtain ⟨hleave, hnone⟩ := leaveEngine_spec (overflowDross s l a j) l a j
    have hfree : NotHeld (leaveEngine (overflowDross s l a j) l a j) l a := fun i hi => absurd (hnone.symm.trans hi) nofun
    have hends := (endsHeld_overflowDross s l a j).trans hleave
    simp only [endHeldJob, hj, hstage, ne_eq, not_true_eq_false, if_false]
    split
    · exact ⟨hends, hfree⟩
    · have hgrant := endsHeld_returnGrant (leaveEngine (overflowDross s l a j) l a j) l j.granted
      exact ⟨hends.trans hgrant, hgrant.notHeld hfree⟩

theorem endHeld_spec (s : State) (l : Nat) : EndsHeld l s (endHeld s l) ∧ ∀ a < 2, NotHeld (endHeld s l) l a := by
  obtain ⟨hends, hzero⟩ := endHeldJob_spec s l 0
  obtain ⟨hends', hone⟩ := endHeldJob_spec (endHeldJob s l 0) l 1
  refine ⟨hends.trans hends', fun a ha => ?_⟩
  obtain rfl | rfl : a = 0 ∨ a = 1 := by omega
  · exact hends'.notHeld hzero
  · exact hone

theorem endHeld_of_notHeld {s : State} {l : Nat} (h : ∀ a < 2, NotHeld s l a) : endHeld s l = s := by
  rw [endHeld, endHeldJob_of_notHeld (h 0 (by decide)), endHeldJob_of_notHeld (h 1 (by decide))]

end Sys2Proof.Machine
end

section
/-! Fences of cores (R380 to R389, R464): withdrawal, transplant, binding, CORE_FENCE and the store words. -/

namespace Sys2Proof.Machine

open Sys2Proof.Claims

/-! ## FENCE_STOP_COMPLETE without a reserve (R389) -/

theorem getCore_withdrawGroup (s : State) (n k : Nat) :
    getCore (withdrawGroup s n) k = { getCore s k with groups := (getCore s k).groups.filter (fun x => x.1 ≠ n) } :=
  getCore_mapCores (fun c => { c with groups := c.groups.filter (fun x => x.1 ≠ n) }) rfl rfl k

/-- Every group of a list is undefined after their withdrawal, and nothing else changes but the rings; a core that is clear stays so. -/
theorem foldl_withdrawGroup (gs : List (Nat × Group)) (s : State) :
    let t := gs.foldl (fun s g => withdrawGroup s g.1) s
    t = { s with groups := t.groups, rings := t.rings, cores := t.cores } ∧ (∀ k, getCore s k = {} → getCore t k = {})
      ∧ ∀ g, (g ∈ gs.map Prod.fst ∨ (getGroup s g).defined = false) → (getGroup t g).defined = false := by
  induction gs generalizing s with
  | nil => exact ⟨rfl, fun _ h => h, fun g h => h.resolve_left List.not_mem_nil⟩
  | cons n r ih =>
    obtain ⟨hframe, hclear, hgone⟩ := ih (withdrawGroup s n.1)
    refine ⟨hframe, fun k hk => hclear k ?_, fun g hg => hgone g ?_⟩
    · rw [getCore_withdrawGroup, hk]
      rfl
    · by_cases hgn : g = n.1
      · have hempty : getGroup (withdrawGroup s n.1) g = {} := hgn ▸ tget_tput_same _ _ _ _
        rw [hempty]
        exact .inr rfl
      · have hsame : getGroup (withdrawGroup s n.1) g = getGroup s g := tget_tput_ne _ _ hgn _
        rw [hsame]
        exact hg.imp_left fun h => (List.mem_cons.1 h).resolve_left hgn

/-- A group that names a core stands in the group table. -/
theorem mem_groups_of_contains {s : State} {g l : Nat} (h : (groupCores (getGroup s g).params).contains l = true) :
    g ∈ (s.groups.filter (fun g => (groupCores g.2.params).contains l)).map Prod.fst := by
  rcases tget_default_or_mem {} s.groups g with hdefault | hmem
  · have hnone : groupCores ({} : Group).params = [] := by decide
    rw [getGroup, hdefault, hnone] at h
    exact absurd h (by simp)
  · exact List.mem_map.2 ⟨(g, getGroup s g), List.mem_filter.2 ⟨hmem, h⟩, rfl⟩

/-- A core with no item is clear after its items have ended. -/
theorem withdrawItems_idle {s : State} {l : Nat} (hrun : (getCore s l).run = none) (hqueue : (getCore s l).queue = [])
    (hhub : (getCore s l).hubItems = []) : GrantWork s (withdrawItems s l) ∧ getCore (withdrawItems s l) l = {} := by
  let u := { setCore (endHeld s l) l {} with
    power := { (endHeld s l).power with waiting := (endHeld s l).power.waiting.filter (fun w => w.1 ≠ l) } }
  have hitems : withdrawItems s l = settleRail u := by
    simp only [withdrawItems, hrun, hqueue, hhub, Option.toList_none, List.map_nil, List.append_nil, List.foldl_nil]
    rfl
  have hu : GrantWork (endHeld s l) u := rfl
  have hclear : getCore u l = {} := getCore_setCore _ _ _
  rw [hitems]
  refine ⟨((endHeld_spec s l).1.frame.trans hu).trans (endsHeld_settleRail u l).frame, ?_⟩
  rcases settleRail_cases u with h | ⟨code, h⟩
  · rw [h, hclear]
  · rw [h, getCore_rescale, hclear]
    rfl

/-- With no shot held for the core, none is dropped. -/
theorem dropHeld_none {s : State} {l : Nat} (h : s.route.heldShots.filter (fun y => y.shot.core = l) = []) :
    dropHeld s l = { s with route := { s.route with heldShots := s.route.heldShots.filter (fun y => y.shot.core ≠ l) } } := by
  unfold dropHeld releaseHeld
  rw [h]
  rfl

/-- The state in which the core of a fence stands withdrawn, its own state still there (R25, R389). -/
def unbound (s : State) (die : Nat) (x : Fence) : State :=
  { s with fence := { s.fence with
      active := s.fence.active.filter (fun a => a.1 ≠ die), withdrawn := insNat s.fence.withdrawn x.core
      fenced := insNat s.fence.fenced (siteOf s x.core), bound := s.fence.bound.filter (fun b => b.1 ≠ x.core) } }

/-- Every group that names the core is withdrawn. -/
def withdrawGroups (s : State) (l : Nat) : State :=
  (s.groups.filter (fun g => (groupCores g.2.params).contains l)).foldl (fun s g => withdrawGroup s g.1) s

theorem withdraw_eq (s : State) (die : Nat) (x : Fence) :
    withdraw s die x = endFenceCharges (raiseEv (withdrawGroups (dropHeld (withdrawItems (unbound s die x) x.core) x.core) x.core)
      Status.capacityShort 0 (coreSubject s x.core 0) 0 0 0) x 0 0xFF := rfl

theorem withdraw_idle {s : State} (die : Nat) {x : Fence} (hrun : (getCore s x.core).run = none) (hqueue : (getCore s x.core).queue = [])
    (hhub : (getCore s x.core).hubItems = []) (hheld : s.route.heldShots.filter (fun y => y.shot.core = x.core) = []) :
    let t := withdraw s die x
    t.fence = (unbound s die x).fence ∧ getCore t x.core = {} ∧ (∀ c q, x.charges = [(c, q)] → Reports s t c q 0 0xFF)
      ∧ ∀ g, (groupCores (getGroup s g).params).contains x.core = true → (getGroup t g).defined = false := by
  obtain ⟨hwork, hclear⟩ := withdrawItems_idle (s := unbound s die x) hrun hqueue hhub
  rw [withdraw_eq]
  generalize withdrawItems (unbound s die x) x.core = u at hwork hclear
  have hnone : u.route.heldShots.filter (fun y => y.shot.core = x.core) = [] := by
    rw [hwork]
    exact hheld
  rw [dropHeld_none hnone]
  generalize hv : { u with route := { u.route with heldShots := u.route.heldShots.filter (fun y => y.shot.core ≠ x.core) } } = v
  obtain ⟨hgroups, hstill, hgone⟩ := foldl_withdrawGroup (v.groups.filter (fun g => (groupCores g.2.params).contains x.core)) v
  change withdrawGroups v x.core = _ at hgroups
  generalize hw : withdrawGroups v x.core = w at hgroups
  have hrecord := recorded_raiseEv w Status.capacityShort 0 (coreSubject s x.core 0) 0 0 0
  generalize raiseEv w Status.capacityShort 0 (coreSubject s x.core 0) 0 0 0 = z at hrecord
  have hctxs : z.ctxs = s.ctxs := by
    rw [hrecord.eq, hgroups, ← hv, hwork]
    rfl
  have hfence : z.fence = (unbound s die x).fence := by
    rw [hrecord.eq, hgroups, ← hv, hwork]
  have hcore : getCore z x.core = {} := by
    rw [hrecord.eq, ← hw]
    exact hstill x.core (hv ▸ hclear)
  dsimp only
  refine ⟨?_, ?_, fun c q h => endFenceCharges_reports h hctxs 0 0xFF, fun g hg => ?_⟩
  · rw [endFenceCharges_eq]
    exact hfence
  · rw [endFenceCharges_eq]
    exact hcore
  · rw [endFenceCharges_eq, hrecord.eq, ← hw]
    have hgroup : getGroup v g = getGroup s g := by
      rw [← hv, hwork]
      rfl
    exact hgone g (.inl (mem_groups_of_contains (hgroup ▸ hg)))

theorem takeSpare_none {s : State} {die : Nat} (h : spareSites s die = []) : takeSpare s die = none := by
  have hfind : s.fence.testing.find? (fun t => ([] : List Nat).contains t.1) = none := List.find?_eq_none.2 fun _ _ => by simp
  simp only [takeSpare, h, List.filter_nil, ne_eq, not_true_eq_false, if_false, hfind]

/-- At the stop the core of a die with no reserve is withdrawn. -/
theorem exec_fenceStop_none {s : State} {die : Nat} (ns : Nat) {x : Fence} (hon : fenceOn s die = some x) (hstage : x.stage = 1)
    (hrun : (getCore s x.core).run = none) (hspare : spareSites s die = []) :
    exec (.fenceStopComplete die ns) s = .next (withdraw s die x) := by
  have hstop : dropUpdate (stopSequencer s x.core) x.core = s := by simp [dropUpdate, stopSequencer, runsUpdate, hrun]
  change execFenceStopComplete die ns s = _
  simp only [execFenceStopComplete, hon, hstage, hstop, takeSpare_none hspare, ne_eq, not_true_eq_false, if_false]

/-! ## The transplant (R385) -/

theorem exec_transplantComplete {s : State} {die : Nat} (ns : Nat) {x : Fence} (hon : fenceOn s die = some x) (hstage : x.stage = 2)
    (f : Finds) : exec (.transplantComplete die ns f) s = .next (modFence (copyStores f (loadReserve s x.core) x.core) die (fun y =>
      let c := getCore (copyStores f (loadReserve s x.core) x.core) x.core
      { y with stage := 3, moveNs := ns, badWords := c.spBad.length + c.accBad.length })) := by
  change execTransplantComplete die ns f s = _
  simp only [execTransplantComplete, hon, hstage, ne_eq, not_true_eq_false, if_false]

theorem copyStores_frame (f : Finds) (s : State) (l : Nat) : { copyStores f s l with cores := s.cores, tel := s.tel } = s := by
  unfold copyStores
  extract_lets sp bad u v
  have hu : Recorded s u := (recorded_bump s _ _ _).trans (recorded_bump _ _ _ _)
  have hv : Recorded u v := (recorded_bump u _ _ _).trans (recorded_bump _ _ _ _)
  have h := hu.trans hv
  clear_value v
  exact congrArg (fun y : State => { y with cores := s.cores }) h.frame

/-- What the reserve's core holds after the copy. -/
theorem getCore_copyStores (f : Finds) (s : State) (l : Nat) :
    getCore (copyStores f (loadReserve s l) l) l = { getCore s l with
      instr := (getCore s l).imgInstr, tables := (getCore s l).imgTables, ucode := s.sec.version.getD 5 0
      spBad := ((f.sp.filter Prod.snd).map (fun (e : Nat × Bool) => if winBase0 ≤ e.1 then e.1 - winAddr l 0 else e.1)).foldl insNat (getCore s l).spBad
      accBad := f.acc.foldl insNat (getCore s l).accBad } := by
  have hload : getCore (loadReserve s l) l = { getCore s l with
      instr := (getCore s l).imgInstr, tables := (getCore s l).imgTables, ucode := s.sec.version.getD 5 0 } := getCore_modCore _ _ _
  simp only [copyStores, getCore_modCore]
  exact congrArg (fun y : Core => { y with
    spBad := ((f.sp.filter Prod.snd).map (fun (e : Nat × Bool) => if winBase0 ≤ e.1 then e.1 - winAddr l 0 else e.1)).foldl insNat y.spBad
    accBad := f.acc.foldl insNat y.accBad }) hload

theorem getCore_copyStores_ne (f : Finds) (s : State) {l k : Nat} (h : k ≠ l) :
    getCore (copyStores f (loadReserve s l) l) k = getCore s k := by
  rw [copyStores, getCore_modCore_ne _ h]
  exact getCore_modCore_ne s h (fun x => { x with instr := x.imgInstr, tables := x.imgTables, ucode := s.sec.version.getD 5 0 })

end Sys2Proof.Machine
end

section
/-! A transplant that fails, the binding of a reserve, CORE_FENCE and the store words (R26, R102, R380 to R388, R464). -/

namespace Sys2Proof.Machine

open Sys2Proof.Claims

/-! ## A failed transplant (R385) -/

/-- A core whose stores the reserve holds zeroed. -/
def Core.zeroed (x : Core) : Core := { x with scratch := [], spBad := [], acc := [], accBad := [], risers := [], runners := [] }

theorem exec_transplantFailed {s : State} {die : Nat} (ns : Nat) {x : Fence} (hon : fenceOn s die = some x) (hstage : x.stage = 2)
    (hrun : (getCore s x.core).run = none) : exec (.transplantFailed die ns) s
      = .next (modFence (modCore (endHeld (loadReserve s x.core) x.core) x.core Core.zeroed) die (fun y => { y with stage := 5, moveNs := ns })) := by
  have hrun' : (getCore (modCore (endHeld (loadReserve s x.core) x.core) x.core Core.zeroed) x.core).run = none := by
    rw [getCore_modCore]
    refine (endHeld_spec (loadReserve s x.core) x.core).1.run.trans ?_
    rw [loadReserve, getCore_modCore]
    exact hrun
  change execTransplantFailed die ns s = _
  simp only [execTransplantFailed, hon, hstage, ne_eq, not_true_eq_false, if_false]
  split
  case h_1 r hr => exact absurd (hrun'.symm.trans hr) nofun
  case h_2 => rfl

/-! ## The binding (R26, R383, R388) -/

/-- A record enters a buffer with room, when none was lost before it. -/
theorem raiseEv_buffer {s : State} (st src subj w a b : Nat) (hlost : s.tel.lostNow = 0) (hroom : s.tel.buffer.length < 4096) :
    ∃ v : Event, (raiseEv s st src subj w a b).tel.buffer = s.tel.buffer ++ [v] ∧ v.status = st ∧ v.valA = a ∧ v.valB = b := by
  have hnone : enterOverflow s = s := by simp [enterOverflow, hlost]
  have hroom' : (bump s 0 0 1).tel.buffer.length < 4096 := hroom
  rw [raiseEv, hnone, enterEvent, if_pos hroom']
  exact ⟨_, rfl, rfl, rfl, rfl⟩

/-- Shots are delivered or held: nothing differs but outputs, the router and the ports. -/
def ShotWork (s t : State) : Prop := t = { s with out := t.out, route := t.route, lports := t.lports }

theorem ShotWork.trans {s t u : State} (h : ShotWork s t) (k : ShotWork t u) : ShotWork s u :=
  Eq.trans k (congrArg (fun y : State => { y with out := u.out, route := u.route, lports := u.lports }) h)

theorem shotWork_toCore (s : State) (p v k : Nat) (y : Shot) : ShotWork s (toCore s p v k y) := by
  unfold toCore
  split <;> rfl

theorem freeBuffer_eq (s : State) (p v k : Nat) : freeBuffer s p v k = { s with lports := (freeBuffer s p v k).lports } := by
  unfold freeBuffer oweCredit
  split
  · rfl
  · split <;> rfl

/-- A held shot goes to its core. -/
def releaseOne (s : State) (h : Held) : State :=
  if h.key = 0 then toCore s h.port h.lane h.key h.shot else freeBuffer (toCore s h.port h.lane h.key h.shot) h.port h.lane h.key

theorem shotWork_releaseOne (s : State) (h : Held) : ShotWork s (releaseOne s h) := by
  unfold releaseOne
  split
  · exact shotWork_toCore s _ _ _ _
  · refine (shotWork_toCore s h.port h.lane h.key h.shot).trans ?_
    have hfree := freeBuffer_eq (toCore s h.port h.lane h.key h.shot) h.port h.lane h.key
    rw [ShotWork, hfree]

/-- One that its core takes leaves the hub, and the router stays. -/
theorem releaseOne_open {s : State} {h : Held} (hopen : coreHeld s h.shot.core = false) :
    (releaseOne s h).out = .local_ h.shot :: s.out ∧ (releaseOne s h).route = s.route := by
  have hto : toCore s h.port h.lane h.key h.shot = emit s (.local_ h.shot) := by simp [toCore, hopen]
  unfold releaseOne
  rw [hto]
  split
  · exact ⟨rfl, rfl⟩
  · rw [freeBuffer_eq]
    exact ⟨rfl, rfl⟩

theorem shotWork_foldl_releaseOne (hs : List Held) (s : State) : ShotWork s (hs.foldl releaseOne s) := by
  induction hs generalizing s with
  | nil => rfl
  | cons h r ih => exact (shotWork_releaseOne s h).trans (ih _)

/-- Held shots that their cores take leave in order. -/
theorem foldl_releaseOne_open (hs : List Held) {s : State} (hopen : ∀ h ∈ hs, coreHeld s h.shot.core = false) :
    (hs.foldl releaseOne s).out = (hs.map (fun h => Output.local_ h.shot)).reverse ++ s.out ∧ (hs.foldl releaseOne s).route = s.route := by
  induction hs generalizing s with
  | nil => exact ⟨rfl, rfl⟩
  | cons h r ih =>
    obtain ⟨hout, hroute⟩ := releaseOne_open (hopen h List.mem_cons_self)
    have hwork := shotWork_releaseOne s h
    obtain ⟨hout', hroute'⟩ := ih (s := releaseOne s h) fun y hy => by
      rw [hwork]
      exact hopen y (List.mem_cons_of_mem _ hy)
    refine ⟨?_, hroute'.trans hroute⟩
    rw [List.foldl_cons, hout', hout]
    simp

/-- The state at a binding: the reserve bound, the failing site fenced, the engines going on (R22, R388). -/
def rebound (s : State) (die : Nat) (x : Fence) (site : Nat) : State :=
  let t := fenceRecord s x site
  modCore { t with fence := { t.fence with
    active := t.fence.active.filter (fun a => a.1 ≠ die), fenced := insNat t.fence.fenced (siteOf s x.core)
    bound := t.fence.bound.filter (fun b => b.1 ≠ x.core) ++ [(x.core, site)] } } x.core resumeHeld

/-- The held shots of a core leave to it. -/
def deliverShots (s : State) (l : Nat) : State :=
  (s.route.heldShots.filter (fun h => h.shot.core = l)).foldl releaseOne
    { s with route := { s.route with heldShots := s.route.heldShots.filter (fun h => h.shot.core ≠ l) } }

theorem exec_fenceBind {s : State} {die site : Nat} {x : Fence} (hon : fenceOn s die = some x) (hsite : x.newSite = some site)
    (hstage : x.stage = 3 ∨ x.stage = 5) : exec (.fenceBindComplete die) s
      = .next (endFenceCharges (settleCore (deliverShots (rebound s die x site) x.core) x.core) x 0 site) := by
  have hstage' : ¬(x.stage ≠ 3 ∧ x.stage ≠ 5) := by omega
  change execFenceBindComplete die s = _
  simp only [execFenceBindComplete, hon, hsite, if_neg hstage']
  rfl

theorem shotWork_deliverShots (s : State) (l : Nat) : ShotWork s (deliverShots s l) :=
  .trans (t := { s with route := { s.route with heldShots := s.route.heldShots.filter (fun h => h.shot.core ≠ l) } }) rfl
    (shotWork_foldl_releaseOne _ _)

/-- A core that is neither being rebound nor out of reach takes its held shots in order of arrival. -/
theorem deliverShots_open {s : State} {l : Nat} (hopen : coreHeld s l = false) :
    (deliverShots s l).out = ((s.route.heldShots.filter (fun h => h.shot.core = l)).map (fun h => Output.local_ h.shot)).reverse ++ s.out
      ∧ (deliverShots s l).route.heldShots = s.route.heldShots.filter (fun h => h.shot.core ≠ l) := by
  obtain ⟨hout, hroute⟩ := foldl_releaseOne_open (s.route.heldShots.filter (fun h => h.shot.core = l))
    (s := { s with route := { s.route with heldShots := s.route.heldShots.filter (fun h => h.shot.core ≠ l) } })
    fun h hh => by
      have hcore : h.shot.core = l := by simpa using (List.mem_filter.1 hh).2
      rw [hcore]
      exact hopen
  exact ⟨hout, congrArg Route.heldShots hroute⟩

theorem settleCore_idle {s : State} {l : Nat} (h : (getCore s l).run = none) : settleCore s l = s := by
  simp [settleCore, h]

/-- Nothing differs at the binding but the record, the fences and the core. -/
theorem rebound_eq (s : State) (die : Nat) (x : Fence) (site : Nat) : rebound s die x site = { s with
    tel := (fenceRecord s x site).tel, cores := (rebound s die x site).cores, fence := { s.fence with
      active := s.fence.active.filter (fun a => a.1 ≠ die), fenced := insNat s.fence.fenced (siteOf s x.core)
      bound := s.fence.bound.filter (fun b => b.1 ≠ x.core) ++ [(x.core, site)] } } := by
  have hrecord : Recorded s (fenceRecord s x site) := recorded_raiseEv _ _ _ _ _ _ _
  unfold rebound
  generalize fenceRecord s x site = u at hrecord
  rw [hrecord.eq]
  rfl

/-- What the binding leaves: the record at the end of the buffer, the core bound, its held shots on their way. -/
theorem fenceBind_spec {s : State} (die site : Nat) {x : Fence} (hrun : (getCore s x.core).run = none) :
    let t := endFenceCharges (settleCore (deliverShots (rebound s die x site) x.core) x.core) x 0 site
    t.mem = s.mem ∧ t.fence = (rebound s die x site).fence ∧ t.ident = s.ident ∧ t.tel = (fenceRecord s x site).tel
      ∧ t.out = (deliverShots (rebound s die x site) x.core).out ∧ t.route = (deliverShots (rebound s die x site) x.core).route
      ∧ ∀ c q, x.charges = [(c, q)] → Reports s t c q 0 site := by
  have heq := rebound_eq s die x site
  have hidle : (getCore (rebound s die x site) x.core).run = none := by
    have hrecord : Recorded s (fenceRecord s x site) := recorded_raiseEv _ _ _ _ _ _ _
    unfold rebound
    rw [getCore_modCore, hrecord.eq]
    exact hrun
  generalize rebound s die x site = r at heq hidle
  have hwork := shotWork_deliverShots r x.core
  generalize deliverShots r x.core = u at hwork
  have hsettle : settleCore u x.core = u := settleCore_idle (by rw [hwork]; exact hidle)
  intro t
  have ht : t = endFenceCharges u x 0 site := by
    rw [← hsettle]
  have hctxs : u.ctxs = s.ctxs := by
    rw [hwork, heq]
  have hframe := endFenceCharges_eq u x 0 site
  rw [← ht] at hframe
  refine ⟨?_, ?_, ?_, ?_, ?_, ?_, fun c q h => ht ▸ endFenceCharges_reports h hctxs 0 site⟩
  · rw [hframe, hwork, heq]
  · rw [hframe, hwork]
  · rw [hframe, hwork, heq]
  · rw [hframe, hwork, heq]
  · rw [hframe]
  · rw [hframe]

/-! ## CORE_FENCE and the store words (R102, R380, R464) -/

theorem requestFence_frame (s : State) (l cause : Nat) (ch : List (Nat × Nat)) : { requestFence s l cause ch with fence := s.fence } = s := by
  unfold requestFence
  split
  · rfl
  · split
    · rfl
    · split <;> rfl

/-- An event of a fault class is counted, or requests a fence. -/
theorem noteFault_cases (s : State) (l cls : Nat) : ∃ fs t, t = { s with fence := { s.fence with faults := fs } }
    ∧ (noteFault s l cls = t ∨ noteFault s l cls = requestFence t l cls []) := by
  unfold noteFault
  extract_lets _ site n rest
  by_cases hn : faultLimit cls ≤ n
  · exact ⟨rest, _, rfl, .inr (if_pos hn)⟩
  · exact ⟨rest ++ [(site, cls, n)], _, rfl, .inl (if_neg hn)⟩

theorem noteFault_frame (s : State) (l cls : Nat) : { noteFault s l cls with fence := s.fence } = s := by
  obtain ⟨fs, t, rfl, h | h⟩ := noteFault_cases s l cls
  · rw [h]
  · rw [h]
    exact congrArg (fun y : State => { y with fence := s.fence }) (requestFence_frame { s with fence := { s.fence with faults := fs } } l cls [])

/-- A request for a bound core waits when no fence waits or is under way. -/
theorem requestFence_first {s : State} {l : Nat} (hbound : isBound s l = true) (hwaiting : s.fence.waiting = []) (hactive : s.fence.active = [])
    (cause : Nat) (ch : List (Nat × Nat)) :
    requestFence s l cause ch = { s with fence := { s.fence with waiting := [{ core := l, cause := cause, charges := ch }] } } := by
  simp [requestFence, hbound, hwaiting, hactive]

theorem modRunning_entry {s : State} {c q op : Nat} {e : Entry} (h : Sole s c q op e) (f : Entry → Entry) :
    f e ∈ (getCtx (modRunning s c q f) c).entries := by
  obtain ⟨hrun, hsole⟩ := h
  obtain ⟨hmem, hcseq, -, hdispatched, hopen, -⟩ := running_spec hrun
  obtain ⟨y, hy, hpass, hthere⟩ := exists_mem_updFirst (fun e => e.cseq = q && e.dispatched && e.st ≠ .finished) f hmem
    (by simp [hcseq, hdispatched, hopen])
  have hyq : y.cseq = q := by
    simp only [Bool.and_eq_true, decide_eq_true_eq] at hpass
    exact hpass.1.1
  have hye : y ∈ [e] := hsole ▸ List.mem_filter.2 ⟨hy, decide_eq_true hyq⟩
  rw [modRunning, getCtx_modCtx]
  exact List.mem_singleton.1 hye ▸ hthere

section
variable {s : State} {c q : Nat} {e : Entry} (hsole : Sole s c q 0x903 e) (hphase : e.phase = 0) (h7 : fld (pw e 0) 7 7 = 0)
  (h9 : fld (pw e 0) 63 9 = 0) (htail : tailZero e 8 = true)

include hsole hphase h7 h9 htail

/-- A CORE_FENCE whose fields are in order asks for its fence, unless its core is withdrawn or no reserve may take its place. -/
theorem exec_coreFence : exec (.coreFence c q) s = .next (
    let l := fld (pw e 0) 6 0
    if isBound s l = false then report s c q Status.coreWithdrawn 0
    else if spareSites s (dieOf l) = [] ∧ bitOf (pw e 0) 8 = false then report s c q Status.fenceNoReserve 0
    else modRunning (requestFence s l 5 [(c, q)]) c q (fun e => { e with phase := 1 })) := by
  obtain ⟨hrun, -⟩ := hsole
  change execCoreFence c q s = _
  rw [execCoreFence, onCharge_running _ hrun]
  by_cases hbound : isBound s (fld (pw e 0) 6 0) = true
  · by_cases hspare : spareSites s (dieOf (fld (pw e 0) 6 0)) = [] ∧ bitOf (pw e 0) 8 = false
    · simp [hphase, firstFail_cons, h7, h9, htail, hbound, hspare, Status.fenceNoReserve]
    · simp [hphase, firstFail_cons, h7, h9, htail, hbound, hspare]
  · simp [hphase, firstFail_cons, h7, h9, htail, hbound, Status.coreWithdrawn]

end

/-- The word that a reload takes from the image. -/
def Core.reloaded (x : Core) (store i : Nat) : Core :=
  if store = 0 then putInstr x i (tget (instrDefault x i) x.imgInstr i)
  else { x with tables := writeB x.tables (8 * i) (readB x.imgTables (8 * i) 8) }

theorem exec_storeReloaded {s : State} {l i : Nat} (store : Nat) (hbound : isBound s l = true) (hrestart : s.fence.restarting = false)
    (hub : hubUp s = true) (hi : i < 32768) :
    ∃ t, exec (.storeReloaded l store i false) s = .next t ∧ { t with cores := s.cores, tel := s.tel, fence := s.fence } = s
      ∧ t.cores = (modCore s l (Core.reloaded · store i)).cores := by
  let u := modCore s l (Core.reloaded · store i)
  let v := raiseEv (bumpCore u l 24 1) Status.storeReloaded 1 (coreSubject s l 0) 0 0 0
  have hexec : exec (.storeReloaded l store i false) s = .next (noteFault v l 4) := by
    change execStoreReloaded l store i false s = _
    have hlt : ¬32768 ≤ i := by omega
    simp [execStoreReloaded, hbound, hlt, hrestart, hub, u, v, Core.reloaded]
  have hrecord : Recorded u v := (recorded_bump u 1 (32 * l + 24) 1).trans (recorded_raiseEv _ _ _ _ _ _ _)
  have hcores : v.cores = u.cores := by rw [hrecord.eq]
  have hframe := noteFault_frame v l 4
  refine ⟨_, hexec, ?_, ?_⟩
  · have hv : { v with cores := s.cores, tel := s.tel, fence := s.fence } = s := by
      rw [hrecord.eq]
      rfl
    exact (congrArg (fun y : State => { y with cores := s.cores, tel := s.tel, fence := s.fence }) hframe).trans hv
  · exact (congrArg State.cores hframe).trans hcores

end Sys2Proof.Machine
end

section
/-! O49: the stages of a fence put together (R26, R102, R135, R380 to R389, R464). -/

namespace Sys2Proof.Machine

open Sys2Proof.Claims

/-- R382, R386: a waiting request begins its die's fence. -/
theorem fenceStart_begins {s : State} {die : Nat} {x : Fence} (hx : s.fence.waiting.find? (fun y => dieOf y.core = die) = some x)
    (hon : fenceOn s die = none) (hrestart : s.fence.restarting = false) (hub : hubUp s = true) (hbound : isBound s x.core = true)
    (hupd : runsUpdate s x.core = false) :
    ∃ t, exec (.fenceStart die) s = .next t ∧ t.fence.active = s.fence.active ++ [(die, { x with stage := 1, item := itemCode s x.core })]
      ∧ t.fence.waiting = s.fence.waiting.erase x ∧ t.tel = (bump s 0 13 1).tel ∧ { t with fence := s.fence, tel := s.tel } = s := by
  let u := { s with fence := { s.fence with waiting := s.fence.waiting.erase x } }
  let v := bump { u with fence := { u.fence with
    active := u.fence.active ++ [(die, { x with stage := 1, item := itemCode u x.core })] } } 0 13 1
  have hbound' : (!isBound u x.core) = false := congrArg (!·) hbound
  have hupd' : runsUpdate v x.core = false := hupd
  have hexec : exec (.fenceStart die) s = .next v := by
    change execFenceStart die s = _
    rw [execFenceStart, hx]
    exact congrArg _ ((if_neg (by simp [hon, hrestart, hub])).trans ((if_neg (Bool.eq_false_iff.1 hbound')).trans (if_neg (Bool.eq_false_iff.1 hupd'))))
  exact ⟨v, hexec, rfl, rfl, rfl, rfl⟩

section
variable {s : State} {die : Nat} (ns : Nat) {x : Fence} (hon : fenceOn s die = some x)

include hon

/-- R383, R384: at the stop a reserve is taken. -/
theorem fenceStop_takesReserve (hstage : x.stage = 1) (hupd : runsUpdate s x.core = false)
    (hspare : (spareSites s die).any (fun y => !s.fence.testing.any (fun t => t.1 = y)) = true) :
    ∃ t site, exec (.fenceStopComplete die ns) s = .next t ∧ site ∈ spareSites s die ∧ (∀ y ∈ s.fence.testing, y.1 ≠ site)
      ∧ fenceOn t die = some { x with stage := 2, newSite := some site, stopNs := ns } ∧ OnlyCore s t x.core ∧ t.mem = s.mem
      ∧ { getCore t x.core with run := (getCore s x.core).run, risers := (getCore s x.core).risers } = getCore s x.core
      ∧ (getCore t x.core).run = (getCore s x.core).run.map (fun r => { r with holding := false, waiting := false }) := by
  obtain ⟨site, hsite, htest, hexec⟩ := exec_fenceStop_spare ns hon hstage hupd hspare
  obtain ⟨hframe, hothers, hcore, hrun⟩ := stopsSequencer s x.core
  generalize stopSequencer s x.core = u at hexec hframe hothers hcore hrun
  have hmem : u.mem = s.mem := by rw [hframe]
  refine ⟨_, site, hexec, hsite, htest, ?_, ⟨hothers, hmem, ?_, ?_, ?_⟩, hmem, hcore, hrun⟩
  · have hon' : fenceOn (bumpFree u) die = some x := by
      rw [hframe]
      exact hon
    rw [fenceOn_modFence, hon']
    rfl
  · change u.ctxs = s.ctxs
    rw [hframe]
  · change u.links = s.links
    rw [hframe]
  · change u.lports = s.lports
    rw [hframe]

/-- R25, R389: with no reserve the core is withdrawn. -/
theorem fenceStop_withdraws (hstage : x.stage = 1) (hrun : (getCore s x.core).run = none) (hqueue : (getCore s x.core).queue = [])
    (hspare : spareSites s die = []) (hhub : (getCore s x.core).hubItems = [])
    (hheld : s.route.heldShots.filter (fun y => y.shot.core = x.core) = []) :
    ∃ t, exec (.fenceStopComplete die ns) s = .next t ∧ isBound t x.core = false ∧ t.fence.withdrawn = insNat s.fence.withdrawn x.core
      ∧ t.fence.fenced = insNat s.fence.fenced (siteOf s x.core) ∧ getCore t x.core = {}
      ∧ (∀ c q, x.charges = [(c, q)] → Reports s t c q 0 0xFF)
      ∧ ∀ g, (groupCores (getGroup s g).params).contains x.core = true → (getGroup t g).defined = false := by
  obtain ⟨hfence, hclear, hreports, hgone⟩ := withdraw_idle die hrun hqueue hhub hheld
  refine ⟨_, exec_fenceStop_none ns hon hstage hrun hspare, ?_, ?_, ?_, hclear, hreports, hgone⟩
  · have hwithdrawn : (withdraw s die x).fence.withdrawn.contains x.core = true := by
      rw [hfence]
      exact contains_insNat _ _
    rw [isBound, bindOf, if_pos (.inr hwithdrawn)]
  · rw [hfence]
    rfl
  · rw [hfence]
    rfl

/-- R385: the transplant takes stores and microcode from the Afiup's copies, marks the words that its reads find bad and leaves all else. -/
theorem transplantComplete_moves (hstage : x.stage = 2) (f : Finds) :
    ∃ t, exec (.transplantComplete die ns f) s = .next t ∧ { t with cores := s.cores, fence := s.fence, tel := s.tel } = s
      ∧ fenceOn t die = some { x with stage := 3, moveNs := ns,
                                      badWords := (getCore t x.core).spBad.length + (getCore t x.core).accBad.length }
      ∧ { getCore t x.core with spBad := (getCore s x.core).spBad, accBad := (getCore s x.core).accBad }
          = { getCore s x.core with instr := (getCore s x.core).imgInstr, tables := (getCore s x.core).imgTables,
                                    ucode := s.sec.version.getD 5 0 }
      ∧ (∀ w, w ∈ (getCore t x.core).accBad ↔ w ∈ (getCore s x.core).accBad ∨ w ∈ f.acc)
      ∧ (∀ w, w ∈ (getCore t x.core).spBad ↔ w ∈ (getCore s x.core).spBad
          ∨ ∃ y ∈ f.sp, y.2 = true ∧ w = if winBase0 ≤ y.1 then y.1 - winAddr x.core 0 else y.1)
      ∧ ∀ k, k ≠ x.core → getCore t k = getCore s k := by
  have hexec := exec_transplantComplete ns hon hstage f
  have hcore := getCore_copyStores f s x.core
  have hothers := fun k (hk : k ≠ x.core) => getCore_copyStores_ne f s hk
  have hcopied := copyStores_frame f (loadReserve s x.core) x.core
  generalize copyStores f (loadReserve s x.core) x.core = u at hexec hcore hothers hcopied
  have hframe : { u with cores := s.cores, tel := s.tel } = s := congrArg (fun y : State => { y with cores := s.cores }) hcopied
  have hon' : fenceOn u die = some x := by
    rw [← hframe] at hon
    exact hon
  have hfence := fenceOn_modFence u die (fun y =>
    { y with stage := 3, moveNs := ns, badWords := (getCore u x.core).spBad.length + (getCore u x.core).accBad.length })
  have hsame := modFence_frame u die (fun y =>
    { y with stage := 3, moveNs := ns, badWords := (getCore u x.core).spBad.length + (getCore u x.core).accBad.length })
  rw [hon', Option.map_some] at hfence
  generalize modFence u die _ = t at hexec hfence hsame
  have hcores : ∀ k, getCore t k = getCore u k := fun k => (congrArg (getCore · k) hsame :)
  refine ⟨t, hexec, ?_, ?_, ?_, fun w => ?_, fun w => ?_, fun k hk => (hcores k).trans (hothers k hk)⟩
  · exact (congrArg (fun y : State => { y with cores := s.cores, fence := s.fence, tel := s.tel }) hsame).trans
      (congrArg (fun y : State => { y with fence := s.fence }) hframe)
  · rw [hcores]
    exact hfence
  · rw [hcores, hcore]
  · rw [hcores, hcore]
    exact mem_foldl_insNat f.acc _ w
  · rw [hcores, hcore]
    rw [mem_foldl_insNat, List.mem_map]
    refine or_congr_right ⟨?_, ?_⟩
    · rintro ⟨y, hy, rfl⟩
      obtain ⟨hin, hbad⟩ := List.mem_filter.1 hy
      exact ⟨y, hin, hbad, rfl⟩
    · rintro ⟨y, hin, hbad, rfl⟩
      exact ⟨y, List.mem_filter.2 ⟨hin, hbad⟩, rfl⟩

/-- R135, R385: a failed transplant leaves zeros and ends a held descriptor. -/
theorem transplantFailed_zeroes (hstage : x.stage = 2) (hrun : (getCore s x.core).run = none) :
    ∃ t, exec (.transplantFailed die ns) s = .next t ∧ fenceOn t die = some { x with stage := 5, moveNs := ns }
      ∧ (getCore t x.core).scratch = [] ∧ (getCore t x.core).acc = [] ∧ (getCore t x.core).risers = []
      ∧ (getCore t x.core).instr = (getCore s x.core).imgInstr
      ∧ (∀ a < 2, ∀ j, (getEngine (getCore t x.core) a).job = some j → j.stage ≠ 6)
      ∧ ((∀ a < 2, ∀ j, (getEngine (getCore s x.core) a).job = some j → j.stage ≠ 6) →
          { t with cores := s.cores, fence := s.fence } = s ∧ ∀ k, k ≠ x.core → getCore t k = getCore s k) := by
  obtain ⟨hends, hfree⟩ := endHeld_spec (loadReserve s x.core) x.core
  have hexec := exec_transplantFailed ns hon hstage hrun
  have hheld : ∀ (_ : ∀ a < 2, NotHeld s x.core a), endHeld (loadReserve s x.core) x.core = loadReserve s x.core := fun hnone =>
    endHeld_of_notHeld fun a ha j hj => by
      rw [loadReserve, getCore_modCore] at hj
      exact hnone a ha j hj
  generalize endHeld (loadReserve s x.core) x.core = u at hends hfree hexec hheld
  have hcore := getCore_modCore u x.core Core.zeroed
  have hothers := fun k (hk : k ≠ x.core) => getCore_modCore_ne u hk Core.zeroed
  have hframe : { modCore u x.core Core.zeroed with cores := u.cores } = u := rfl
  generalize modCore u x.core Core.zeroed = v at hexec hcore hothers hframe
  have hon' : fenceOn v die = some x := by
    have hfence : v.fence = s.fence := (congrArg State.fence hframe :).trans hends.frame.fence
    rw [fenceOn, hfence]
    exact hon
  have hfence := fenceOn_modFence v die (fun y => { y with stage := 5, moveNs := ns })
  have hsame := modFence_frame v die (fun y => { y with stage := 5, moveNs := ns })
  rw [hon', Option.map_some] at hfence
  generalize modFence v die _ = t at hexec hfence hsame
  have hcores : ∀ k, getCore t k = getCore v k := fun k => (congrArg (getCore · k) hsame :)
  refine ⟨t, hexec, hfence, ?_, ?_, ?_, ?_, fun a ha j hj => ?_, fun hnone => ⟨?_, fun k hk => ?_⟩⟩
  · rw [hcores, hcore]
    rfl
  · rw [hcores, hcore]
    rfl
  · rw [hcores, hcore]
    rfl
  · rw [hcores, hcore]
    refine hends.instr.trans ?_
    rw [loadReserve, getCore_modCore]
  · rw [hcores, hcore] at hj
    exact hfree a ha j hj
  · have hu : { u with cores := s.cores } = s := by
      rw [hheld hnone]
      rfl
    exact (congrArg (fun y : State => { y with cores := s.cores, fence := s.fence }) hsame).trans
      ((congrArg (fun y : State => { y with cores := s.cores, fence := s.fence }) hframe).trans
        (congrArg (fun y : State => { y with fence := s.fence }) hu))
  · rw [hcores, hothers k hk, hheld hnone]
    exact getCore_modCore_ne s hk _

/-- R22, R26, R388: the binding writes its record, ends the charges with the new site and delivers the held shots in order. -/
theorem fenceBind_binds (site : Nat) (hsite : x.newSite = some site) (hstage : x.stage = 3 ∨ x.stage = 5) (hcore : x.core < 88)
    (hwithdrawn : s.fence.withdrawn.contains x.core = false) (hrun : (getCore s x.core).run = none) :
    ∃ t, exec (.fenceBindComplete die) s = .next t ∧ fenceOn t die = none ∧ s.mem = t.mem
      ∧ bindOf t x.core = { bound := true, fromReserve := s.ident.reserves.contains site, site := site }
      ∧ siteOf s x.core ∈ t.fence.fenced ∧ (∀ c q, x.charges = [(c, q)] → Reports s t c q 0 site)
      ∧ (s.tel.lostNow = 0 → s.tel.buffer.length < 4096 → ∃ v : Event, t.tel.buffer = s.tel.buffer ++ [v]
          ∧ v.status = (if x.stage = 5 then Status.transplantFailed else Status.coreFenced) ∧ v.valA = x.badWords
          ∧ v.valB = x.stopNs % 2 ^ 32 + x.moveNs % 2 ^ 32 * 2 ^ 32)
      ∧ (dieLost s (dieOf x.core) = false → (∀ y ∈ s.fence.active, y.2.core = x.core → y.1 = die) →
          t.out = ((s.route.heldShots.filter (fun h => h.shot.core = x.core)).map (fun h => Output.local_ h.shot)).reverse ++ s.out
            ∧ t.route.heldShots = s.route.heldShots.filter (fun h => h.shot.core ≠ x.core)) := by
  obtain ⟨hmem, hfence, hident, htel, hout, hroute, hreports⟩ := fenceBind_spec (s := s) die site hrun
  have heq := rebound_eq s die x site
  have hfence' := congrArg State.fence heq
  have hexec := exec_fenceBind hon hsite hstage
  have hopen := fun h => deliverShots_open (s := rebound s die x site) (l := x.core) h
  generalize deliverShots (rebound s die x site) x.core = u at hexec hmem hfence hident htel hout hroute hreports hopen
  generalize endFenceCharges (settleCore u x.core) x 0 site = t at hexec hmem hfence hident htel hout hroute hreports
  generalize rebound s die x site = z at heq hfence hfence' hopen
  refine ⟨t, hexec, ?_, hmem.symm, ?_, ?_, hreports, fun hlost hroom => ?_, fun hdie halone => ?_⟩
  · have hgone : (s.fence.active.filter (fun a => a.1 ≠ die)).find? (fun a => a.1 = die) = none :=
      List.find?_eq_none.2 fun a ha => by simpa using (List.mem_filter.1 ha).2
    rw [fenceOn, hfence, hfence']
    exact congrArg (Option.map Prod.snd) hgone
  · have hfind : (s.fence.bound.filter (fun b => b.1 ≠ x.core) ++ [(x.core, site)]).find? (fun e => e.1 = x.core) = some (x.core, site) := by
      have hgone : (s.fence.bound.filter (fun b => b.1 ≠ x.core)).find? (fun e => e.1 = x.core) = none :=
        List.find?_eq_none.2 fun b hb => by simpa using (List.mem_filter.1 hb).2
      rw [List.find?_append, hgone]
      simp
    have hin : ¬(88 ≤ x.core ∨ s.fence.withdrawn.contains x.core = true) := by
      rw [hwithdrawn]
      simpa using hcore
    rw [bindOf, hfence, hident, hfence']
    dsimp only
    rw [if_neg hin, hfind]
  · rw [hfence, hfence']
    exact (mem_insNat _ _ _).2 (.inl rfl)
  · obtain ⟨v, hv, hstatus, hvalA, hvalB⟩ := raiseEv_buffer (s := s) (if x.stage = 5 then Status.transplantFailed else Status.coreFenced) 0
      (coreSubject s x.core 0) (subjectWord x.core site 0 0 0 0 0 0 % 2 ^ 14 + x.cause % 8 * 2 ^ 16 + x.item % 8 * 2 ^ 20) x.badWords
      (x.stopNs % 2 ^ 32 + x.moveNs % 2 ^ 32 * 2 ^ 32) hlost hroom
    exact ⟨v, (congrArg Tel.buffer htel).trans hv, hstatus, hvalA, hvalB⟩
  · have hfree : coreHeld z x.core = false := by
      rw [heq]
      simp only [coreHeld, rebinding, Bool.or_eq_false_iff]
      refine ⟨List.any_eq_false.2 fun a ha => ?_, hdie⟩
      obtain ⟨hmem, hne⟩ := List.mem_filter.1 ha
      simpa using fun h => of_decide_eq_true hne (halone a hmem h)
    obtain ⟨hshots, hheld⟩ := hopen hfree
    rw [hout, hroute, hshots, hheld, heq]
    exact ⟨rfl, rfl⟩

end

/-- R102, R380: a reload takes one word from the image. -/
theorem storeReloaded_reloads {s : State} {l i : Nat} (st : Nat) (hbound : isBound s l = true) (hrestart : s.fence.restarting = false)
    (hub : hubUp s = true) (hi : i < 32768) :
    ∃ t, exec (.storeReloaded l st i false) s = .next t ∧ { t with cores := s.cores, tel := s.tel, fence := s.fence } = s
      ∧ (∀ k, k ≠ l → getCore t k = getCore s k)
      ∧ (st = 0 → getInstr (getCore t l) i = tget (instrDefault (getCore s l) i) (getCore s l).imgInstr i
          ∧ (∀ j, j ≠ i → getInstr (getCore t l) j = getInstr (getCore s l) j) ∧ (getCore t l).tables = (getCore s l).tables)
      ∧ (st ≠ 0 → readB (getCore t l).tables (8 * i) 8 = readB (getCore s l).imgTables (8 * i) 8 ∧ (getCore t l).instr = (getCore s l).instr
          ∧ ∀ j, (j < 8 * i ∨ 8 * i + 8 ≤ j) → tget 0 (getCore t l).tables j = tget 0 (getCore s l).tables j) := by
  obtain ⟨t, hexec, hframe, hcores⟩ := exec_storeReloaded st hbound hrestart hub hi
  have hcore : getCore t l = (getCore s l).reloaded st i := by
    rw [getCore, hcores]
    exact getCore_modCore s l (Core.reloaded · st i)
  refine ⟨t, hexec, hframe, fun k hk => ?_, fun hst => ?_, fun hst => ?_⟩
  · rw [getCore, hcores]
    exact getCore_modCore_ne s hk (Core.reloaded · st i)
  · rw [hcore, Core.reloaded, if_pos hst]
    exact ⟨instr_putInstr_same _ _ _, fun j hj => instr_putInstr_ne _ hj _, rfl⟩
  · have hlen := length_readB (getCore s l).imgTables (8 * i) 8
    rw [hcore, Core.reloaded, if_neg hst]
    refine ⟨?_, rfl, fun j hj => tget_writeB_outside _ _ _ _ (by rwa [hlen])⟩
    have hread := readB_writeB (getCore s l).tables (8 * i) (readB (getCore s l).imgTables (8 * i) 8)
    rwa [hlen] at hread

theorem storeReloaded_corrects {s : State} {l i : Nat} (st : Nat) (hbound : isBound s l = true) (hi : i < 32768) :
    exec (.storeReloaded l st i true) s = .next (bumpCore s l 23 1) := by
  change execStoreReloaded l st i true s = _
  simp [execStoreReloaded, hbound, hi]

/-- R464: a CORE_FENCE whose fields are in order is refused for a withdrawn core and for want of a reserve, else its fence is asked for. -/
theorem coreFence_asks {s : State} {c q : Nat} {e : Entry} (hsole : Sole s c q 0x903 e) (hphase : e.phase = 0) (h7 : fld (pw e 0) 7 7 = 0)
    (h9 : fld (pw e 0) 63 9 = 0) (htail : tailZero e 8 = true) :
    let l := fld (pw e 0) 6 0
    (isBound s l = false → exec (.coreFence c q) s = .next (report s c q Status.coreWithdrawn 0))
    ∧ (isBound s l = true → spareSites s (dieOf l) = [] → bitOf (pw e 0) 8 = false →
        exec (.coreFence c q) s = .next (report s c q Status.fenceNoReserve 0))
    ∧ (isBound s l = true → (spareSites s (dieOf l) ≠ [] ∨ bitOf (pw e 0) 8 = true) → s.fence.waiting = [] → s.fence.active = [] →
        ∃ t, exec (.coreFence c q) s = .next t ∧ t.fence.waiting = [{ core := l, cause := 5, charges := [(c, q)] }]
          ∧ { e with phase := 1 } ∈ (getCtx t c).entries ∧ { t with fence := s.fence, ctxs := s.ctxs } = s) := by
  intro l
  have hexec := exec_coreFence hsole hphase h7 h9 htail
  refine ⟨fun hbound => ?_, fun hbound hspare hforce => ?_, fun hbound hok hwaiting hactive => ?_⟩
  · exact hexec.trans (congrArg _ (if_pos hbound))
  · have hbound' : ¬isBound s l = false := by simp [hbound]
    exact hexec.trans (congrArg _ ((if_neg hbound').trans (if_pos ⟨hspare, hforce⟩)))
  · have hbound' : ¬isBound s l = false := by simp [hbound]
    have hok' : ¬(spareSites s (dieOf l) = [] ∧ bitOf (pw e 0) 8 = false) := fun h => hok.elim (· h.1) fun hforce => by simp [hforce] at h
    refine ⟨_, hexec.trans (congrArg _ ((if_neg hbound').trans (if_neg hok'))), ?_⟩
    rw [requestFence_first hbound hwaiting hactive]
    exact ⟨rfl, modRunning_entry (op := 0x903) hsole (fun e => { e with phase := 1 }), rfl⟩

end Sys2Proof.Machine

/-- Settles O49: each stage of a fence by the lemma of its command. -/
theorem fencesReplaceAndWithdrawCores : Obligations.FencesReplaceAndWithdrawCores := by
  intro s die ns x
  exact ⟨Sys2Proof.Machine.fenceStart_begins, fun hon => ⟨Sys2Proof.Machine.fenceStop_takesReserve ns hon,
    Sys2Proof.Machine.fenceStop_withdraws ns hon, Sys2Proof.Machine.transplantComplete_moves ns hon,
    Sys2Proof.Machine.transplantFailed_zeroes ns hon, Sys2Proof.Machine.fenceBind_binds hon⟩,
    fun _ _ _ hsole hphase h7 h9 htail => Sys2Proof.Machine.coreFence_asks hsole hphase h7 h9 htail,
    fun _ st _ => Sys2Proof.Machine.storeReloaded_corrects st, fun _ st _ => Sys2Proof.Machine.storeReloaded_reloads st, fun _ _ => rfl⟩

end

section
/-! The part of the state that the invariant of every step speaks of (R4, R43, R290), and the functions of the model that leave it as it
was: one equation for each, in the order of the model's files. -/

namespace Sys2Proof.Machine

open Sys2Proof.Claims

/-- The part of the state that the invariant of every step speaks of. -/
structure Spine where
  mem     : Tab Byte
  ident   : Ident
  pending : List Instr
  time    : Nat
  epoch   : Nat

/-- The spine of a state. -/
def spine (s : State) : Spine := ⟨s.mem, s.ident, s.pending, s.time, s.route.epoch⟩

@[simp] theorem spine_frame (s : State) (boot pins oscPs osc fabA fabB fabWin portA portB ctxs cores poison seed astep thr links lports protoLevel
    protoMin protoVer map groups colls ends rings mail step twin journal fence power sec tel repair bridgeA bridgeB out free) :
    spine { s with boot := boot, pins := pins, oscPs := oscPs, osc := osc, fabA := fabA, fabB := fabB, fabWin := fabWin, portA := portA,
                   portB := portB, ctxs := ctxs, cores := cores, poison := poison, seed := seed, astep := astep, thr := thr, links := links,
                   lports := lports, protoLevel := protoLevel, protoMin := protoMin, protoVer := protoVer, map := map, groups := groups,
                   colls := colls, ends := ends, rings := rings, mail := mail, step := step, twin := twin, journal := journal, fence := fence,
                   power := power, sec := sec, tel := tel, repair := repair, bridgeA := bridgeA, bridgeB := bridgeB, out := out, free := free }
      = spine s := rfl

@[simp] theorem spine_foldl {α : Type} {f : State → α → State} (h : ∀ s x, spine (f s x) = spine s) (l : List α) (s : State) :
    spine (l.foldl f s) = spine s := by
  induction l generalizing s with
  | nil => rfl
  | cons x r ih => rw [List.foldl_cons, ih, h]

@[simp] theorem spine_foldl_acc {α : Type} {f : Acc → α → Acc} (h : ∀ x a, spine (f x a).s = spine x.s) (l : List α) (x : Acc) :
    spine (l.foldl f x).s = spine x.s := by
  induction l generalizing x with
  | nil => rfl
  | cons a r ih => rw [List.foldl_cons, ih, h]

@[simp] theorem spine_ite (p : Prop) [Decidable p] (a b : State) : spine (if p then a else b) = if p then spine a else spine b :=
  apply_ite spine p a b

@[simp] theorem acc_ite (p : Prop) [Decidable p] (a b : Acc) : (if p then a else b).s = if p then a.s else b.s := apply_ite Acc.s p a b

/-- A fold whose every step keeps a view of the accumulator keeps it. -/
theorem foldl_spine {α β γ : Type} {f : β → α → β} (v : β → γ) (h : ∀ b x, v (f b x) = v b) (l : List α) (b : β) :
    v (l.foldl f b) = v b := by
  induction l generalizing b with
  | nil => rfl
  | cons x r ih => rw [List.foldl_cons, ih, h]

@[simp] theorem spine_route (s : State) (cur old next drainIn drainSent dieDrained windows mcast ret nacked heldShots holds waitDrain switchTime) :
    spine { s with route := { s.route with cur := cur, old := old, next := next, drainIn := drainIn, drainSent := drainSent,
                                           dieDrained := dieDrained, windows := windows, mcast := mcast, ret := ret, nacked := nacked,
                                           heldShots := heldShots, holds := holds, waitDrain := waitDrain, switchTime := switchTime } }
      = spine s := rfl

/-! ## Ops -/

@[simp] theorem spine_emit (s : State) (o : Output) : spine (emit s o) = spine s := by rfl

@[simp] theorem spine_bumpFree (s : State) : spine (bumpFree s) = spine s := by rfl

@[simp] theorem spine_setPort (s : State) (p : HostPort) (x : Port) : spine (setPort s p x) = spine s := by unfold setPort; split <;> simp

@[simp] theorem spine_setCtx (s : State) (c : Nat) (x : Ctx) : spine (setCtx s c x) = spine s := by rfl

@[simp] theorem spine_modCtx (s : State) (c : Nat) (f : Ctx → Ctx) : spine (modCtx s c f) = spine s := by rfl

@[simp] theorem spine_setCore (s : State) (l : Nat) (x : Core) : spine (setCore s l x) = spine s := by rfl

@[simp] theorem spine_modCore (s : State) (l : Nat) (f : Core → Core) : spine (modCore s l f) = spine s := by rfl

@[simp] theorem spine_setLink (s : State) (n : Nat) (x : Link) : spine (setLink s n x) = spine s := by rfl

@[simp] theorem spine_modLink (s : State) (n : Nat) (f : Link → Link) : spine (modLink s n f) = spine s := by rfl

@[simp] theorem spine_setLPort (s : State) (p : Nat) (x : LPort) : spine (setLPort s p x) = spine s := by rfl

@[simp] theorem spine_modLPort (s : State) (p : Nat) (f : LPort → LPort) : spine (modLPort s p f) = spine s := by rfl

@[simp] theorem spine_bump (s : State) (set i n : Nat) : spine (bump s set i n) = spine s := by rfl

@[simp] theorem spine_bumpCore (s : State) (l i n : Nat) : spine (bumpCore s l i n) = spine s := by rfl

@[simp] theorem spine_enterEvent (s : State) (e : Event) : spine (enterEvent s e) = spine s := by simp [enterEvent]

@[simp] theorem spine_enterOverflow (s : State) : spine (enterOverflow s) = spine s := by simp [enterOverflow]

@[simp] theorem spine_raiseEv (s : State) (status source subject where_ valA valB : Nat) :
    spine (raiseEv s status source subject where_ valA valB) = spine s := by simp [raiseEv]

@[simp] theorem spine_requestFence (s : State) (l cause : Nat) (charge : List (Nat × Nat)) : spine (requestFence s l cause charge) = spine s := by
  simp [requestFence]

@[simp] theorem spine_noteFault (s : State) (l cls : Nat) : spine (noteFault s l cls) = spine s := by simp [noteFault]

/-! ## ArrayDesc -/

@[simp] theorem spine_spoilRows (s : State) (l a : Nat) (j : Job) : spine (spoilRows s l a j) = spine s := by simp [spoilRows]

/-! ## Mem -/

@[simp] theorem spine_addCand (s : State) (key src : Nat) : spine (addCand s key src) = spine s := by simp [addCand]

@[simp] theorem spine_lastingUnit (x : Acc) (subj src u : Nat) : spine (lastingUnit x subj src u).s = spine x.s := by simp [lastingUnit]

@[simp] theorem spine_readUnit (f : Finds) (subj src : Nat) (x : Acc) (u : Nat) : spine (readUnit f subj src x u).s = spine x.s := by
  unfold readUnit
  (repeat' split) <;> simp

@[simp] theorem spine_readUnits (f : Finds) (subj : Nat) (x : Acc) (us : List Nat) : spine (readUnits f subj x us).s = spine x.s := by
  simp [readUnits]

@[simp] theorem spine_refuseRegion (s : State) (l master : Nat) (r : List (Nat × Word64)) (k : Kind) (a tw : Nat) :
    spine (refuseRegion s l master r k a tw) = spine s := by simp [refuseRegion]

@[simp] theorem spine_checkRegion (s : State) (l master : Nat) (k : Kind) (rs : List (Nat × Nat)) (tw : Nat) :
    spine (checkRegion s l master k rs tw).1 = spine s := by
  unfold checkRegion
  dsimp only
  (repeat' split) <;> simp

@[simp] theorem spine_lastingWord (x : Acc) (l master w : Nat) : spine (lastingWord x l master w).s = spine x.s := by simp [lastingWord]

@[simp] theorem spine_readWord (f : Finds) (l master : Nat) (x : Acc) (w : Nat) : spine (readWord f l master x w).s = spine x.s := by
  unfold readWord
  (repeat' split) <;> simp

@[simp] theorem spine_readWords (f : Finds) (l master : Nat) (x : Acc) (ws : List Nat) : spine (readWords f l master x ws).s = spine x.s := by
  simp [readWords]

@[simp] theorem spine_writeWord (f : Finds) (l master : Nat) (x : Acc) (a : Nat) (data : List Byte) :
    spine (writeWord f l master x a data).s = spine x.s := by simp [writeWord]

@[simp] theorem spine_writeSp (f : Finds) (l master : Nat) (x : Acc) (a : Nat) (data : List Byte) :
    spine (writeSp f l master x a data).s = spine x.s := by simp [writeSp]

@[simp] theorem spine_putSp (s : State) (l master a : Nat) (data : List Byte) : spine (putSp s l master a data) = spine s := by simp [putSp]

@[simp] theorem spine_readAt (f : Finds) (master subj : Nat) (x : Acc) (rs : List (Nat × Nat)) : spine (readAt f master subj x rs).s = spine x.s := by
  unfold readAt
  dsimp only
  (repeat' split) <;> simp

@[simp] theorem spine_patrolUnit (f : Finds) (corrected : Bool) (s : State) (a : Nat) : spine (patrolUnit f corrected s a) = spine s := by
  simp [patrolUnit]

/-! ## Charges -/

@[simp] theorem spine_modRunning (s : State) (c cseq : Nat) (f : Entry → Entry) : spine (modRunning s c cseq f) = spine s := by rfl

@[simp] theorem spine_report (s : State) (c cseq status result : Nat) : spine (report s c cseq status result) = spine s := by rfl

@[simp] theorem spine_joinSecure (s : State) (c : Nat) (e : Entry) : spine (joinSecure s c e) = spine s := by simp [joinSecure]

@[simp] theorem spine_deviceRegion (s : State) (a n : Nat) (k : Kind) : spine (deviceRegion s a n k).1 = spine s := by
  unfold deviceRegion
  split <;> simp

@[simp] theorem spine_raiseMsix (s : State) (p : HostPort) (v : Nat) : spine (raiseMsix s p v) = spine s := by simp [raiseMsix]

@[simp] theorem spine_writeRec (s : State) (c : Nat) (r : Rec) : spine (writeRec s c r) = spine s := by simp [writeRec]

@[simp] theorem spine_hostPut (s : State) (p : HostPort) (a : Nat) (d : List Byte) : spine (hostPut s p a d) = spine s := by simp [hostPut]

/-! ## Items -/

@[simp] theorem spine_finishItems (s : State) (c cseq : Nat) : spine (finishItems s c cseq) = spine s := by
  unfold finishItems
  (repeat' split) <;> simp

@[simp] theorem spine_placeItems (s : State) (c cseq : Nat) (ls : List Nat) (item : Nat → Item) : spine (placeItems s c cseq ls item) = spine s := by
  simp [placeItems]

@[simp] theorem spine_removeItems (s : State) (c cseq : Nat) (ls : List Nat) : spine (removeItems s c cseq ls) = spine s := by simp [removeItems]

@[simp] theorem spine_dropQueued (s : State) (c cseq : Nat) : spine (dropQueued s c cseq) = spine s := by simp [dropQueued]

@[simp] theorem spine_stopCharge (s : State) (c cseq : Nat) : spine (stopCharge s c cseq) = spine s := by simp [stopCharge]

@[simp] theorem spine_endItem (s : State) (l : Nat) : spine (endItem s l) = spine s := by unfold endItem; split <;> simp

/-! ## Telemetry -/

@[simp] theorem spine_clearOvf (s : State) (set : Nat) : spine (clearOvf s set) = spine s := by rfl

@[simp] theorem spine_modPhase (s : State) (f : PhaseRec → PhaseRec) : spine (modPhase s f) = spine s := by unfold modPhase; split <;> simp

@[simp] theorem spine_openPhase (s : State) (step : Nat) : spine (openPhase s step) = spine s := by rfl

@[simp] theorem spine_phaseTime (s : State) (i : Nat) : spine (phaseTime s i) = spine s := by simp [phaseTime]

@[simp] theorem spine_closePhase (s : State) (fin : Nat) : spine (closePhase s fin) = spine s := by rfl

@[simp] theorem spine_phaseRetire (s : State) (c : Nat) (e : Entry) : spine (phaseRetire s c e) = spine s := by simp [phaseRetire]

@[simp] theorem spine_phaseAdd (s : State) (q n : Nat) : spine (phaseAdd s q n) = spine s := by unfold phaseAdd; split <;> simp

@[simp] theorem spine_phaseBusy (s : State) (steps : Nat) : spine (phaseBusy s steps) = spine s := by unfold phaseBusy; split <;> simp

@[simp] theorem spine_phaseWait (s : State) (ns : Nat) : spine (phaseWait s ns) = spine s := by unfold phaseWait; split <;> simp

@[simp] theorem spine_eventMsix (s : State) (r : Ring) (severity : Nat) : spine (eventMsix s r severity) = spine s := by simp [eventMsix]

/-! ## Ladle -/

@[simp] theorem spine_rescale (s : State) (code : Nat) : spine (rescale s code) = spine s := by rfl

@[simp] theorem spine_settleRail (s : State) : spine (settleRail s) = spine s := by simp [settleRail]

@[simp] theorem spine_powerEvent (s : State) (status : Nat) : spine (powerEvent s status) = spine s := by simp [powerEvent]

@[simp] theorem spine_modJob (s : State) (l e : Nat) (f : Job → Job) : spine (modJob s l e f) = spine s := by rfl

@[simp] theorem spine_modCells (s : State) (l a : Nat) (f : Cells → Cells) : spine (modCells s l a f) = spine s := by rfl

@[simp] theorem spine_leaveEngine (s : State) (l e : Nat) (j : Job) : spine (leaveEngine s l e j) = spine s := by simp [leaveEngine]

@[simp] theorem spine_giveGrant (s : State) (l e w : Nat) (fromReservoir : Bool) : spine (giveGrant s l e w fromReservoir) = spine s := by
  unfold giveGrant
  split <;> simp

@[simp] theorem spine_drawOne (p : State × Nat) (l : Nat) : spine (drawOne p l).1 = spine p.1 := by
  unfold drawOne
  dsimp only
  (repeat' split) <;> simp

@[simp] theorem spine_drawBack (s : State) (need : Nat) : spine (drawBack s need) = spine s := by
  unfold drawBack
  split
  · rfl
  · exact foldl_spine (fun q : State × Nat => spine q.1) spine_drawOne _ _

@[simp] theorem spine_queueGrant (s : State) (l e : Nat) : spine (queueGrant s l e) = spine s := by simp [queueGrant]

@[simp] theorem spine_refill (s : State) : spine (refill s) = spine s := by simp [refill]

@[simp] theorem spine_returnGrant (s : State) (l w : Nat) : spine (returnGrant s l w) = spine s := by simp [returnGrant]

@[simp] theorem spine_settleExcess (s : State) : spine (settleExcess s) = spine s := by rfl

@[simp] theorem spine_setInput (s : State) (mv : Nat) (low high : Bool) : spine (setInput s mv low high) = spine s := by simp [setInput]

/-! ## Sequencer -/

@[simp] theorem spine_discardUnstarted (s : State) (l : Nat) : spine (discardUnstarted s l) = spine s := by simp [discardUnstarted]

@[simp] theorem spine_settleCore (s : State) (l : Nat) : spine (settleCore s l) = spine s := by
  unfold settleCore
  dsimp only
  (repeat' split) <;> simp

@[simp] theorem spine_modRun (s : State) (l : Nat) (f : Run → Run) : spine (modRun s l f) = spine s := by rfl

@[simp] theorem spine_goto (s : State) (l pc : Nat) : spine (goto s l pc) = spine s := by rfl

@[simp] theorem spine_next (s : State) (l : Nat) : spine (next s l) = spine s := by rfl

@[simp] theorem spine_hold (s : State) (l : Nat) : spine (hold s l) = spine s := by rfl

@[simp] theorem spine_setRiser (s : State) (l i : Nat) (r : Riser) : spine (setRiser s l i r) = spine s := by rfl

@[simp] theorem spine_startMover (s : State) (l m : Nat) : spine (startMover s l m) = spine s := by simp [startMover]

@[simp] theorem spine_grantWaiter (s : State) (l w : Nat) : spine (grantWaiter s l w) = spine s := by simp [grantWaiter]

@[simp] theorem spine_settleRiser (s : State) (l i n : Nat) : spine (settleRiser s l i n) = spine s := by
  induction n generalizing s with
  | zero => rfl
  | succ n ih => unfold settleRiser; dsimp only; (repeat' split) <;> simp [ih]

@[simp] theorem spine_settle (s : State) (l i : Nat) : spine (settle s l i) = spine s := by simp [settle]

@[simp] theorem spine_leaveRisers (s : State) (l : Nat) : spine (leaveRisers s l) = spine s := by rfl

@[simp] theorem spine_trap (s : State) (l status pc code valA : Nat) (own : Bool) : spine (trap s l status pc code valA own) = spine s := by
  unfold trap
  split <;> simp

@[simp] theorem spine_jobTrap (s : State) (l e : Nat) (j : Job) (status valA : Nat) (own : Bool) :
    spine (jobTrap s l e j status valA own) = spine s := by simp [jobTrap]

@[simp] theorem spine_engineTrap (s : State) (l e status valA : Nat) (own : Bool) : spine (engineTrap s l e status valA own) = spine s := by
  unfold engineTrap
  split <;> simp

@[simp] theorem spine_aheadTrap (s : State) (l e status valA : Nat) (own : Bool) : spine (aheadTrap s l e status valA own) = spine s := by
  unfold aheadTrap
  dsimp only
  (repeat' split) <;> simp

@[simp] theorem spine_faultRiser (s : State) (l i fault word subj : Nat) : spine (faultRiser s l i fault word subj) = spine s := by
  simp [faultRiser]

@[simp] theorem spine_signal (s : State) (l i c mode rnd word subj : Nat) : spine (signal s l i c mode rnd word subj) = spine s := by simp [signal]

@[simp] theorem spine_signalDone (s : State) (l i m : Nat) : spine (signalDone s l i m) = spine s := by simp [signalDone]

@[simp] theorem spine_applyWord (s : State) (l word subj : Nat) : spine (applyWord s l word subj) = spine s := by simp [applyWord]

@[simp] theorem spine_countIssue (s : State) (l : Nat) (r : Run) : spine (countIssue s l r) = spine s := by simp [countIssue]

/-! ## Runners -/

@[simp] theorem spine_setRunner (s : State) (l n : Nat) (r : Runner) : spine (setRunner s l n r) = spine s := by rfl

@[simp] theorem spine_headEntry (f : Finds) (s : State) (l n tw : Nat) : spine (headEntry f s l n tw).2.s = spine s := by
  unfold headEntry
  dsimp only
  (repeat' split) <;> simp

@[simp] theorem spine_dropEntry (s : State) (l n : Nat) : spine (dropEntry s l n) = spine s := by simp [dropEntry]

@[simp] theorem spine_resetRunner (s : State) (l n : Nat) : spine (resetRunner s l n) = spine s := by rfl

@[simp] theorem spine_pointerFault (s : State) (l n tw : Nat) : spine (pointerFault s l n tw) = spine s := by simp [pointerFault]

@[simp] theorem spine_flushRunner (s : State) (l n : Nat) : spine (flushRunner s l n) = spine s := by rfl

@[simp] theorem spine_writeRunCfg (s : State) (l n : Nat) (v : Word64) : spine (writeRunCfg s l n v) = spine s := by rfl

@[simp] theorem spine_writeRunSpill (s : State) (l n : Nat) (v : Word64) : spine (writeRunSpill s l n v) = spine s := by rfl

@[simp] theorem spine_refuseCfg (s : State) (l n reason c : Nat) : spine (refuseCfg s l n reason c) = spine s := by
  unfold refuseCfg
  (repeat' split) <;> simp

@[simp] theorem spine_applyRunner (s : State) (l n : Nat) : spine (applyRunner s l n) = spine s := by simp [applyRunner]

@[simp] theorem spine_applyRunners (s : State) (l : Nat) : spine (applyRunners s l) = spine s := by simp [applyRunners]

/-! ## EngineDesc -/

@[simp] theorem spine_regionTail (s : State) (l master : Nat) (rd wr : List (Nat × Nat)) (tw : Nat) :
    spine (regionTail s l master rd wr tw).1 = spine s := by
  unfold regionTail
  dsimp only
  (repeat' split) <;> simp

@[simp] theorem spine_arrCheck (s : State) (l a : Nat) (d : List Byte) (tw : Nat) : spine (arrCheck s l a d tw).1 = spine s := by
  unfold arrCheck
  split <;> simp

@[simp] theorem spine_vecCheck (s : State) (l : Nat) (d : List Byte) (tw : Nat) : spine (vecCheck s l d tw).1 = spine s := by
  unfold vecCheck
  dsimp only
  (repeat' split) <;> simp

@[simp] theorem spine_movCheck (s : State) (l m : Nat) (d : List Byte) (tw : Nat) : spine (movCheck s l m d tw).1 = spine s := by
  unfold movCheck
  dsimp only
  (repeat' split) <;> simp

/-! ## Engines -/

@[simp] theorem spine_joinRiser (s : State) (l m i : Nat) : spine (joinRiser s l m i) = spine s := by simp [joinRiser]

@[simp] theorem spine_admitHead (s : State) (l e : Nat) (d : List Byte) (tw addr : Nat) : spine (admitHead s l e d tw addr) = spine s := by
  have hv := spine_vecCheck s l d tw
  have hm := spine_movCheck s l (e - 3) d tw
  unfold admitHead
  (repeat' split) <;> simp_all

@[simp] theorem spine_fetchDesc (f : Finds) (s : State) (l e addr tw : Nat) : spine (fetchDesc f s l e addr tw).1 = spine s := by
  unfold fetchDesc
  dsimp only
  (repeat' split) <;> simp

@[simp] theorem spine_startHead (f : Finds) (s : State) (l e : Nat) : spine (startHead f s l e) = spine s := by
  unfold startHead
  dsimp only
  (repeat' split) <;> simp

@[simp] theorem spine_dispatch (f : Finds) (s : State) (l e : Nat) (r : Run) (addr : Nat) : spine (dispatch f s l e r addr) = spine s := by
  simp [dispatch]

@[simp] theorem spine_finishJob (s : State) (l e : Nat) : spine (finishJob s l e) = spine s := by rfl

@[simp] theorem spine_countDone (s : State) (l e : Nat) : spine (countDone s l e) = spine s := by simp [countDone]

@[simp] theorem spine_goOn (f : Finds) (s : State) (l e : Nat) : spine (goOn f s l e) = spine s := by
  unfold goOn
  dsimp only
  (repeat' split) <;> simp

@[simp] theorem spine_raiseDross (s : State) (step : Word64) (tensor block : Nat) (value : Word32) (count offset cls source core scale : Nat) :
    spine (raiseDross s step tensor block value count offset cls source core scale) = spine s := by simp [raiseDross]

/-! ## Arrays -/

@[simp] theorem spine_readPairs (f : Finds) (s : State) (l a : Nat) (ps : List Nat) : spine (readPairs f s l a ps).1 = spine s := by
  unfold readPairs
  dsimp only
  (repeat' split) <;> simp

@[simp] theorem spine_mergeRow (f : Finds) (s : State) (l a : Nat) (j : Job) (m : Nat) (ys : List Word32) :
    spine (mergeRow f s l a j m ys).1 = spine s := by
  unfold mergeRow
  dsimp only
  (repeat' split) <;> simp

@[simp] theorem spine_mergeRows (f : Finds) (l a m : Nat) (ys : List (List Word32)) (s : State) :
    spine (mergeRows f l a m ys s).1 = spine s := by
  induction ys generalizing s m with
  | nil => rfl
  | cons y r ih => unfold mergeRows; dsimp only; (repeat' split) <;> simp [ih]

@[simp] theorem spine_stagedDross (s : State) (l a : Nat) (j : Job) (y : List (List Word32)) : spine (stagedDross s l a j y) = spine s := by
  unfold stagedDross
  dsimp only
  (repeat' split) <;> simp

@[simp] theorem spine_overflowDross (s : State) (l a : Nat) (j : Job) : spine (overflowDross s l a j) = spine s := by simp [overflowDross]

@[simp] theorem spine_scaleDross (s : State) (l a : Nat) (j : Job) (cls block : Nat) : spine (scaleDross s l a j cls block) = spine s := by
  simp [scaleDross]

@[simp] theorem spine_xScaleDross (s : State) (l a : Nat) (j : Job) (g : Nat) : spine (xScaleDross s l a j g) = spine s := by simp [xScaleDross]

@[simp] theorem spine_wScaleDross (s : State) (l a : Nat) (j : Job) (kt : Nat) : spine (wScaleDross s l a j kt) = spine s := by simp [wScaleDross]

@[simp] theorem spine_modTaken (s : State) (l a : Nat) (behind : Bool) (f : Job → Job) : spine (modTaken s l a behind f) = spine s := by
  simp [modTaken]

@[simp] theorem spine_loadTile (f : Finds) (l a : Nat) (j : Job) (behind : Bool) (kt : Nat) (put : Cells → Tile → Cells) (x : Acc) :
    spine (loadTile f l a j behind kt put x).s = spine x.s := by simp [loadTile]

@[simp] theorem spine_placeTile (f : Finds) (l a : Nat) (j : Job) (x : Acc) : spine (placeTile f l a j x).s = spine x.s := by simp [placeTile]

@[simp] theorem spine_loadNext (f : Finds) (l a : Nat) (j : Job) (x : Acc) : spine (loadNext f l a j x).s = spine x.s := by simp [loadNext]

@[simp] theorem spine_arrayTrap (s : State) (l a : Nat) (j : Job) (status : Nat) (own : Bool) : spine (arrayTrap s l a j status own) = spine s := by
  simp [arrayTrap]

@[simp] theorem spine_latchJob (s : State) (l a : Nat) (j : Job) (behind : Bool) : spine (latchJob s l a j behind) = spine s := by
  have h := spine_arrCheck s l a j.desc (jobTrapWord j)
  unfold latchJob
  split
  · split <;> simp_all
  · simp_all

@[simp] theorem spine_startTile (f : Finds) (s : State) (l a : Nat) (j : Job) : spine (startTile f s l a j) = spine s := by simp [startTile]

@[simp] theorem spine_chainNext (f : Finds) (s : State) (l a : Nat) (j : Job) : spine (chainNext f s l a j) = spine s := by
  unfold chainNext
  dsimp only
  (repeat' split) <;> simp

@[simp] theorem spine_checkReport (s : State) (l a arr : Nat) (j : Job) (status cause : Nat) (v : Failing) :
    spine (checkReport s l a arr j status cause v) = spine s := by simp [checkReport]

@[simp] theorem spine_countSteps (s : State) (l a n : Nat) : spine (countSteps s l a n) = spine s := by simp [countSteps]

@[simp] theorem spine_afterGroup (s : State) (l a : Nat) : spine (afterGroup s l a) = spine s := by unfold afterGroup; split <;> simp

@[simp] theorem spine_stage (s : State) (l a : Nat) (y : List (List Word32)) : spine (stage s l a y) = spine s := by rfl

@[simp] theorem spine_mergeGroup (f : Finds) (s : State) (l a src : Nat) (j : Job) : spine (mergeGroup f s l a src j) = spine s := by
  simp [mergeGroup]

@[simp] theorem spine_addStrike (s : State) (l a : Nat) : spine (addStrike s l a) = spine s := by rfl

@[simp] theorem spine_countGroup (s : State) (l a : Nat) : spine (countGroup s l a) = spine s := by rfl

@[simp] theorem spine_runGroup (s : State) (l a on : Nat) (j : Job) (steps : Nat) (v : List (List Word32) × Failing × Nat) :
    spine (runGroup s l a on j steps v) = spine s := by simp [runGroup]

@[simp] theorem spine_mismatch (f : Finds) (s : State) (l a : Nat) (j : Job) (xs : List (List Num)) (t : Tile) (cause : Nat) (v : Failing)
    (again other : GroupFault) : spine (mismatch f s l a j xs t cause v again other) = spine s := by simp [mismatch]

/-! ## Security -/

@[simp] theorem spine_extendMeas (s : State) (k : Nat) (image : List Byte) : spine (extendMeas s k image) = spine s := by rfl

@[simp] theorem spine_applyImage (s : State) (k : Nat) (i : Image) : spine (applyImage s k i) = spine s := by simp [applyImage]

@[simp] theorem spine_resumeCores (s : State) : spine (resumeCores s) = spine s := by rfl

@[simp] theorem spine_closeScopes (s : State) (mask : Nat) : spine (closeScopes s mask) = spine s := by simp [closeScopes]

@[simp] theorem spine_putHalt (s : State) (l : Nat) (h : Bool) : spine (putHalt s l h) = spine s := by rfl

@[simp] theorem spine_putBp (s : State) (l : Nat) (en : Bool) (pc : Nat) : spine (putBp s l en pc) = spine s := by rfl

@[simp] theorem spine_storeImage (s : State) (k : Nat) (i : Image) : spine (storeImage s k i) = spine s := by rfl

@[simp] theorem spine_useNonce (s : State) : spine (useNonce s) = spine s := by rfl

@[simp] theorem spine_openScopes (s : State) (scopes debug : Nat) (timed : Bool) : spine (openScopes s scopes debug timed) = spine s := by rfl

@[simp] theorem spine_openWithToken (s : State) (ctx cseq : Nat) (t : List Byte) (len : Nat) (fuseBurns : Bool) :
    spine (openWithToken s ctx cseq t len fuseBurns) = spine s := by simp [openWithToken]

/-! ## Salfel -/

@[simp] theorem spine_putDst (s : State) (l w : Nat) (v : Word64) : spine (putDst s l w v) = spine s := by rfl

@[simp] theorem spine_putPred (s : State) (l w : Nat) (b : Bool) : spine (putPred s l w b) = spine s := by rfl

@[simp] theorem spine_trapHere (s : State) (l status valA : Nat) : spine (trapHere s l status valA) = spine s := by simp [trapHere]

theorem addressed_spine {P : Spine → Prop} {s : State} {l a align : Nat} {f : State → State} (h : P (spine s)) (hf : P (spine (f s))) :
    P (spine (addressed s l a align f)) := by
  unfold addressed; split <;> simp [h, hf]

@[simp] theorem spine_dispatchAt (f : Finds) (s : State) (l e : Nat) (r : Run) (a : Nat) : spine (dispatchAt f s l e r a) = spine s :=
  addressed_spine (P := (· = spine s)) rfl (spine_dispatch f s l e r a)

/-! ## Bursts -/

@[simp] theorem spine_hostBursts (f : Finds) (master subj : Nat) (p : HostPort) (x : Acc) (bs : List (Nat × Nat × Nat)) :
    spine (hostBursts f master subj p x bs).s = spine x.s := by simp [hostBursts]

/-! ## Journal -/

@[simp] theorem spine_modJournal (s : State) (f : JEntry → JEntry) : spine (modJournal s f) = spine s := by unfold modJournal; split <;> simp

@[simp] theorem spine_modFor (s : State) (c : Nat) (f : JEntry → JEntry) : spine (modFor s c f) = spine s := by simp [modFor]

@[simp] theorem spine_journalHost (s : State) (c cseq : Nat) (d : List Byte) : spine (journalHost s c cseq d) = spine s := by simp [journalHost]

@[simp] theorem spine_journalSend (s : State) (c cseq peer peerCore own flow shots : Nat) (d : List (List Byte)) :
    spine (journalSend s c cseq peer peerCore own flow shots d) = spine s := by simp [journalSend]

@[simp] theorem spine_journalOpen (s : State) (peer peerCore own : Nat) (sh : Shot) (shots : Nat) :
    spine (journalOpen s peer peerCore own sh shots) = spine s := by simp [journalOpen]

@[simp] theorem spine_takeRoom (s : State) (n : Nat) (f : JEntry → JEntry) : spine (takeRoom s n f) = spine s := by unfold takeRoom; split <;> simp

@[simp] theorem spine_journalShot (s : State) (own : Nat) (sh : Shot) : spine (journalShot s own sh) = spine s := by simp [journalShot]

@[simp] theorem spine_journalColl (s : State) (k : Coll) : spine (journalColl s k) = spine s := by simp [journalColl]

/-! ## MemCharges -/

@[simp] theorem spine_chargeRegions (s : State) (bs : List (Nat × Nat × Nat)) (srcWin dstWin : Bool) (run : Nat) :
    spine (chargeRegions s bs srcWin dstWin run).1 = spine s := by
  unfold chargeRegions
  refine foldl_spine (fun q : State × Bool => spine q.1) (fun q b => ?_) _ _
  dsimp only
  (repeat' split) <;> simp

@[simp] theorem spine_endMemory (x : Acc) (c cseq : Nat) (aborted : Bool) : spine (endMemory x c cseq aborted) = spine x.s := by simp [endMemory]

@[simp] theorem spine_chargeBursts (s : State) (e : Entry) (bs : List (Nat × Nat × Nat)) : spine (chargeBursts s e bs).1 = spine s := by
  unfold chargeBursts
  split <;> simp

@[simp] theorem spine_endShots (q : Acc × Bool) (c cseq : Nat) (aborted : Bool) : spine (endShots q c cseq aborted) = spine q.1.s := by
  simp [endShots]

@[simp] theorem spine_gatherReport (y : GatherAcc) (c cseq : Nat) (aborted : Bool) : spine (gatherReport y c cseq aborted) = spine y.x.s := by
  simp [gatherReport]

/-! ## Shots -/

@[simp] theorem spine_intoHub (s : State) (die : Nat) (x : Shot) : spine (intoHub s die x) = spine s := by rfl

@[simp] theorem spine_toCore (s : State) (port lane key : Nat) (x : Shot) : spine (toCore s port lane key x) = spine s := by
  unfold toCore; split <;> rfl

@[simp] theorem spine_sendNack (s : State) (status flow seq mover byCore toCoord core die : Nat) :
    spine (sendNack s status flow seq mover byCore toCoord core die) = spine s := by simp [sendNack]

@[simp] theorem spine_noteOpen (s : State) (core : Nat) (x : Shot) : spine (noteOpen s core x) = spine s := by
  unfold noteOpen; split <;> rfl

@[simp] theorem spine_fencedDrop (s : State) (core : Nat) (x : Shot) : spine (fencedDrop s core x) = spine s := by
  unfold fencedDrop
  dsimp only
  split
  · split
    · rfl
    · rw [spine_sendNack]; rfl
  · rfl

@[simp] theorem spine_meshDrop (s : State) (core : Nat) (x : Shot) : spine (meshDrop s core x) = spine s := by simp [meshDrop]

@[simp] theorem spine_deliver (s : State) (port lane key core : Nat) (x : Shot) : spine (deliver s port lane key core x) = spine s := by
  simp [deliver]

@[simp] theorem spine_inject (s : State) (l : Nat) (x : Shot) : spine (inject s l x) = spine s := by simp [inject]

@[simp] theorem spine_sendAfiup (s : State) (coord : Nat) (mirror : Bool) (head data : List Byte) :
    spine (sendAfiup s coord mirror head data) = spine s := by simp [sendAfiup]

@[simp] theorem spine_setFlow (s : State) (l n : Nat) (x : Flow) : spine (setFlow s l n x) = spine s := by rfl

@[simp] theorem spine_nackTo (s : State) (l status flow seq : Nat) (x : Flow) : spine (nackTo s l status flow seq x) = spine s := by simp [nackTo]

@[simp] theorem spine_refuseShot (s : State) (l status : Nat) (sh : Shot) (x : Flow) : spine (refuseShot s l status sh x) = spine s := by
  simp [refuseShot]

@[simp] theorem spine_shotWritten (s : State) (l : Nat) (sh : Shot) (x : Flow) : spine (shotWritten s l sh x) = spine s := by simp [shotWritten]

theorem dataShot_spine {P : Spine → Prop} {s : State} {l : Nat} {sh : Shot} {typ : Nat} {f : State → Flow → State} (h : P (spine s))
    (hf : ∀ x, P (spine (f s x))) : P (spine (dataShot s l sh typ f)) := by
  unfold dataShot
  dsimp only
  (repeat' split) <;> simp [h, hf]

@[simp] theorem spine_shotAllowed (s : State) (l : Nat) (k : Kind) (a n : Nat) : spine (shotAllowed s l k a n).1 = spine s := by
  unfold shotAllowed
  split <;> simp

@[simp] theorem spine_addWord (f : Word64 → Word64 → Word64 × Bool) (l subj : Nat) (s : State) (a : Nat) (b : Word64) :
    spine (addWord f l subj s a b) = spine s := by simp [addWord]

@[simp] theorem spine_atomicShot (core : Nat) (sh : Shot) (fnd : Finds) (typ : Nat) (f : Word64 → Word64 → Word64 × Bool) (s : State) :
    spine (atomicShot core sh fnd typ f s) = spine s := by
  refine dataShot_spine (P := (· = spine s)) rfl fun x => ?_
  have h := spine_shotAllowed s core .atom (nextLine x).1 64
  dsimp only
  split
  · simp_all
  · split
    · rw [spine_shotWritten, spine_foldl (fun t e => by split <;> simp), spine_readWords]; simp_all
    · rw [spine_refuseShot, spine_foldl (fun t e => by split <;> simp), spine_readWords]; simp_all

/-! ## Movers -/

@[simp] theorem spine_moverBursts (s : State) (l : Nat) (bs : List (Nat × Nat × Nat)) : spine (moverBursts s l bs).1 = spine s := by
  unfold moverBursts
  split <;> simp

@[simp] theorem spine_countUnits (s : State) (l : Nat) (bs : List (Nat × Nat × Nat)) : spine (countUnits s l bs) = spine s := by rfl

@[simp] theorem spine_moverEnd (x : Acc) (l m : Nat) : spine (moverEnd x l m) = spine x.s := by simp [moverEnd]

@[simp] theorem spine_sendCut (l : Nat) (j : Job) (n : Nat) (s : State) (i : Nat) (c : Cut) : spine (sendCut l j n s i c) = spine s := by
  simp [sendCut]

@[simp] theorem spine_sendCuts (f : Finds) (l m : Nat) (j : Job) (n : Nat) (x : Acc) (i : Nat) (cs : List Cut) :
    spine (sendCuts f l m j n x i cs).s = spine x.s := by
  induction cs generalizing x i with
  | nil => rfl
  | cons c r ih => unfold sendCuts; dsimp only; split <;> simp [ih]

@[simp] theorem spine_sendTransfer (s : State) (l m : Nat) (f : Finds) (j : Job) (d : List Byte) : spine (sendTransfer s l m f j d) = spine s := by
  simp [sendTransfer]

@[simp] theorem spine_entryMoved (s : State) (l m : Nat) : spine (entryMoved s l m) = spine s := by rfl

@[simp] theorem spine_runnerEnd (q : Acc × Bool) (l m : Nat) (d : List Byte) : spine (runnerEnd q l m d) = spine q.1.s := by
  unfold runnerEnd
  dsimp only
  (repeat' split) <;> simp

/-! ## Launch -/

@[simp] theorem spine_placeCharge (s : State) (c cseq : Nat) (e : Entry) (f : Finds) (rs : List (Nat × Nat)) (item : State → Nat → Item) :
    spine (placeCharge s c cseq e f rs item) = spine s := by simp [placeCharge]

@[simp] theorem spine_takeItem (s : State) (l : Nat) (i : Item) : spine (takeItem s l i) = spine s := by simp [takeItem]

@[simp] theorem spine_reloadLib (s : State) (l : Nat) (coll : Bool) : spine (reloadLib s l coll) = spine s := by rfl

/-! ## Messages -/

@[simp] theorem spine_sendMirror (s : State) (coord : Nat) (m : MirrorMsg) (data : List Byte) : spine (sendMirror s coord m data) = spine s := by
  simp [sendMirror]

/-! ## Mirror -/

@[simp] theorem spine_sendPiece (step coord : Nat) (s : State) (a : Nat) : spine (sendPiece step coord s a) = spine s := by simp [sendPiece]

@[simp] theorem spine_sendCommit (s : State) (coord step n : Nat) (full : Bool) : spine (sendCommit s coord step n full) = spine s := by rfl

@[simp] theorem spine_sendDelta (s : State) (step : Nat) (full : Bool) (as : List Nat) : spine (sendDelta s step full as) = spine s := by
  unfold sendDelta
  split <;> simp

@[simp] theorem spine_startDelta (s : State) (step : Nat) (full : Bool) (as : List Nat) : spine (startDelta s step full as) = spine s := by
  simp [startDelta]

@[simp] theorem spine_fullDelta (s : State) : spine (fullDelta s) = spine s := by unfold fullDelta; split <;> simp

/-! ## Groups -/

@[simp] theorem spine_sendEnds (s : State) (k : Coll) (status : Nat) : spine (sendEnds s k status) = spine s := by
  unfold sendEnds
  (repeat' split) <;> simp

@[simp] theorem spine_withdrawGroup (s : State) (n : Nat) : spine (withdrawGroup s n) = spine s := by rfl

/-! ## Net -/

@[simp] theorem spine_oweCredit (s : State) (p v : Nat) : spine (oweCredit s p v) = spine s := by simp [oweCredit]

@[simp] theorem spine_takeCredits (s : State) (p : Nat) : spine (takeCredits s p).1 = spine s := by unfold takeCredits; split <;> simp

@[simp] theorem spine_sendFrame (s : State) (n kind fseq bseq : Nat) (shots : List Shot) : spine (sendFrame s n kind fseq bseq shots) = spine s := by
  simp [sendFrame]

@[simp] theorem spine_placeFrame (s : State) (p n bseq : Nat) (shots : List Shot) : spine (placeFrame s p n bseq shots) = spine s := by
  simp [placeFrame]

@[simp] theorem spine_pumpPort (s : State) (p n : Nat) : spine (pumpPort s p n) = spine s := by fun_induction pumpPort s p n <;> simp [*]

@[simp] theorem spine_pumpOut (s : State) (p : Nat) : spine (pumpOut s p) = spine s := by simp [pumpOut]

@[simp] theorem spine_sendFragment (s : State) (n : Nat) (body : List Byte) : spine (sendFragment s n body) = spine s := by
  unfold sendFragment
  dsimp only
  (repeat' split) <;> simp

@[simp] theorem spine_sendControl (s : State) (n mtype reason : Nat) (body : List Byte) : spine (sendControl s n mtype reason body) = spine s := by
  simp [sendControl]

@[simp] theorem spine_announce (s : State) (p mtype reason i : Nat) : spine (announce s p mtype reason i) = spine s := by simp [announce]

/-! ## Routing -/

@[simp] theorem spine_discardShot (s : State) (inp : Nat) (x : Shot) (reason status : Nat) :
    spine (discardShot s inp x reason status) = spine s := by
  have h : spine (if s.route.windows.any (fun w => w.1 = reason && s.time < w.2 + 1000000) then s else s) = spine s := by simp
  unfold discardShot
  dsimp only
  (repeat' split) <;> simp <;> rfl

@[simp] theorem spine_forwardOn (s : State) (inp : Nat) (x : Shot) (p : Nat) : spine (forwardOn s inp x p) = spine s := by simp [forwardOn]

@[simp] theorem spine_deliverHere (s : State) (inp key : Nat) (x : Shot) : spine (deliverHere s inp key x) = spine s := by simp [deliverHere]

@[simp] theorem spine_leaves (s : State) (inp : Nat) (x : Shot) (p : Nat) : spine (leaves s inp x p) = spine s := by simp [leaves]

@[simp] theorem spine_doHop (s : State) (inp key : Nat) (x : Shot) (h : Hop) : spine (doHop s inp key x h) = spine s := by
  unfold doHop
  split <;> simp

@[simp] theorem spine_sendDrain (e : Nat) (s : State) (p : Nat) : spine (sendDrain e s p) = spine s := by
  unfold sendDrain
  dsimp only
  split
  · rfl
  · simp [↓spine_route]

@[simp] theorem spine_settleOld (s : State) : spine (settleOld s) = spine s := by
  unfold settleOld
  split
  · rfl
  · split
    · dsimp only
      split
      · simp [↓spine_route, spine_foldl]
      · simp [↓spine_route, spine_foldl]
    · rfl

@[simp] theorem spine_freeBuffer (s : State) (port lane key : Nat) : spine (freeBuffer s port lane key) = spine s := by simp [freeBuffer]

/-! ## Links -/

@[simp] theorem spine_linkEvent (s : State) (status n reason : Nat) : spine (linkEvent s status n reason) = spine s := by simp [linkEvent]

@[simp] theorem spine_trainLink (s : State) (n : Nat) : spine (trainLink s n) = spine s := by rfl

@[simp] theorem spine_darkLink (s : State) (n : Nat) : spine (darkLink s n) = spine s := by rfl

@[simp] theorem spine_dropState (s : State) (n reason : Nat) : spine (dropState s n reason) = spine s := by rfl

@[simp] theorem spine_takeAck (s : State) (n ack : Nat) : spine (takeAck s n ack) = spine s := by simp [takeAck]

@[simp] theorem spine_replay (s : State) (n : Nat) : spine (replay s n) = spine s := by simp [replay]

@[simp] theorem spine_takeHeader (s : State) (n : Nat) (h : Frame) : spine (takeHeader s n h) = spine s := by simp [takeHeader]

@[simp] theorem spine_deliverHeld (s : State) (p n : Nat) : spine (deliverHeld s p n) = spine s := by
  induction n generalizing s with
  | zero => rfl
  | succ n ih => unfold deliverHeld; dsimp only; split <;> simp [ih]

@[simp] theorem spine_takeFrame (s : State) (n : Nat) (h : Frame) (shots : List Shot) : spine (takeFrame s n h shots) = spine s := by
  simp [takeFrame]

@[simp] theorem spine_askReplay (s : State) (n : Nat) : spine (askReplay s n) = spine s := by rfl

@[simp] theorem spine_discardFrame (s : State) (n : Nat) : spine (discardFrame s n) = spine s := by rfl

@[simp] theorem spine_sendChallenge (s : State) (n : Nat) : spine (sendChallenge s n) = spine s := by simp [sendChallenge]

@[simp] theorem spine_takeChallenge (link : Nat) (s : State) (value : List Byte) : spine (takeChallenge link s value) = spine s := by
  simp [takeChallenge]

@[simp] theorem spine_joinLink (s : State) (n : Nat) : spine (joinLink s n) = spine s := by simp [joinLink]

@[simp] theorem spine_quarantine (s : State) (n : Nat) : spine (quarantine s n) = spine s := by simp [quarantine]

@[simp] theorem spine_sendVerdict (s : State) (n : Nat) : spine (sendVerdict s n) = spine s := by simp [sendVerdict]

@[simp] theorem spine_judge (s : State) (n reason level : Nat) : spine (judge s n reason level) = spine s := by simp [judge]

@[simp] theorem spine_checkPeer (s : State) (n : Nat) (q : Peer) : spine (checkPeer s n q) = spine s := by unfold checkPeer; split <;> simp

@[simp] theorem spine_takeIdentity (link : Nat) (s : State) (record : List Byte) : spine (takeIdentity link s record) = spine s := by
  simp [takeIdentity]

@[simp] theorem spine_takeVerdict (link : Nat) (s : State) (accept : Bool) (reason : Nat) : spine (takeVerdict link s accept reason) = spine s := by
  simp [takeVerdict]

@[simp] theorem spine_takeLeave (port index : Nat) (s : State) : spine (takeLeave port index s) = spine s := by simp [takeLeave]

@[simp] theorem spine_remapTwin (s : State) (old : Option (List Byte)) (m : List Byte) : spine (remapTwin s old m) = spine s := by simp [remapTwin]

/-! ## Contexts -/

@[simp] theorem spine_journalAccept (s : State) (c : Nat) (e : Entry) : spine (journalAccept s c e) = spine s := by simp [journalAccept]

@[simp] theorem spine_journalRetire (s : State) (c : Nat) (e : Entry) : spine (journalRetire s c e) = spine s := by
  unfold journalRetire
  (repeat' split) <;> simp

@[simp] theorem spine_shadowWrite (s : State) (c : Nat) : spine (shadowWrite s c) = spine s := by simp [shadowWrite]

@[simp] theorem spine_intakeFault (s : State) (c status : Nat) (b : List Byte) : spine (intakeFault s c status b) = spine s := by rfl

@[simp] theorem spine_takeCharges (s : State) (c n : Nat) : spine (takeCharges s c n) = spine s := by
  induction n generalizing s with
  | zero => rfl
  | succ n ih => unfold takeCharges; dsimp only; (repeat' split) <;> simp [ih]

@[simp] theorem spine_discard (s : State) (p : HostPort) : spine (discard s p) = spine s := by simp [discard]

@[simp] theorem spine_startWake (s : State) (op : Nat) : spine (startWake s op) = spine s := by simp [startWake]

@[simp] theorem spine_noteDispatch (s : State) (c : Nat) (e : Entry) : spine (noteDispatch s c e) = spine s := by simp [noteDispatch]

@[simp] theorem spine_dropRing (s : State) (c : Nat) : spine (dropRing s c) = spine s := by unfold dropRing; split <;> simp

@[simp] theorem spine_retireEffect (s : State) (c : Nat) (e : Entry) : spine (retireEffect s c e) = spine s := by simp [retireEffect]

@[simp] theorem spine_slot0 (s : State) (p : HostPort) (c : Nat) (e : Entry) (status result : Nat) :
    spine (slot0 s p c e status result) = spine s := by simp [slot0]

@[simp] theorem spine_writeHeld (s : State) (c n : Nat) : spine (writeHeld s c n) = spine s := by fun_induction writeHeld s c n <;> simp [*]

/-! ## Ports -/

@[simp] theorem spine_answerRead (x : Acc) (p : HostPort) (a : Nat) (d : List Byte) : spine (answerRead x p a d) = spine x.s := by
  simp [answerRead]

@[simp] theorem spine_flushPba (s : State) (p : HostPort) : spine (flushPba s p) = spine s := by simp [flushPba]

@[simp] theorem spine_orphan (s : State) (p : HostPort) : spine (orphan s p) = spine s := by rfl

@[simp] theorem spine_portLoss (s : State) (p : HostPort) : spine (portLoss s p) = spine s := by simp [portLoss]

@[simp] theorem spine_portResetState (s : State) (p : HostPort) : spine (portResetState s p) = spine s := by simp [portResetState]

/-! ## Boot -/

theorem spine_verifySub {s t : State} {k a b : Nat} (h : verifySub s k a b = some t) : spine t = spine s := by
  unfold verifySub at h
  dsimp only at h
  split at h
  · cases h; simp [↓spine_frame]
  · split at h
    · cases h; simp [↓spine_frame]
    · cases h

@[simp] theorem spine_verifySubs (a b : Nat) (ks : List Nat) (s : State) : spine (verifySubs a b ks s).1 = spine s := by
  induction ks generalizing s with
  | nil => rfl
  | cons k r ih =>
    unfold verifySubs
    split
    · rw [ih, spine_verifySub ‹_›]
    · rfl

@[simp] theorem spine_failBoot (s : State) (stage kind : Nat) : spine (failBoot s stage kind) = spine s := by rfl

@[simp] theorem spine_fallbackRecords (s : State) (ks : List Nat) : spine (fallbackRecords s ks) = spine s := by simp [fallbackRecords]

@[simp] theorem spine_startAfiup (s : State) : spine (startAfiup s) = spine s := by simp [startAfiup]

@[simp] theorem spine_startLinks (s : State) : spine (startLinks s) = spine s := by simp [startLinks]

@[simp] theorem spine_loadLibraries (s : State) : spine (loadLibraries s) = spine s := by simp [loadLibraries]

@[simp] theorem spine_bootReady (s : State) : spine (bootReady s) = spine s := by rfl

@[simp] theorem spine_putPerst (s : State) (p : HostPort) (low : Bool) : spine (putPerst s p low) = spine s := by unfold putPerst; split <;> simp

@[simp] theorem spine_enterTap (s : State) (code : Nat) : spine (enterTap s code) = spine s := by simp [enterTap]

@[simp] theorem spine_enterDrive (s : State) (code : Nat) : spine (enterDrive s code) = spine s := by simp [enterDrive]

/-! ## Transport -/

@[simp] theorem spine_modColl (s : State) (k : Coll) (f : Coll → Coll) : spine (modColl s k f) = spine s := by rfl

@[simp] theorem spine_librarySend (s : State) (k : Coll) (l coord flow dst riser : Nat) (d : List Byte) :
    spine (librarySend s k l coord flow dst riser d) = spine s := by simp [librarySend]

@[simp] theorem spine_mailTo (s : State) (k : Coll) (l coord q box typ : Nat) (line : CollLine) :
    spine (mailTo s k l coord q box typ line) = spine s := by simp [mailTo]

@[simp] theorem spine_sendLine (s : State) (k : Coll) (l rank box typ : Nat) (line : CollLine) :
    spine (sendLine s k l rank box typ line) = spine s := by simp [sendLine]

theorem turnRead_spine {P : Spine → Prop} {t : Turn} {f : Finds} {l : Nat} {rs : List (Nat × Nat)} {go : Turn → Turn} (h : P (spine t.s))
    (hgo : ∀ u, P (spine u.s) → P (spine (go u).s)) : P (spine (t.read f l rs go).s) := by
  unfold Turn.read
  dsimp only
  split
  · exact hgo _ (by simpa using h)
  · simpa using h

@[simp] theorem spine_consume (f : Finds) (l dir : Nat) (w : List Nat) (segs : List (Nat × Nat × Nat)) (t : Turn) :
    spine (consume f l dir w segs t).s = spine t.s := by
  induction segs generalizing t with
  | nil => rfl
  | cons g r ih =>
    unfold consume
    dsimp only
    split
    · rfl
    · rw [ih]
      exact turnRead_spine (P := (· = spine t.s)) rfl fun u hu => by simpa using hu

@[simp] theorem spine_giveGrants (l dir step : Nat) (segs : List (Nat × Nat × Nat)) (n : Nat) (t : Turn) :
    spine (giveGrants l dir step segs n t).s = spine t.s := by
  induction n generalizing t with
  | zero => rfl
  | succ n ih => unfold giveGrants; dsimp only; (repeat' split) <;> simp [ih]

@[simp] theorem spine_sendSegs (f : Finds) (l dir : Nat) (w : List Nat) (e : Entry) (segs : List OutSeg) (t : Turn) :
    spine (sendSegs f l dir w e segs t).s = spine t.s := by
  induction segs generalizing t with
  | nil => rfl
  | cons g r ih =>
    unfold sendSegs
    dsimp only
    split
    · rfl
    · split
      · rfl
      · rw [ih]
        exact turnRead_spine (P := (· = spine t.s)) rfl fun u hu => by simpa using hu

@[simp] theorem spine_coreTurn (f : Finds) (w : List Nat) (e : Entry) (t : Turn) (p : Nat × Nat) :
    spine (coreTurn f w e t p).s = spine t.s := by
  unfold coreTurn
  simp only [List.foldl_cons, List.foldl_nil, spine_sendSegs]
  (repeat' split) <;> simp

/-! ## Collectives -/

@[simp] theorem spine_runGroupItem (s : State) (l : Nat) (i : Item) : spine (runGroupItem s l i) = spine s := by
  unfold runGroupItem
  split <;> simp

@[simp] theorem spine_advanceSeq (s : State) (n : Nat) : spine (advanceSeq s n) = spine s := by rfl

@[simp] theorem spine_placeColl (s : State) (c cseq : Nat) (e : Entry) : spine (placeColl s c cseq e) = spine s := by
  unfold placeColl
  dsimp only
  (repeat' split) <;> simp

@[simp] theorem spine_sendReady (s : State) (k : Coll) (l : Nat) : spine (sendReady s k l) = spine s := by unfold sendReady; split <;> simp

@[simp] theorem spine_keepLine (s : State) (l box typ : Nat) (line : CollLine) : spine (keepLine s l box typ line) = spine s := by rfl

@[simp] theorem spine_passOn (s : State) (k : Coll) (l box typ : Nat) (line : CollLine) : spine (passOn s k l box typ line) = spine s := by
  simp [passOn]

theorem onLine_spine {P : Spine → Prop} {l box typ : Nat} {s : State} {k : Coll} {line : CollLine} {f : State → State} (h : P (spine s))
    (hf : P (spine (f s))) : P (spine (onLine l box typ s k line f)) := by
  unfold onLine; split <;> simp [h, hf]

@[simp] theorem spine_onGrant (l box : Nat) (s : State) (k : Coll) (line : CollLine) : spine (onGrant l box s k line) = spine s :=
  onLine_spine (P := (· = spine s)) rfl (by simp)

@[simp] theorem spine_onCount (l box : Nat) (s : State) (k : Coll) (line : CollLine) : spine (onCount l box s k line) = spine s :=
  onLine_spine (P := (· = spine s)) rfl (by split <;> simp)

@[simp] theorem spine_onDigest (l box : Nat) (s : State) (k : Coll) (line : CollLine) : spine (onDigest l box s k line) = spine s :=
  onLine_spine (P := (· = spine s)) rfl (by split <;> simp)

@[simp] theorem spine_onFinish (l box : Nat) (s : State) (k : Coll) (line : CollLine) : spine (onFinish l box s k line) = spine s :=
  onLine_spine (P := (· = spine s)) rfl (by simp)

@[simp] theorem spine_sendDigests (s : State) (k : Coll) (rs : List DigestRec) : spine (sendDigests s k rs) = spine s := by simp [sendDigests]

/-! ## Vector -/

@[simp] theorem spine_blockDross (s : State) (l : Nat) (j : Job) (r b scale cls : Nat) (vs : List (Nat × Num × Option Nat)) :
    spine (blockDross s l j r b scale cls vs) = spine s := by
  unfold blockDross
  dsimp only
  (repeat' split) <;> simp

@[simp] theorem spine_putMain (f : Finds) (s : State) (l : Nat) (j : Job) (r : Nat) (vs : List Num) : spine (putMain f s l j r vs).1 = spine s := by
  unfold putMain
  dsimp only
  (repeat' split) <;> simp

@[simp] theorem spine_readRow (f : Finds) (s : State) (l : Nat) (j : Job) (r : Nat) : spine (readRow f s l j r).1.s = spine s := by simp [readRow]

@[simp] theorem spine_vecTrap (s : State) (l : Nat) (j : Job) (status : Nat) (own : Bool) : spine (vecTrap s l j status own) = spine s := by
  simp [vecTrap]

@[simp] theorem spine_vecRows (f : Finds) (l : Nat) (fn : State → Job → Nat → RowOut) (n r : Nat) (s : State) :
    spine (vecRows f l fn n r s) = spine s := by
  induction n generalizing s r with
  | zero => simp [vecRows]
  | succ n ih => unfold vecRows; dsimp only; (repeat' split) <;> simp [ih]

/-! ## Steps -/

@[simp] theorem spine_openJournal (s : State) (c cseq step : Nat) : spine (openJournal s c cseq step) = spine s := by rfl

@[simp] theorem spine_loadArith (s : State) (e : Entry) : spine (loadArith s e) = spine s := by simp [loadArith]

@[simp] theorem spine_stashMark (s : State) (c cseq : Nat) (e : Entry) (nx : StepSt) (i : Nat) : spine (stashMark s c cseq e nx i) = spine s := by
  simp [stashMark]

@[simp] theorem spine_setWork (s : State) (i : Nat) (f : ChunkWork → Option ChunkWork) : spine (setWork s i f) = spine s := by rfl

@[simp] theorem spine_interruptUpdate (s : State) (cause : Nat) : spine (interruptUpdate s cause) = spine s := by
  unfold interruptUpdate
  dsimp only
  split
  · split <;> simp [-raiseEv_mem]
  · rfl

@[simp] theorem spine_updTrap (s : State) (l status a : Nat) : spine (updTrap s l status a) = spine s := by simp [updTrap]

@[simp] theorem spine_chunkWritten (s : State) : spine (chunkWritten s) = spine s := by rfl

@[simp] theorem spine_settleUpdate (s : State) (c cseq : Nat) : spine (settleUpdate s c cseq) = spine s := by unfold settleUpdate; split <;> simp

@[simp] theorem spine_placeUpdate (s : State) (c cseq : Nat) : spine (placeUpdate s c cseq) = spine s := by simp [placeUpdate]

@[simp] theorem spine_acceptUpdate (s : State) (c cseq : Nat) (e : Entry) : spine (acceptUpdate s c cseq e) = spine s := by simp [acceptUpdate]

/-! ## Seal -/

@[simp] theorem spine_closeJournal (s : State) : spine (closeJournal s) = spine s := by simp [closeJournal]

@[simp] theorem spine_closeStep (s : State) : spine (closeStep s) = spine s := by simp [closeStep]

@[simp] theorem spine_sendStage (s : State) (g a hops step origin : Nat) (r : SealRec) : spine (sendStage s g a hops step origin r) = spine s := by
  simp [sendStage]

@[simp] theorem spine_beginStage (s : State) (x : SealRun) : spine (beginStage s x) = spine s := by
  unfold beginStage
  dsimp only
  (repeat' split) <;> simp

@[simp] theorem spine_sendFolds (s : State) : spine (sendFolds s) = spine s := by simp [sendFolds]

@[simp] theorem spine_takeFold (s : State) (m : SealMsg) : spine (takeFold s m) = spine s := by simp [takeFold]

@[simp] theorem spine_answerSeal (s : State) (group axis hops step : Nat) : spine (answerSeal s group axis hops step) = spine s := by
  unfold answerSeal
  (repeat' split) <;> simp

@[simp] theorem spine_stopSeal (s : State) : spine (stopSeal s) = spine s := by unfold stopSeal; split <;> simp

/-! ## Twins -/

@[simp] theorem spine_dropImages (s : State) : spine (dropImages s) = spine s := by rfl

@[simp] theorem spine_sendAck (s : State) (coord serial step addr : Nat) (noImage resend : Bool) :
    spine (sendAck s coord serial step addr noImage resend) = spine s := by rfl

@[simp] theorem spine_busyRecord (s : State) (coord : Nat) : spine (busyRecord s coord) = spine s := by simp [busyRecord]

@[simp] theorem spine_holderBusy (s : State) (coord serial : Nat) : spine (holderBusy s coord serial) = spine s := by simp [holderBusy]

@[simp] theorem spine_refuseDelta (s : State) (coord serial : Nat) (isCommit : Bool) : spine (refuseDelta s coord serial isCommit) = spine s := by rfl

theorem ofDelta_spine {P : Spine → Prop} {s : State} {coord serial : Nat} {c : Bool} {f : State → State} (h : P (spine s))
    (hf : P (spine (f s))) : P (spine (ofDelta s coord serial c f)) := by
  unfold ofDelta; (repeat' split) <;> simp [h, hf]

theorem fromPartner_spine {P : Spine → Prop} {s : State} {coord serial : Nat} {c : Bool} {f : State → State} (h : P (spine s))
    (hf : ∀ t, spine t = spine s → P (spine (f t))) : P (spine (fromPartner s coord serial c f)) := by
  unfold fromPartner
  dsimp only
  split
  · exact h
  · split
    · exact ofDelta_spine h (hf _ rfl)
    · (repeat' split)
      · simpa using h
      · simpa [↓spine_frame] using h
      · exact ofDelta_spine h (hf _ rfl)

@[simp] theorem spine_takeMirrorCommit (s : State) (coord : Nat) (m : MirrorMsg) : spine (takeMirrorCommit s coord m) = spine s := by
  refine fromPartner_spine (P := (· = spine s)) rfl fun t ht => ?_
  (repeat' split) <;> simp [ht]

@[simp] theorem spine_endRestore (s : State) (status result : Nat) : spine (endRestore s status result) = spine s := by
  unfold endRestore
  split <;> simp

@[simp] theorem spine_takeMirrorAck (s : State) (coord : Nat) (m : MirrorMsg) : spine (takeMirrorAck s coord m) = spine s := by
  unfold takeMirrorAck
  dsimp only
  (repeat' split) <;> simp

@[simp] theorem spine_returnPiece (coord : Nat) (s : State) (p : HeldPiece) : spine (returnPiece coord s p) = spine s := by simp [returnPiece]

@[simp] theorem spine_takeRestoreReq (s : State) (coord : Nat) (m : MirrorMsg) : spine (takeRestoreReq s coord m) = spine s := by
  unfold takeRestoreReq
  (repeat' split) <;> simp

@[simp] theorem spine_takeRestoreEnd (s : State) (coord : Nat) (m : MirrorMsg) : spine (takeRestoreEnd s coord m) = spine s := by
  simp [takeRestoreEnd]

/-! ## SelfTest -/

@[simp] theorem spine_startLoops (s : State) (c cseq : Nat) (e : Entry) : spine (startLoops s c cseq e) = spine s := by simp [startLoops]

@[simp] theorem spine_endSiteTest (s : State) (x : Nat) : spine (endSiteTest s x) = spine s := by simp [endSiteTest]

/-! ## Fences -/

@[simp] theorem spine_modFence (s : State) (die : Nat) (f : Fence → Fence) : spine (modFence s die f) = spine s := by rfl

@[simp] theorem spine_endFenceCharges (s : State) (x : Fence) (status result : Nat) : spine (endFenceCharges s x status result) = spine s := by
  simp [endFenceCharges]

@[simp] theorem spine_stopSequencer (s : State) (l : Nat) : spine (stopSequencer s l) = spine s := by unfold stopSequencer; split <;> simp

@[simp] theorem spine_dropUpdate (s : State) (l : Nat) : spine (dropUpdate s l) = spine s := by simp [dropUpdate]

@[simp] theorem spine_forceStatus (s : State) (c cseq status : Nat) : spine (forceStatus s c cseq status) = spine s := by rfl

@[simp] theorem spine_endHeldJob (s : State) (l a : Nat) : spine (endHeldJob s l a) = spine s := by unfold endHeldJob; split <;> simp

@[simp] theorem spine_endHeld (s : State) (l : Nat) : spine (endHeld s l) = spine s := by simp [endHeld]

@[simp] theorem spine_releaseHeld (s : State) (l : Nat) {f : State → Held → State} (hf : ∀ t h, spine (f t h) = spine t) :
    spine (releaseHeld s l f) = spine s := by
  unfold releaseHeld
  rw [spine_foldl fun t h => by split <;> simp [hf]]
  rfl

@[simp] theorem spine_dropHeld (s : State) (l : Nat) : spine (dropHeld s l) = spine s :=
  spine_releaseHeld s l fun t h => by split <;> simp

theorem spine_takeSpare {s t : State} {die x : Nat} (h : takeSpare s die = some (x, t)) : spine t = spine s := by
  unfold takeSpare at h
  dsimp only at h
  split at h
  · cases h; simp
  · split at h
    · cases h; simp
    · cases h

@[simp] theorem spine_loadReserve (s : State) (l : Nat) : spine (loadReserve s l) = spine s := by rfl

@[simp] theorem spine_copyStores (f : Finds) (s : State) (l : Nat) : spine (copyStores f s l) = spine s := by simp [copyStores]

@[simp] theorem spine_fenceRecord (s : State) (x : Fence) (site : Nat) : spine (fenceRecord s x site) = spine s := by simp [fenceRecord]

/-! ## Firmware -/

@[simp] theorem spine_endUpdate (s : State) (c cseq k : Nat) : spine (endUpdate s c cseq k) = spine s := by rfl

@[simp] theorem spine_startRestart (s : State) : spine (startRestart s) = spine s := by rfl

@[simp] theorem spine_markDirty (s : State) (coll : Bool) : spine (markDirty s coll) = spine s := by simp [markDirty]

@[simp] theorem spine_spreadUcode (s : State) : spine (spreadUcode s) = spine s := by simp [spreadUcode]

@[simp] theorem spine_spreadStep (s : State) (c cseq : Nat) : spine (spreadStep s c cseq) = spine s := by simp [spreadStep]

@[simp] theorem spine_applyLibrary (s : State) (c cseq k : Nat) : spine (applyLibrary s c cseq k) = spine s := by simp [applyLibrary]

/-! ## Patrol -/

@[simp] theorem spine_setBridge (s : State) (die : Nat) (b : Bridge) : spine (setBridge s die b) = spine s := by simp [setBridge]

/-! ## PowerStates -/

@[simp] theorem spine_sendIntent (s : State) (p : Nat) (intent : Bool) : spine (sendIntent s p intent) = spine s := by simp [sendIntent]

@[simp] theorem spine_sendIntents (s : State) : spine (sendIntents s) = spine s := by simp [sendIntents]

@[simp] theorem spine_swapLinks (s : State) (a b : LinkSt) : spine (swapLinks s a b) = spine s := by rfl

@[simp] theorem spine_clearIntents (s : State) : spine (clearIntents s) = spine s := by rfl

@[simp] theorem spine_enterDrawn (s : State) : spine (enterDrawn s) = spine s := by rfl

@[simp] theorem spine_leaveDrawn (s : State) (to_ : PwrSt) : spine (leaveDrawn s to_) = spine s := by simp [leaveDrawn]

@[simp] theorem spine_endPowerSet (s : State) (status : Nat) : spine (endPowerSet s status) = spine s := by unfold endPowerSet; split <;> simp

@[simp] theorem spine_reachTarget (s : State) (target : PwrSt) : spine (reachTarget s target) = spine s := by
  unfold reachTarget
  (repeat' split) <;> simp

/-! ## Replay -/

@[simp] theorem spine_startRun (s : State) (c cseq : Nat) (j : JEntry) : spine (startRun s c cseq j) = spine s := by rfl

@[simp] theorem spine_landTransfer (s : State) (t : JTransfer × Nat) : spine (landTransfer s t) = spine s := by simp [landTransfer]

@[simp] theorem spine_stopRun (s : State) (c cseq : Nat) (b : List Byte) : spine (stopRun s c cseq b) = spine s := by simp [stopRun]

@[simp] theorem spine_watchRun (s : State) (c cseq : Nat) (j sh : JEntry) (needs : Option (Nat × Nat)) :
    spine (watchRun s c cseq j sh needs) = spine s := by
  unfold watchRun
  dsimp only
  (repeat' split) <;> simp

end Sys2Proof.Machine

end

section
/-! What the operations that run a row on a charge, an item, an instruction or a field keep of the spine: a predicate that holds of it
before, and after the row, holds of it in the end. -/

namespace Sys2Proof.Machine

open Sys2Proof.Claims

theorem onCharge_spine {P : Spine → Prop} {s : State} {c n op : Nat} {f : Entry → State} (h : P (spine s)) (hf : ∀ e, P (spine (f e))) :
    P (spine (onCharge s c n op f)) := by
  unfold onCharge; split <;> simp [h, hf]

theorem fabricCharge_spine {P : Spine → Prop} {s : State} {c n op : Nat} {f : Entry → State} (h : P (spine s))
    (hf : ∀ e, P (spine (f e))) : P (spine (fabricCharge s c n op f)) := by
  unfold fabricCharge; split
  · exact onCharge_spine h hf
  · exact h

theorem itemCharge_spine {P : Spine → Prop} {s : State} {c n op : Nat} {status : Entry → Nat} {f : Entry → State} (h : P (spine s))
    (hf : ∀ e, P (spine (f e))) : P (spine (itemCharge s c n op status f)) := by
  refine fabricCharge_spine h fun e => ?_
  (repeat' split) <;> simp [h, hf]

theorem markRow_spine {P : Spine → Prop} {s : State} {c n : Nat} {ph : Nat → Bool} {f : Entry → State} (h : P (spine s))
    (hf : ∀ e, P (spine (f e))) : P (spine (markRow s c n ph f)) := by
  refine onCharge_spine h fun e => ?_
  split <;> simp [h, hf]

theorem replayRow_spine {P : Spine → Prop} {s : State} {c n action : Nat} {f : Entry → State} (h : P (spine s))
    (hf : ∀ e, P (spine (f e))) : P (spine (replayRow s c n action f)) := by
  refine onCharge_spine h fun e => ?_
  split <;> simp [h, hf]

theorem onSecure_spine {P : Spine → Prop} {s : State} {c n op : Nat} {f : Entry → State} (h : P (spine s))
    (hf : ∀ e, P (spine (f e))) : P (spine (onSecure s c n op f)) := by
  unfold onSecure; split
  · exact onCharge_spine h hf
  · exact h

theorem runInstr_spine {P : Spine → Prop} {s : State} {l w : Nat} {r : Run} {f : State → Run → Nat → State} (h : P (spine s))
    (hf : ∀ t, P (spine t) → P (spine (f t r w))) : P (spine (runInstr s l r w f)) := by
  unfold runInstr
  dsimp only
  (repeat' split)
  case' isFalse.isFalse.isFalse => apply hf
  all_goals simpa using h

theorem issue_spine {P : Spine → Prop} {s : State} {l op : Nat} {f : State → Run → Nat → State} (h : P (spine s))
    (hf : ∀ t r w, P (spine t) → P (spine (f t r w))) : P (spine (issue s l op f)) := by
  unfold issue
  dsimp only
  (repeat' split)
  case' h_1.isFalse.isFalse => exact runInstr_spine h fun t ht => hf t _ _ ht
  all_goals simpa using h

theorem permitted_spine {P : Spine → Prop} {s : State} {l a n : Nat} {r : Run} {k : Kind} {f : State → State} (h : P (spine s))
    (hf : ∀ t, P (spine t) → P (spine (f t))) : P (spine (permitted s l r a n k f)) := by
  unfold permitted
  dsimp only
  split
  · exact hf _ (by simpa using h)
  · simpa using h

theorem access_spine {P : Spine → Prop} {s : State} {l a : Nat} {r : Run} {k : Kind} {f : State → State} (h : P (spine s))
    (hf : ∀ t, P (spine t) → P (spine (f t))) : P (spine (access s l r a k f)) :=
  addressed_spine h (permitted_spine h hf)

theorem seqRead_spine {P : Spine → Prop} {s : State} {l a n : Nat} {r : Run} {f : Finds} {k : State → State} (h : P (spine s))
    (hk : ∀ t, P (spine t) → P (spine (k t))) : P (spine (seqRead s l r f a n k)) := by
  unfold seqRead
  dsimp only
  split
  · exact hk _ (by simpa using h)
  · simpa using h

theorem withRunner_spine {P : Spine → Prop} {s : State} {l n : Nat} {r : Run} {mism : Bool} {f : State → State} (h : P (spine s))
    (hf : P (spine (f s))) : P (spine (withRunner s l r n mism f)) := by
  unfold withRunner
  dsimp only
  (repeat' split) <;> simp [h, hf]

theorem withRiser_spine {P : Spine → Prop} {s : State} {l w : Nat} {f : State → Nat → State} (h : P (spine s))
    (hf : ∀ n, P (spine (f s n))) : P (spine (withRiser s l w f)) := by
  unfold withRiser
  dsimp only
  split <;> simp [h, hf]

theorem liveRiser_spine {P : Spine → Prop} {s : State} {l w : Nat} {f : State → Nat → State} (h : P (spine s))
    (hf : ∀ n, P (spine (f s n))) : P (spine (liveRiser s l w f)) :=
  withRiser_spine h fun n => by split <;> simp [h, hf]

theorem runCharge_spine {P : Spine → Prop} {s : State} {c n : Nat} {e : Entry} {src dst : Option (Nat × Nat)} {bs : List (Nat × Nat × Nat)}
    {f : State → Nat → List (Nat × Nat × Nat) → Acc} (h : P (spine s)) (hf : ∀ t m b, P (spine t) → P (spine (f t m b).s)) :
    P (spine (runCharge s c n e src dst bs f)) := by
  unfold runCharge
  dsimp only
  split
  · simpa [↓spine_frame] using h
  · rw [spine_endMemory]
    exact hf _ _ _ (by simpa [↓spine_frame] using h)

theorem updRead_spine {P : Spine → Prop} {s f : State} {l : Nat} {rs : List (Nat × Nat)} (h : P (spine s)) (hf : P (spine f)) :
    P (spine (updRead s l rs f)) := by
  unfold updRead; split <;> simp [h, hf]

theorem moverRow_spine {P : Spine → Prop} {s : State} {l m kind : Nat} {f : State → Job → List Byte → State} (h : P (spine s))
    (hf : ∀ j d, P (spine (f s j d))) : P (spine (moverRow s l m kind f)) := by
  unfold moverRow
  (repeat' split) <;> simp [h, hf]

theorem serveEntries_spine {P : Spine → Prop} {can : Runner → Bool} {one : Nat → Acc → Acc} (hone : ∀ k x, P (spine x.s) → P (spine (one k x).s))
    (l : Nat) (d : List Byte) (n k : Nat) (mism : Option Nat) {x : Acc} (h : P (spine x.s)) :
    P (spine (serveEntries can one l d n k mism x).1.s) := by
  induction n generalizing k mism x with
  | zero => exact h
  | succ n ih =>
    unfold serveEntries
    (repeat' split)
    case isTrue => exact h
    case isFalse.isTrue => exact h
    case isFalse.isFalse.isTrue => exact ih _ _ (hone _ _ h)
    case isFalse.isFalse.isFalse => exact h

theorem runnerRow_spine {P : Spine → Prop} {s : State} {l m : Nat} {j : Job} {d : List Byte} {mism : Option Nat} {can : Runner → Bool}
    {one : Nat → Acc → Acc} (h : P (spine s)) (hone : ∀ k x, P (spine x.s) → P (spine (one k x).s)) :
    P (spine (runnerRow s l m j d mism can one)) := by
  unfold runnerRow
  split
  · simpa using h
  · split
    · simpa using h
    · rw [spine_runnerEnd]
      exact serveEntries_spine hone _ _ _ _ _ h

theorem takeFragment_spine {P : Spine → Prop} {s : State} {n mtype : Nat} {hd : Frame} {body : List Byte} {act : State → Nat → List Byte → State}
    (h : P (spine s)) (hact : ∀ t k b, P (spine t) → P (spine (act t k b))) : P (spine (takeFragment s n mtype hd body act)) := by
  have ht : P (spine (if inBundle (getLink s n) then takeHeader s n hd else s)) := by split <;> simpa using h
  unfold takeFragment
  dsimp only
  generalize (if inBundle (getLink s n) then takeHeader s n hd else s) = t at *
  (repeat' split)
  case' isFalse.isFalse.isFalse.isTrue => apply hact
  all_goals simpa

theorem controlFrame_spine {P : Spine → Prop} {s : State} {n mtype : Nat} {wire : List Byte} {ok : Bool} {act : State → Nat → List Byte → State}
    (h : P (spine s)) (hact : ∀ t k b, P (spine t) → P (spine (act t k b))) : P (spine (controlFrame s n wire ok mtype act)) := by
  unfold controlFrame
  dsimp only
  (repeat' split)
  case' h_1.isTrue => exact takeFragment_spine h hact
  all_goals simpa using h

end Sys2Proof.Machine

end

section
/-! The invariant of every step: what writes memory keeps it canonical, and every command's row keeps the rest. -/

namespace Sys2Proof.Machine

open Sys2Proof.Claims

variable {i : Ident} {q : List Instr}

/-- What the invariant says of a spine, with the identity and the waiting commands that a command leaves as they were. -/
def Steady (i : Ident) (q : List Instr) (k : Spine) : Prop :=
  Memory.wf k.mem = true ∧ k.ident = i ∧ k.pending = q ∧ k.time < 2 ^ 64 ∧ k.epoch < 4

theorem foldl_keeps {α β : Type} {P : β → Prop} {f : β → α → β} (hf : ∀ b x, P b → P (f b x)) (l : List α) {b : β} (h : P b) :
    P (l.foldl f b) := by
  induction l generalizing b with
  | nil => exact h
  | cons x r ih => exact ih (hf b x h)

theorem steady_foldl {α : Type} {f : State → α → State} (hf : ∀ s x, Steady i q (spine s) → Steady i q (spine (f s x))) (l : List α)
    {s : State} (h : Steady i q (spine s)) : Steady i q (spine (l.foldl f s)) :=
  foldl_keeps (P := fun s => Steady i q (spine s)) hf l h

theorem steady_foldl_acc {α : Type} {f : Acc → α → Acc} (hf : ∀ x a, Steady i q (spine x.s) → Steady i q (spine (f x a).s)) (l : List α)
    {x : Acc} (h : Steady i q (spine x.s)) : Steady i q (spine (l.foldl f x).s) :=
  foldl_keeps (P := fun x : Acc => Steady i q (spine x.s)) hf l h

theorem ite_spine {P : Spine → Prop} {a b : State} {p : Prop} [Decidable p] (ha : P (spine a)) (hb : P (spine b)) :
    P (spine (if p then a else b)) := by split <;> assumption

theorem steady_report {s : State} (c n st r : Nat) (h : Steady i q (spine s)) : Steady i q (spine (report s c n st r)) := by
  rwa [spine_report]

/-- An outcome whose next state, if it has one, is steady. -/
def SteadyRes (i : Ident) (q : List Instr) (r : Res) : Prop := ∀ t, r = .next t → Steady i q (spine t)

@[simp] theorem steadyRes_next (s : State) : SteadyRes i q (.next s) ↔ Steady i q (spine s) :=
  ⟨fun h => h s rfl, fun h t ht => by cases ht; exact h⟩

@[simp] theorem steadyRes_fault (r : Fault) : SteadyRes i q (.fault r) := fun _ ht => by cases ht

/-- A state that differs from a steady one in memory alone is steady when that memory is canonical. -/
theorem Steady.store {s t : State} (h : Steady i q (spine s)) (hm : Memory.wf t.mem = true) (ht : spine t = { spine s with mem := t.mem }) :
    Steady i q (spine t) := by
  rw [ht]; exact ⟨hm, h.2⟩

theorem Steady.wf {s : State} (h : Steady i q (spine s)) : Memory.wf s.mem = true := h.1

theorem foldl_tset_wf (ns : List Nat) (a : Nat → Nat) (b : Nat → Byte) {m : Tab Byte} (h : Memory.wf m = true) :
    Memory.wf (ns.foldl (fun m n => tset 0 m (a n) (b n)) m) = true := by
  induction ns generalizing m with
  | nil => exact h
  | cons n r ih => exact ih (tabWf_tset 0 m _ _ h)

/-! ## Mem -/

@[simp] theorem steady_writeUnit (f : Finds) (subj : Nat) (x : Acc) (a : Nat) (d : List Byte) (h : Steady i q (spine x.s)) :
    Steady i q (spine (writeUnit f subj x a d).s) := by
  refine h.store (writeUnit_wf f subj x a d h.wf) ?_
  have hr := spine_readUnit f subj 0 { x with bad := [] } (a / 64 * 64)
  simp only [spine, Spine.mk.injEq, true_and] at hr ⊢
  unfold writeUnit
  dsimp only
  (repeat' split)
  · exact ⟨rfl, rfl, rfl, rfl⟩
  · exact hr.2
  · exact hr.2

@[simp] theorem steady_writeDev (f : Finds) (subj : Nat) (x : Acc) (a : Nat) (d : List Byte) (h : Steady i q (spine x.s)) :
    Steady i q (spine (writeDev f subj x a d).s) :=
  steady_foldl_acc (fun y p hy => steady_writeUnit f subj y p.1 p.2 hy) _ h

@[simp] theorem steady_putMem (s : State) (a : Nat) (data : List Byte) (h : Steady i q (spine s)) : Steady i q (spine (putMem s a data)) := by
  simp [putMem, h]

@[simp] theorem steady_writeAt (f : Finds) (master subj : Nat) (x : Acc) (a : Nat) (data : List Byte) (h : Steady i q (spine x.s)) :
    Steady i q (spine (writeAt f master subj x a data).s) := by unfold writeAt; split <;> simp [h]

@[simp] theorem steady_copyRow (f : Finds) (master subj src dst : Nat) (d : List Byte) (bad : List Nat) (x : Acc) (h : Steady i q (spine x.s)) :
    Steady i q (spine (copyRow f master subj src dst d bad x).s) :=
  steady_foldl_acc (fun y p hy => by split <;> simp [hy]) _ h

/-! ## Charges -/

@[simp] theorem steady_putReport (s : State) (c cseq a : Nat) (d : List Byte) (status result : Nat) (h : Steady i q (spine s)) :
    Steady i q (spine (putReport s c cseq a d status result)) := by
  unfold putReport
  dsimp only
  (repeat' split) <;> simp [h]

@[simp] theorem steady_putDevice (s : State) (c n a : Nat) (d : List Byte) (r : Nat) (h : Steady i q (spine s)) :
    Steady i q (spine (putDevice s c n a d r)) := by
  have hd := spine_deviceRegion s a d.length .wr
  unfold putDevice
  split <;> simp_all

/-! ## Resets -/

@[simp] theorem steady_coldState (s : State) (h : Steady i q (spine s)) : Steady i q (spine (coldState s)) :=
  ⟨rfl, h.2.1, h.2.2.1, Nat.two_pow_pos 64, Nat.succ_pos 3⟩

@[simp] theorem steady_warmState (s : State) (cause : Nat) (h : Steady i q (spine s)) : Steady i q (spine (warmState s cause)) :=
  ⟨warmState_wf s cause h.wf, h.2.1, h.2.2.1, h.2.2.2.1, Nat.succ_pos 3⟩

@[simp] theorem steady_goOff (s : State) (mv : Nat) (h : Steady i q (spine s)) : Steady i q (spine (goOff s mv)) := by simp [goOff, h]

@[simp] theorem steady_powerOn (s : State) (mv : Nat) (h : Steady i q (spine s)) : Steady i q (spine (powerOn s mv)) := by simp [powerOn, h]

@[simp] theorem steady_shutDown (s : State) (h : Steady i q (spine s)) : Steady i q (spine (shutDown s)) := by simp [shutDown, h]

/-! ## Telemetry -/

@[simp] theorem steady_execCountersRead (ctx cseq : Nat) (s : State) (h : Steady i q (spine s)) : SteadyRes i q (execCountersRead ctx cseq s) :=
  (steadyRes_next _).mpr <| onCharge_spine h fun _ => ite_spine (steady_report _ _ _ _ h)
    (steady_putReport _ _ _ _ _ _ _ (ite_spine (by simpa using h) h))

@[simp] theorem steady_execPhaseRecordsRead (ctx cseq : Nat) (s : State) (h : Steady i q (spine s)) :
    SteadyRes i q (execPhaseRecordsRead ctx cseq s) :=
  (steadyRes_next _).mpr <| onCharge_spine h fun _ => ite_spine (steady_report _ _ _ _ h) (steady_putReport _ _ _ _ _ _ _ h)

@[simp] theorem steady_execEventRingSet (ctx cseq : Nat) (s : State) (h : Steady i q (spine s)) : SteadyRes i q (execEventRingSet ctx cseq s) :=
  (steadyRes_next _).mpr <| onCharge_spine h fun _ => by simp [h]

@[simp] theorem steady_execEventRingWrite (consumed : Nat) (s : State) (h : Steady i q (spine s)) : SteadyRes i q (execEventRingWrite consumed s) := by
  unfold execEventRingWrite
  split <;> simp [h]

/-! ## Ladle -/

@[simp] theorem steady_execLadleGrant (core engine : Nat) (s : State) (h : Steady i q (spine s)) : SteadyRes i q (execLadleGrant core engine s) := by
  unfold execLadleGrant
  dsimp only
  (repeat' split) <;> simp [h]

@[simp] theorem steady_execInputLow (mv : Nat) (s : State) (h : Steady i q (spine s)) : SteadyRes i q (execInputLow mv s) := by
  unfold execInputLow
  split <;> simp [h]

@[simp] theorem steady_execInputHigh (mv : Nat) (s : State) (h : Steady i q (spine s)) : SteadyRes i q (execInputHigh mv s) := by
  unfold execInputHigh
  split <;> simp [h]

@[simp] theorem steady_execInputInOperatingRange (mv : Nat) (s : State) (h : Steady i q (spine s)) :
    SteadyRes i q (execInputInOperatingRange mv s) := by unfold execInputInOperatingRange; split <;> simp [h]

@[simp] theorem steady_execInputPowerMeasurement (mv watts peak avg : Nat) (s : State) (h : Steady i q (spine s)) :
    SteadyRes i q (execInputPowerMeasurement mv watts peak avg s) := by unfold execInputPowerMeasurement; split <;> simp [h]

@[simp] theorem steady_execPowerOverdraw (s : State) (h : Steady i q (spine s)) : SteadyRes i q (execPowerOverdraw s) := by
  simp [execPowerOverdraw, h]

@[simp] theorem steady_execPoolRestore (s : State) (h : Steady i q (spine s)) : SteadyRes i q (execPoolRestore s) := by simp [execPoolRestore, h]

@[simp] theorem steady_execJunctionSensorRead (hottest : Nat) (s : State) (h : Steady i q (spine s)) :
    SteadyRes i q (execJunctionSensorRead hottest s) := by
  unfold execJunctionSensorRead
  dsimp only
  (repeat' split) <;> simp [h]

@[simp] theorem steady_execFabRateWindow (dieA dieB : Nat) (s : State) (h : Steady i q (spine s)) : SteadyRes i q (execFabRateWindow dieA dieB s) := by
  simp [execFabRateWindow, h]

@[simp] theorem steady_execPowerLimitSet (ctx cseq : Nat) (s : State) (h : Steady i q (spine s)) : SteadyRes i q (execPowerLimitSet ctx cseq s) :=
  (steadyRes_next _).mpr <| onCharge_spine h fun _ => by simp [h]

@[simp] theorem steady_execLadleStatus (ctx cseq : Nat) (s : State) (h : Steady i q (spine s)) : SteadyRes i q (execLadleStatus ctx cseq s) :=
  (steadyRes_next _).mpr <| onCharge_spine h fun _ => ite_spine (steady_report _ _ _ _ h) (steady_putReport _ _ _ _ _ _ _ h)

/-! ## Runners -/

@[simp] theorem steady_tailToMiddle (s : State) (l n : Nat) (h : Steady i q (spine s)) : Steady i q (spine (tailToMiddle s l n)) := by
  unfold tailToMiddle
  dsimp only
  (repeat' split) <;> simp [h]

@[simp] theorem steady_pushEntry (s : State) (l n : Nat) (e : List Byte) (h : Steady i q (spine s)) : Steady i q (spine (pushEntry s l n e)) := by
  unfold pushEntry
  dsimp only
  (repeat' split) <;> simp [h]

@[simp] theorem steady_execRunnerFlush (core runner : Nat) (s : State) (h : Steady i q (spine s)) : SteadyRes i q (execRunnerFlush core runner s) := by
  simp [execRunnerFlush, h]

@[simp] theorem steady_execRunCfgWrite (core runner : Nat) (value : Word64) (s : State) (h : Steady i q (spine s)) :
    SteadyRes i q (execRunCfgWrite core runner value s) := by simp [execRunCfgWrite, h]

@[simp] theorem steady_execRunSpillWrite (core runner : Nat) (value : Word64) (s : State) (h : Steady i q (spine s)) :
    SteadyRes i q (execRunSpillWrite core runner value s) := by simp [execRunSpillWrite, h]

@[simp] theorem steady_execSpillTailWrite (core runner : Nat) (ptrMismatch : Bool) (s : State) (h : Steady i q (spine s)) :
    SteadyRes i q (execSpillTailWrite core runner ptrMismatch s) := by
  unfold execSpillTailWrite
  dsimp only
  (repeat' split) <;> simp [h]

@[simp] theorem steady_execSpillHeadRefill (core runner : Nat) (ptrMismatch : Bool) (f : Finds) (s : State) (h : Steady i q (spine s)) :
    SteadyRes i q (execSpillHeadRefill core runner ptrMismatch f s) := by
  unfold execSpillHeadRefill
  dsimp only
  (repeat' split) <;> simp [h]

/-! ## Engines -/

@[simp] theorem steady_execCompletionSignal (core engine : Nat) (f : Finds) (s : State) (h : Steady i q (spine s)) :
    SteadyRes i q (execCompletionSignal core engine f s) := by
  unfold execCompletionSignal
  (repeat' split) <;> simp [h]

/-! ## Arrays -/

@[simp] theorem steady_execArrayDescriptorStart (core array : Nat) (f : Finds) (s : State) (h : Steady i q (spine s)) :
    SteadyRes i q (execArrayDescriptorStart core array f s) := by
  unfold execArrayDescriptorStart
  dsimp only
  (repeat' split) <;> simp [h]

@[simp] theorem steady_execCheckGroupVerdict (core array : Nat) (first again other : GroupFault) (f : Finds) (s : State) (h : Steady i q (spine s)) :
    SteadyRes i q (execCheckGroupVerdict core array first again other f s) := by
  unfold execCheckGroupVerdict
  dsimp only
  (repeat' split) <;> simp [h]

@[simp] theorem steady_execStrikeExpiry (core array : Nat) (s : State) (h : Steady i q (spine s)) : SteadyRes i q (execStrikeExpiry core array s) := by
  simp [execStrikeExpiry, h]

/-! ## Security -/

@[simp] theorem steady_execDebugClose (ctx cseq : Nat) (s : State) (h : Steady i q (spine s)) : SteadyRes i q (execDebugClose ctx cseq s) :=
  (steadyRes_next _).mpr <| onSecure_spine h fun _ => by simp [h]

@[simp] theorem steady_execDebugTokenExpiry (s : State) (h : Steady i q (spine s)) : SteadyRes i q (execDebugTokenExpiry s) := by
  simp [execDebugTokenExpiry, h]

@[simp] theorem steady_execNonceExpiry (s : State) (h : Steady i q (spine s)) : SteadyRes i q (execNonceExpiry s) := by simp [execNonceExpiry, h]

@[simp] theorem steady_execDbgCoreHalt (core : Nat) (halt : Bool) (s : State) (h : Steady i q (spine s)) :
    SteadyRes i q (execDbgCoreHalt core halt s) := by simp [execDbgCoreHalt, h]

@[simp] theorem steady_execDbgCoreBpEn (core : Nat) (en : Bool) (pc : Nat) (s : State) (h : Steady i q (spine s)) :
    SteadyRes i q (execDbgCoreBpEn core en pc s) := by simp [execDbgCoreBpEn, h]

@[simp] theorem steady_execAttestQuote (ctx cseq : Nat) (s : State) (h : Steady i q (spine s)) : SteadyRes i q (execAttestQuote ctx cseq s) :=
  (steadyRes_next _).mpr <| onSecure_spine h fun _ => ite_spine (steady_report _ _ _ _ h) (steady_putReport _ _ _ _ _ _ _ h)

@[simp] theorem steady_execDebugOpen (ctx cseq : Nat) (fuseBurns : Bool) (f : Finds) (s : State) (h : Steady i q (spine s)) :
    SteadyRes i q (execDebugOpen ctx cseq fuseBurns f s) := by
  refine (steadyRes_next _).mpr <| onSecure_spine h fun e => ite_spine (steady_report _ _ _ _ h) <| ite_spine (steady_report _ _ _ _ h) <|
    ite_spine (ite_spine (steady_report _ _ _ _ h) <| steady_putReport _ _ _ _ _ _ _ h) <| ite_spine ?_ <|
    ite_spine (steady_report _ _ _ _ h) ?_
  · simpa using h
  · have hr : Steady i q (spine (readUnits f noSubject { s := s } (unitsOf (pw e 8) 178)).s) := by simpa using h
    exact ite_spine (steady_report _ _ _ _ hr) (by rw [spine_openWithToken]; exact hr)

@[simp] theorem steady_eraseModule (s : State) (h : Steady i q (spine s)) : Steady i q (spine (eraseModule s)) := by
  have hc : Steady i q (spine (closeScopes s 7)) := by simpa using h
  exact hc.store (eraseModule_wf s) rfl

@[simp] theorem steady_execLifecycleAdvance (ctx cseq : Nat) (f : Finds) (s : State) (h : Steady i q (spine s)) :
    SteadyRes i q (execLifecycleAdvance ctx cseq f s) := by
  refine (steadyRes_next _).mpr <| onSecure_spine h fun e => ite_spine (steady_report _ _ _ _ h) ?_
  dsimp only
  generalize hy : (if ((decide (s.sec.lifecycle = 0) && s.sec.staged) || decide (s.sec.lifecycle = 2)) = true then _ else _ : Acc) = y
  have hs : Steady i q (spine y.s) := by rw [← hy]; split <;> simp [h]
  refine ite_spine (steady_report _ _ _ _ hs) <| ite_spine (steady_putReport _ _ _ _ _ _ _ hs) <|
    ite_spine (ite_spine (steady_report _ _ _ _ hs) (steady_report _ _ _ _ hs)) <| ite_spine (steady_report _ _ _ _ hs) <|
    ite_spine (steady_report _ _ _ _ hs) <| ite_spine (steady_report _ _ _ _ hs) (steady_report _ _ _ _ ?_)
  rw [spine_frame]
  exact steady_eraseModule _ (by simpa using hs)

/-! ## Salfel -/

@[simp] theorem steady_alu (l op : Nat) (f : Word64 → Word64 → Word64) (s : State) (h : Steady i q (spine s)) : SteadyRes i q (alu l op f s) :=
  (steadyRes_next _).mpr <| issue_spine h fun _ => by simp

@[simp] theorem steady_execSalfelNop (core : Nat) (s : State) (h : Steady i q (spine s)) : SteadyRes i q (execSalfelNop core s) :=
  (steadyRes_next _).mpr <| issue_spine h fun _ => by simp

@[simp] theorem steady_execAdd (core : Nat) (s : State) (h : Steady i q (spine s)) : SteadyRes i q (execAdd core s) := by simp [execAdd, h]

@[simp] theorem steady_execSub (core : Nat) (s : State) (h : Steady i q (spine s)) : SteadyRes i q (execSub core s) := by simp [execSub, h]

@[simp] theorem steady_execMul (core : Nat) (s : State) (h : Steady i q (spine s)) : SteadyRes i q (execMul core s) := by simp [execMul, h]

@[simp] theorem steady_execMulhu (core : Nat) (s : State) (h : Steady i q (spine s)) : SteadyRes i q (execMulhu core s) := by simp [execMulhu, h]

@[simp] theorem steady_execAnd (core : Nat) (s : State) (h : Steady i q (spine s)) : SteadyRes i q (execAnd core s) := by simp [execAnd, h]

@[simp] theorem steady_execOr (core : Nat) (s : State) (h : Steady i q (spine s)) : SteadyRes i q (execOr core s) := by simp [execOr, h]

@[simp] theorem steady_execXor (core : Nat) (s : State) (h : Steady i q (spine s)) : SteadyRes i q (execXor core s) := by simp [execXor, h]

@[simp] theorem steady_execShl (core : Nat) (s : State) (h : Steady i q (spine s)) : SteadyRes i q (execShl core s) := by simp [execShl, h]

@[simp] theorem steady_execShr (core : Nat) (s : State) (h : Steady i q (spine s)) : SteadyRes i q (execShr core s) := by simp [execShr, h]

@[simp] theorem steady_execSar (core : Nat) (s : State) (h : Steady i q (spine s)) : SteadyRes i q (execSar core s) := by simp [execSar, h]

@[simp] theorem steady_execMin (core : Nat) (s : State) (h : Steady i q (spine s)) : SteadyRes i q (execMin core s) := by simp [execMin, h]

@[simp] theorem steady_execMax (core : Nat) (s : State) (h : Steady i q (spine s)) : SteadyRes i q (execMax core s) := by simp [execMax, h]

@[simp] theorem steady_execSethi (core : Nat) (s : State) (h : Steady i q (spine s)) : SteadyRes i q (execSethi core s) :=
  (steadyRes_next _).mpr <| issue_spine h fun _ => by simp

@[simp] theorem steady_compare (l op : Nat) (f : Word64 → Word64 → Bool) (s : State) (h : Steady i q (spine s)) :
    SteadyRes i q (compare l op f s) :=
  (steadyRes_next _).mpr <| issue_spine h fun _ => by simp

@[simp] theorem steady_execCmpeq (core : Nat) (s : State) (h : Steady i q (spine s)) : SteadyRes i q (execCmpeq core s) := by simp [execCmpeq, h]

@[simp] theorem steady_execCmplt (core : Nat) (s : State) (h : Steady i q (spine s)) : SteadyRes i q (execCmplt core s) := by simp [execCmplt, h]

@[simp] theorem steady_execCmpltu (core : Nat) (s : State) (h : Steady i q (spine s)) : SteadyRes i q (execCmpltu core s) := by
  simp [execCmpltu, h]

@[simp] theorem steady_execPset (core : Nat) (s : State) (h : Steady i q (spine s)) : SteadyRes i q (execPset core s) :=
  (steadyRes_next _).mpr <| issue_spine h fun _ => by simp

@[simp] theorem steady_execBr (core : Nat) (s : State) (h : Steady i q (spine s)) : SteadyRes i q (execBr core s) :=
  (steadyRes_next _).mpr <| issue_spine h fun _ => by simp

@[simp] theorem steady_execCall (core : Nat) (s : State) (h : Steady i q (spine s)) : SteadyRes i q (execCall core s) :=
  (steadyRes_next _).mpr <| issue_spine h fun _ => by simp

@[simp] theorem steady_execJmp (core : Nat) (s : State) (h : Steady i q (spine s)) : SteadyRes i q (execJmp core s) :=
  (steadyRes_next _).mpr <| issue_spine h fun _ => by simp

@[simp] theorem steady_execLoop (core : Nat) (s : State) (h : Steady i q (spine s)) : SteadyRes i q (execLoop core s) :=
  (steadyRes_next _).mpr <| issue_spine h fun _ => by simp

@[simp] theorem steady_execHalt (core : Nat) (s : State) (h : Steady i q (spine s)) : SteadyRes i q (execHalt core s) :=
  (steadyRes_next _).mpr <| issue_spine h fun _ => by simp

@[simp] theorem steady_execTrap (core : Nat) (s : State) (h : Steady i q (spine s)) : SteadyRes i q (execTrap core s) :=
  (steadyRes_next _).mpr <| issue_spine h fun _ => by simp

@[simp] theorem steady_execLd (core : Nat) (f : Finds) (s : State) (h : Steady i q (spine s)) : SteadyRes i q (execLd core f s) :=
  (steadyRes_next _).mpr <| issue_spine h fun _ _ _ ht => access_spine ht fun _ hu => seqRead_spine hu fun _ hv => by simpa using hv

@[simp] theorem steady_execSt (core : Nat) (s : State) (h : Steady i q (spine s)) : SteadyRes i q (execSt core s) :=
  (steadyRes_next _).mpr <| issue_spine h fun _ _ _ ht => access_spine ht fun _ hu => by simpa using hu

@[simp] theorem steady_atomicOp (l op : Nat) (fi : Finds) (f : Word64 → Word64 → Word64 × Bool) (s : State) (h : Steady i q (spine s)) :
    SteadyRes i q (atomicOp l op fi f s) :=
  (steadyRes_next _).mpr <| issue_spine h fun _ _ _ ht => access_spine ht fun _ hu => seqRead_spine hu fun _ hv => by
    rw [spine_putDst]
    exact ite_spine (by simpa using hv) (by simpa using hv)

@[simp] theorem steady_execAadd (core : Nat) (f : Finds) (s : State) (h : Steady i q (spine s)) : SteadyRes i q (execAadd core f s) := by
  simp [execAadd, h]

@[simp] theorem steady_execAadds (core : Nat) (f : Finds) (s : State) (h : Steady i q (spine s)) : SteadyRes i q (execAadds core f s) := by
  simp [execAadds, h]

@[simp] theorem steady_execAswap (core : Nat) (f : Finds) (s : State) (h : Steady i q (spine s)) : SteadyRes i q (execAswap core f s) := by
  simp [execAswap, h]

@[simp] theorem steady_execArr (core : Nat) (f : Finds) (s : State) (h : Steady i q (spine s)) : SteadyRes i q (execArr core f s) :=
  (steadyRes_next _).mpr <| issue_spine h fun _ => by simp

@[simp] theorem steady_execVec (core : Nat) (f : Finds) (s : State) (h : Steady i q (spine s)) : SteadyRes i q (execVec core f s) :=
  (steadyRes_next _).mpr <| issue_spine h fun _ => by simp

@[simp] theorem steady_execMov (core : Nat) (f : Finds) (s : State) (h : Steady i q (spine s)) : SteadyRes i q (execMov core f s) :=
  (steadyRes_next _).mpr <| issue_spine h fun _ => by simp

@[simp] theorem steady_execQwait (core : Nat) (s : State) (h : Steady i q (spine s)) : SteadyRes i q (execQwait core s) :=
  (steadyRes_next _).mpr <| issue_spine h fun _ => by simp

@[simp] theorem steady_execPush (core : Nat) (mism : Bool) (f : Finds) (s : State) (h : Steady i q (spine s)) :
    SteadyRes i q (execPush core mism f s) :=
  (steadyRes_next _).mpr <| issue_spine h fun _ _ _ ht => addressed_spine ht <| withRunner_spine ht <|
    ite_spine (by simpa using ht) <| permitted_spine ht fun _ hu => seqRead_spine hu fun _ hv => by simp [hv]

@[simp] theorem steady_popOp (l op : Nat) (wait mism : Bool) (f : Finds) (s : State) (h : Steady i q (spine s)) :
    SteadyRes i q (popOp l op wait mism f s) :=
  (steadyRes_next _).mpr <| issue_spine h fun _ _ _ ht => addressed_spine ht <| withRunner_spine ht <|
    ite_spine (ite_spine (by simpa using ht) (by simpa using ht)) <| permitted_spine ht fun _ hu =>
      ite_spine (by simpa using hu) (by simpa using hu)

@[simp] theorem steady_execPop (core : Nat) (ptrMismatch : Bool) (f : Finds) (s : State) (h : Steady i q (spine s)) :
    SteadyRes i q (execPop core ptrMismatch f s) := by simp [execPop, h]

@[simp] theorem steady_execPopw (core : Nat) (ptrMismatch : Bool) (f : Finds) (s : State) (h : Steady i q (spine s)) :
    SteadyRes i q (execPopw core ptrMismatch f s) := by simp [execPopw, h]

@[simp] theorem steady_execSig (core : Nat) (s : State) (h : Steady i q (spine s)) : SteadyRes i q (execSig core s) :=
  (steadyRes_next _).mpr <| issue_spine h fun _ _ _ ht => withRiser_spine ht fun _ =>
    ite_spine (by simpa using ht) <| liveRiser_spine ht fun _ => by simpa using ht

@[simp] theorem steady_execWaitc (core : Nat) (s : State) (h : Steady i q (spine s)) : SteadyRes i q (execWaitc core s) :=
  (steadyRes_next _).mpr <| issue_spine h fun _ _ _ ht => liveRiser_spine ht fun _ => by simpa using ht

@[simp] theorem steady_execWaito (core : Nat) (s : State) (h : Steady i q (spine s)) : SteadyRes i q (execWaito core s) :=
  (steadyRes_next _).mpr <| issue_spine h fun _ _ _ ht => liveRiser_spine ht fun _ => by simpa using ht

@[simp] theorem steady_execRset (core : Nat) (s : State) (h : Steady i q (spine s)) : SteadyRes i q (execRset core s) :=
  (steadyRes_next _).mpr <| issue_spine h fun _ _ _ ht => withRiser_spine ht fun _ => by simpa using ht

@[simp] theorem steady_execRread (core : Nat) (s : State) (h : Steady i q (spine s)) : SteadyRes i q (execRread core s) :=
  (steadyRes_next _).mpr <| issue_spine h fun _ _ _ ht => withRiser_spine ht fun _ => by simpa using ht

@[simp] theorem steady_execTime (core : Nat) (s : State) (h : Steady i q (spine s)) : SteadyRes i q (execTime core s) :=
  (steadyRes_next _).mpr <| issue_spine h fun _ => by simp

@[simp] theorem steady_execWhoami (core : Nat) (s : State) (h : Steady i q (spine s)) : SteadyRes i q (execWhoami core s) :=
  (steadyRes_next _).mpr <| issue_spine h fun _ => by simp

@[simp] theorem steady_salfelRow (op l : Nat) (mism : Bool) (f : Finds) (s : State) (h : Steady i q (spine s)) :
    SteadyRes i q (salfelRow op l mism f s) := by unfold salfelRow; split <;> simp [h]

@[simp] theorem steady_stepCore (s : State) (l : Nat) (mism : Bool) (f : Finds) (h : Steady i q (spine s)) :
    Steady i q (spine (stepCore s l mism f)) := by
  unfold stepCore
  dsimp only
  split
  next u hu =>
    rw [spine_modCore]
    exact steady_salfelRow _ l mism f _ (by simpa using h) u hu
  · exact h

@[simp] theorem steady_execDbgCoreStep (core : Nat) (ptrMismatch : Bool) (f : Finds) (s : State) (h : Steady i q (spine s)) :
    SteadyRes i q (execDbgCoreStep core ptrMismatch f s) := by unfold execDbgCoreStep; split <;> simp [h]

/-! ## Registers -/

@[simp] theorem steady_writeDebug (f : Finds) (s : State) (l v : Nat) (h : Steady i q (spine s)) : Steady i q (spine (writeDebug f s l v)) := by
  unfold writeDebug
  split <;> simp [h]

@[simp] theorem steady_regWrite (f : Finds) (s : State) (b : RegBlock) (o v : Nat) (h : Steady i q (spine s)) :
    Steady i q (spine (regWrite f s b o v)) := by unfold regWrite; split <;> simp [h]

@[simp] theorem steady_regPut (f : Finds) (s : State) (b : RegBlock) (o : Nat) (d : List Byte) (skip : Nat → Bool) (h : Steady i q (spine s)) :
    Steady i q (spine (regPut f s b o d skip)) :=
  steady_foldl (fun t n ht => by split <;> simp [ht]) _ h

/-! ## Bursts -/

@[simp] theorem steady_copyBursts (f : Finds) (master subj : Nat) (x : Acc) (bs : List (Nat × Nat × Nat)) (h : Steady i q (spine x.s)) :
    Steady i q (spine (copyBursts f master subj x bs).s) :=
  steady_foldl_acc (fun y b hy => steady_copyRow f master subj b.1 b.2.1 _ _ y hy) _ (by simpa using h)

@[simp] theorem steady_copyShots (f : Finds) (master l : Nat) (x : Acc) (bs : List (Nat × Nat × Nat)) (h : Steady i q (spine x.s)) :
    Steady i q (spine (copyShots f master l x bs).1.s) := by
  refine foldl_keeps (P := fun y : Acc × Bool => Steady i q (spine y.1.s)) (fun y c hy => ?_) _ (by simpa using h)
  dsimp only
  (repeat' split) <;> simp [hy]

@[simp] theorem steady_putBursts (f : Finds) (master subj : Nat) (data : Nat → Nat → List Byte) (x : Acc) (bs : List (Nat × Nat × Nat))
    (h : Steady i q (spine x.s)) : Steady i q (spine (putBursts f master subj data x bs).s) :=
  steady_foldl_acc (fun y b hy => steady_writeAt f master subj y b.2.1 _ hy) _ h

@[simp] theorem steady_fillBursts (f : Finds) (master subj pattern : Nat) (x : Acc) (bs : List (Nat × Nat × Nat)) (h : Steady i q (spine x.s)) :
    Steady i q (spine (fillBursts f master subj pattern x bs).s) :=
  steady_foldl_acc (fun y b hy => steady_writeAt f master subj y b.2.1 _ hy) _ h

@[simp] theorem steady_gatherElem (f : Finds) (master subj : Nat) (g : GatherJob) (bad : List Nat) (y : GatherAcc) (n : Nat)
    (h : Steady i q (spine y.x.s)) : Steady i q (spine (gatherElem f master subj g bad y n).x.s) := by
  unfold gatherElem
  dsimp only
  (repeat' split) <;> simp [h]

@[simp] theorem steady_gatherWindow (f : Finds) (master subj : Nat) (g : GatherJob) (y : GatherAcc) (w : Nat)
    (h : Steady i q (spine y.x.s)) : Steady i q (spine (gatherWindow f master subj g y w).x.s) :=
  foldl_keeps (P := fun y : GatherAcc => Steady i q (spine y.x.s)) (fun z n hz => steady_gatherElem f master subj g _ z n hz) _ (by simpa using h)

@[simp] theorem steady_gatherWindows (f : Finds) (master subj : Nat) (g : GatherJob) (ws : List Nat) (y : GatherAcc)
    (h : Steady i q (spine y.x.s)) : Steady i q (spine (gatherWindows f master subj g ws y).x.s) := by
  induction ws generalizing y with
  | nil => exact h
  | cons w r ih => unfold gatherWindows; split <;> simp [h, ih]

/-! ## MemCharges -/

@[simp] theorem steady_registerCopy (s : State) (c cseq : Nat) (f : Finds) (src dst n : Nat) (h : Steady i q (spine s)) :
    Steady i q (spine (registerCopy s c cseq f src dst n)) := by
  unfold registerCopy
  dsimp only
  (repeat' split) <;> simp [h]

@[simp] theorem steady_copyByShots (s : State) (c cseq l : Nat) (e : Entry) (f : Finds) (src dst n : Nat) (h : Steady i q (spine s)) :
    Steady i q (spine (copyByShots s c cseq l e f src dst n)) := by
  unfold copyByShots
  dsimp only
  (repeat' split) <;> simp [h]

@[simp] theorem steady_execCopy (ctx cseq : Nat) (f : Finds) (s : State) (h : Steady i q (spine s)) : SteadyRes i q (execCopy ctx cseq f s) := by
  refine (steadyRes_next _).mpr <| fabricCharge_spine h fun e => ite_spine (steady_registerCopy _ _ _ _ _ _ _ h) <|
    ite_spine (steady_report _ _ _ _ h) <| ite_spine h ?_
  split
  · exact ite_spine h (steady_copyByShots _ _ _ _ _ _ _ _ _ h)
  · exact runCharge_spine h fun t m b ht => steady_copyBursts _ _ _ _ _ ht

@[simp] theorem steady_execFill (ctx cseq : Nat) (f : Finds) (s : State) (h : Steady i q (spine s)) : SteadyRes i q (execFill ctx cseq f s) :=
  (steadyRes_next _).mpr <| fabricCharge_spine h fun _ => ite_spine (steady_report _ _ _ _ h) <| ite_spine h <|
    runCharge_spine h fun _ _ _ ht => steady_fillBursts _ _ _ _ _ _ ht

@[simp] theorem steady_execHostRead (ctx cseq : Nat) (data : List Byte) (f : Finds) (s : State) (h : Steady i q (spine s)) :
    SteadyRes i q (execHostRead ctx cseq data f s) :=
  (steadyRes_next _).mpr <| fabricCharge_spine h fun _ => ite_spine (steady_report _ _ _ _ h) <|
    ite_spine (steady_report _ _ _ _ h) <| ite_spine h <|
    runCharge_spine h fun _ _ _ ht => steady_putBursts _ _ _ _ _ _ (by simpa using ht)

@[simp] theorem steady_execHostWrite (ctx cseq : Nat) (f : Finds) (s : State) (h : Steady i q (spine s)) :
    SteadyRes i q (execHostWrite ctx cseq f s) :=
  (steadyRes_next _).mpr <| fabricCharge_spine h fun _ => ite_spine (steady_report _ _ _ _ h) <|
    ite_spine (steady_report _ _ _ _ h) <| ite_spine h <| runCharge_spine h fun _ _ _ ht => by simpa using ht

@[simp] theorem steady_gatherReport (y : GatherAcc) (c n : Nat) (aborted : Bool) (h : Steady i q (spine y.x.s)) :
    Steady i q (spine (gatherReport y c n aborted)) := by simpa using h

@[simp] theorem steady_execGather (ctx cseq : Nat) (f : Finds) (s : State) (h : Steady i q (spine s)) : SteadyRes i q (execGather ctx cseq f s) := by
  refine (steadyRes_next _).mpr <| fabricCharge_spine h fun e => ite_spine (steady_report _ _ _ _ h) <| ite_spine h <| ite_spine ?_ ?_
  · rw [spine_report]
    split <;> simp [h]
  · exact steady_gatherReport _ _ _ _ (steady_gatherWindows _ _ _ _ _ _ (ite_spine (by simpa using h) h))

/-! ## Shots -/

@[simp] theorem steady_execOpenFlow (core : Nat) (shot : Shot) (s : State) (h : Steady i q (spine s)) : SteadyRes i q (execOpenFlow core shot s) := by
  simp [execOpenFlow, h]

@[simp] theorem steady_execWrite (core : Nat) (shot : Shot) (f : Finds) (s : State) (h : Steady i q (spine s)) :
    SteadyRes i q (execWrite core shot f s) := by
  refine (steadyRes_next _).mpr <| dataShot_spine h fun x => ?_
  have ha := spine_shotAllowed s core .wr (nextLine x).2.1 ((nextLine x).2.2 - (nextLine x).2.1)
  dsimp only
  split
  · simp_all
  · refine ite_spine ?_ ?_ <;> simp_all

@[simp] theorem steady_execAtomic (core : Nat) (shot : Shot) (f : Finds) (s : State) (h : Steady i q (spine s)) :
    SteadyRes i q (execAtomic core shot f s) := by simp [execAtomic, h]

@[simp] theorem steady_execAtomicSat (core : Nat) (shot : Shot) (f : Finds) (s : State) (h : Steady i q (spine s)) :
    SteadyRes i q (execAtomicSat core shot f s) := by simp [execAtomicSat, h]

@[simp] theorem steady_execEntry (core : Nat) (shot : Shot) (mism : Bool) (s : State) (h : Steady i q (spine s)) :
    SteadyRes i q (execEntry core shot mism s) :=
  (steadyRes_next _).mpr <| dataShot_spine h fun _ => ite_spine (by simpa using h) <| ite_spine (by simpa using h) <|
    ite_spine (by simpa using h) <| by simp [h]

/-! ## Movers -/

@[simp] theorem steady_execMoveCopy (core mover : Nat) (data : List Byte) (f : Finds) (s : State) (h : Steady i q (spine s)) :
    SteadyRes i q (execMoveCopy core mover data f s) := by
  refine (steadyRes_next _).mpr <| moverRow_spine h fun j d => ?_
  have hs : ∀ bs, Steady i q (spine (countUnits (moverBursts s core bs).1 core (moverBursts s core bs).2)) := fun bs => by simpa using h
  refine ite_spine ?_ (ite_spine ?_ (ite_spine ?_ ?_))
  · rw [spine_engineTrap]; exact hs _
  · rw [spine_moverEnd]; exact steady_putBursts _ _ _ _ _ _ (hs _)
  · rw [spine_moverEnd, spine_hostBursts]; exact hs _
  · rw [spine_moverEnd]; exact steady_copyBursts _ _ _ _ _ (hs _)

@[simp] theorem steady_execMoveFill (core mover : Nat) (f : Finds) (s : State) (h : Steady i q (spine s)) :
    SteadyRes i q (execMoveFill core mover f s) :=
  (steadyRes_next _).mpr <| moverRow_spine h fun _ => by simp [h]

@[simp] theorem steady_execMoveSend (core mover : Nat) (f : Finds) (s : State) (h : Steady i q (spine s)) :
    SteadyRes i q (execMoveSend core mover f s) :=
  (steadyRes_next _).mpr <| moverRow_spine h fun _ => by simp [h]

@[simp] theorem steady_execMoveSendAtomic (core mover : Nat) (f : Finds) (s : State) (h : Steady i q (spine s)) :
    SteadyRes i q (execMoveSendAtomic core mover f s) :=
  (steadyRes_next _).mpr <| moverRow_spine h fun _ => by simp [h]

@[simp] theorem steady_pushOne (f : Finds) (l m : Nat) (d : List Byte) (k : Nat) (x : Acc) (h : Steady i q (spine x.s)) :
    Steady i q (spine (pushOne f l m d k x).s) := by
  unfold pushOne
  dsimp only
  (repeat' split) <;> simp [h]

@[simp] theorem steady_popOne (f : Finds) (l m : Nat) (d : List Byte) (k : Nat) (x : Acc) (h : Steady i q (spine x.s)) :
    Steady i q (spine (popOne f l m d k x).s) := by
  unfold popOne
  dsimp only
  (repeat' split) <;> simp [h]

@[simp] theorem steady_execMoveRunnerPush (core mover : Nat) (mism : Option Nat) (f : Finds) (s : State) (h : Steady i q (spine s)) :
    SteadyRes i q (execMoveRunnerPush core mover mism f s) :=
  (steadyRes_next _).mpr <| moverRow_spine h fun _ _ =>
    ite_spine (runnerRow_spine h fun k x hx => steady_pushOne _ _ _ _ k x hx) (by simpa using h)

@[simp] theorem steady_execMoveRunnerPop (core mover : Nat) (mism : Option Nat) (f : Finds) (s : State) (h : Steady i q (spine s)) :
    SteadyRes i q (execMoveRunnerPop core mover mism f s) :=
  (steadyRes_next _).mpr <| moverRow_spine h fun _ _ => runnerRow_spine h fun k x hx => steady_popOne _ _ _ _ k x hx

@[simp] theorem steady_execMoveGather (core mover : Nat) (f : Finds) (s : State) (h : Steady i q (spine s)) :
    SteadyRes i q (execMoveGather core mover f s) :=
  (steadyRes_next _).mpr <| moverRow_spine h fun _ => by simp [h]

/-! ## Launch -/

@[simp] theorem steady_execProgLoad (ctx cseq : Nat) (f : Finds) (s : State) (h : Steady i q (spine s)) :
    SteadyRes i q (execProgLoad ctx cseq f s) :=
  (steadyRes_next _).mpr <| itemCharge_spine h fun _ => by simp [h]

@[simp] theorem steady_execTableLoad (ctx cseq : Nat) (f : Finds) (s : State) (h : Steady i q (spine s)) :
    SteadyRes i q (execTableLoad ctx cseq f s) :=
  (steadyRes_next _).mpr <| itemCharge_spine h fun _ => by simp [h]

@[simp] theorem steady_execLaunch (ctx cseq : Nat) (f : Finds) (s : State) (h : Steady i q (spine s)) : SteadyRes i q (execLaunch ctx cseq f s) :=
  (steadyRes_next _).mpr <| itemCharge_spine h fun _ => by simp [h]

@[simp] theorem steady_execLaunchStop (core : Nat) (s : State) (h : Steady i q (spine s)) : SteadyRes i q (execLaunchStop core s) := by
  unfold execLaunchStop
  split <;> simp [h]

/-! ## Groups -/

@[simp] theorem steady_freeFill (s : State) (a n : Nat) (h : Steady i q (spine s)) : Steady i q (spine (freeFill s a n)) :=
  h.store (foldl_tset_wf _ _ _ h.wf) rfl

@[simp] theorem steady_spoilDst (s : State) (k : Coll) (h : Steady i q (spine s)) : Steady i q (spine (spoilDst s k)) := by
  unfold spoilDst
  (repeat' split) <;> simp [h]

@[simp] theorem steady_stopColl (s : State) (k : Coll) (status : Nat) (h : Steady i q (spine s)) : Steady i q (spine (stopColl s k status)) := by
  simp [stopColl, h]

@[simp] theorem steady_originEnd (s : State) (k : Coll) (own carried : Nat) (h : Steady i q (spine s)) :
    Steady i q (spine (originEnd s k own carried)) := by simp [originEnd, h]

@[simp] theorem steady_collPortDown (s : State) (p : Nat) (h : Steady i q (spine s)) : Steady i q (spine (collPortDown s p)) :=
  steady_foldl (fun t k ht => steady_originEnd t k _ _ ht) _ (by simpa [↓spine_frame] using h)

/-! ## Routing -/

@[simp] theorem steady_execDrainEmit (port : Nat) (s : State) (h : Steady i q (spine s)) : SteadyRes i q (execDrainEmit port s) := by
  unfold execDrainEmit
  split <;> simp [h]

@[simp] theorem steady_execDrain (port : Nat) (shot : Shot) (s : State) (h : Steady i q (spine s)) : SteadyRes i q (execDrain port shot s) := by
  refine (steadyRes_next _).mpr <| ite_spine h ?_
  rw [spine_settleOld, spine_oweCredit, spine_route, spine_modLPort]
  exact h

@[simp] theorem steady_execShotForward (port : Nat) (s : State) (h : Steady i q (spine s)) : SteadyRes i q (execShotForward port s) := by
  unfold execShotForward
  split <;> simp [h]

@[simp] theorem steady_execRouteTableLoad (ctx cseq : Nat) (s : State) (h : Steady i q (spine s)) : SteadyRes i q (execRouteTableLoad ctx cseq s) :=
  (steadyRes_next _).mpr <| onCharge_spine h fun _ => by simp [h]

@[simp] theorem steady_switchEpoch (s : State) (t : RouteTab) (h : Steady i q (spine s)) : Steady i q (spine (switchEpoch s t)) := by
  unfold switchEpoch
  dsimp only
  rw [spine_foldl fun u p => spine_modLPort ..]
  exact ⟨h.1, h.2.1, h.2.2.1, h.2.2.2.1, Nat.mod_lt _ (by decide)⟩

@[simp] theorem steady_execRouteEpochSwitch (ctx cseq : Nat) (s : State) (h : Steady i q (spine s)) :
    SteadyRes i q (execRouteEpochSwitch ctx cseq s) := by
  refine (steadyRes_next _).mpr <| onCharge_spine h fun e => ite_spine (by simpa using h) <| ite_spine (steady_report _ _ _ _ h) ?_
  split
  next t _ =>
    have ht : Steady i q (spine (switchEpoch s t)) := steady_switchEpoch s t h
    refine ite_spine ?_ ?_
    · rw [spine_settleOld, spine_modRunning]; exact ht
    · rw [spine_settleOld, spine_report]; exact ht
  · exact h

@[simp] theorem steady_execMcastTreeLoad (ctx cseq : Nat) (s : State) (h : Steady i q (spine s)) : SteadyRes i q (execMcastTreeLoad ctx cseq s) :=
  (steadyRes_next _).mpr <| onCharge_spine h fun _ => by simp [h]

/-! ## Links -/

@[simp] theorem steady_clearPort (s : State) (p : Nat) (h : Steady i q (spine s)) : Steady i q (spine (clearPort s p)) := by simp [clearPort, h]

@[simp] theorem steady_portDown (s : State) (n reason : Nat) (h : Steady i q (spine s)) : Steady i q (spine (portDown s n reason)) := by
  unfold portDown
  dsimp only
  (repeat' split) <;> simp [h]

@[simp] theorem steady_dropLink (s : State) (n reason : Nat) (announced : Bool) (h : Steady i q (spine s)) :
    Steady i q (spine (dropLink s n reason announced)) := by
  unfold dropLink
  dsimp only
  (repeat' split) <;> simp [h]

@[simp] theorem steady_finishLeave (s : State) (n : Nat) (h : Steady i q (spine s)) : Steady i q (spine (finishLeave s n)) := by
  unfold finishLeave
  dsimp only
  (repeat' split) <;> simp [h]

@[simp] theorem steady_leaveLink (s : State) (n : Nat) (h : Steady i q (spine s)) : Steady i q (spine (leaveLink s n)) := by
  unfold leaveLink
  dsimp only
  (repeat' split) <;> simp [h]

@[simp] theorem steady_execLinkDataFrame (link : Nat) (wire : List Byte) (fecOk : Bool) (s : State) (h : Steady i q (spine s)) :
    SteadyRes i q (execLinkDataFrame link wire fecOk s) := by unfold execLinkDataFrame; split <;> simp [h]

@[simp] theorem steady_execAckOnlyFrame (link : Nat) (wire : List Byte) (fecOk : Bool) (s : State) (h : Steady i q (spine s)) :
    SteadyRes i q (execAckOnlyFrame link wire fecOk s) := by unfold execAckOnlyFrame; split <;> simp [h]

@[simp] theorem steady_execIdleFrameTimer (link : Nat) (s : State) (h : Steady i q (spine s)) : SteadyRes i q (execIdleFrameTimer link s) := by
  simp [execIdleFrameTimer, h]

@[simp] theorem steady_execAckTimeout (link : Nat) (s : State) (h : Steady i q (spine s)) : SteadyRes i q (execAckTimeout link s) := by
  simp [execAckTimeout, h]

@[simp] theorem steady_execRetryLimit (link : Nat) (s : State) (h : Steady i q (spine s)) : SteadyRes i q (execRetryLimit link s) := by
  unfold execRetryLimit
  dsimp only
  (repeat' split) <;> simp [h]

@[simp] theorem steady_execLossOfLock (link : Nat) (s : State) (h : Steady i q (spine s)) : SteadyRes i q (execLossOfLock link s) := by
  unfold execLossOfLock
  split <;> simp [h]

@[simp] theorem steady_execLinkTrained (link : Nat) (s : State) (h : Steady i q (spine s)) : SteadyRes i q (execLinkTrained link s) := by
  simp [execLinkTrained, h]

@[simp] theorem steady_execTrainingFailed (link : Nat) (s : State) (h : Steady i q (spine s)) : SteadyRes i q (execTrainingFailed link s) := by
  simp [execTrainingFailed, h]

@[simp] theorem steady_execDropRetrainTimer (link : Nat) (s : State) (h : Steady i q (spine s)) : SteadyRes i q (execDropRetrainTimer link s) := by
  simp [execDropRetrainTimer, h]

@[simp] theorem steady_execDropAllowanceSpanEnd (link : Nat) (s : State) (h : Steady i q (spine s)) :
    SteadyRes i q (execDropAllowanceSpanEnd link s) := by simp [execDropAllowanceSpanEnd, h]

@[simp] theorem steady_execLinkLeaveBundle (link : Nat) (s : State) (h : Steady i q (spine s)) : SteadyRes i q (execLinkLeaveBundle link s) := by
  unfold execLinkLeaveBundle
  dsimp only
  (repeat' split) <;> simp [h]

@[simp] theorem steady_execChallenge (link : Nat) (wire : List Byte) (fecOk : Bool) (s : State) (h : Steady i q (spine s)) :
    SteadyRes i q (execChallenge link wire fecOk s) :=
  (steadyRes_next _).mpr <| controlFrame_spine h fun _ => by simp

@[simp] theorem steady_execIdentity (link : Nat) (wire : List Byte) (fecOk : Bool) (s : State) (h : Steady i q (spine s)) :
    SteadyRes i q (execIdentity link wire fecOk s) :=
  (steadyRes_next _).mpr <| controlFrame_spine h fun _ => by simp

@[simp] theorem steady_execVerdict (link : Nat) (wire : List Byte) (fecOk : Bool) (s : State) (h : Steady i q (spine s)) :
    SteadyRes i q (execVerdict link wire fecOk s) :=
  (steadyRes_next _).mpr <| controlFrame_spine h fun _ => by simp

@[simp] theorem steady_takeDrop (port index reason : Nat) (s : State) (h : Steady i q (spine s)) :
    Steady i q (spine (takeDrop port index reason s)) := by
  unfold takeDrop
  dsimp only
  (repeat' split) <;> simp [h]

@[simp] theorem steady_execDrop (link : Nat) (wire : List Byte) (fecOk : Bool) (s : State) (h : Steady i q (spine s)) :
    SteadyRes i q (execDrop link wire fecOk s) := by
  refine (steadyRes_next _).mpr <| controlFrame_spine h fun _ _ _ ht => ?_
  simp [ht]

@[simp] theorem steady_execLeave (link : Nat) (wire : List Byte) (fecOk : Bool) (s : State) (h : Steady i q (spine s)) :
    SteadyRes i q (execLeave link wire fecOk s) :=
  (steadyRes_next _).mpr <| controlFrame_spine h fun _ => by simp

@[simp] theorem steady_execDrawnIntent (link : Nat) (wire : List Byte) (fecOk : Bool) (s : State) (h : Steady i q (spine s)) :
    SteadyRes i q (execDrawnIntent link wire fecOk s) :=
  (steadyRes_next _).mpr <| controlFrame_spine h fun _ => by simp

@[simp] theorem steady_execLinkControlRepeat (link : Nat) (s : State) (h : Steady i q (spine s)) : SteadyRes i q (execLinkControlRepeat link s) := by
  unfold execLinkControlRepeat
  dsimp only
  (repeat' split) <;> simp [h]

@[simp] theorem steady_execNeighborSolicitation (link target : Nat) (s : State) (h : Steady i q (spine s)) :
    SteadyRes i q (execNeighborSolicitation link target s) := by unfold execNeighborSolicitation; split <;> simp [h]

@[simp] theorem steady_execEchoRequest (link dest : Nat) (data : List Byte) (s : State) (h : Steady i q (spine s)) :
    SteadyRes i q (execEchoRequest link dest data s) := by unfold execEchoRequest; split <;> simp [h]

@[simp] theorem steady_endLoop (s : State) (n word measured : Nat) (h : Steady i q (spine s)) : Steady i q (spine (endLoop s n word measured)) := by
  unfold endLoop
  dsimp only
  (repeat' split) <;> simp [h]

@[simp] theorem steady_preemptLoop (s : State) (n : Nat) (h : Steady i q (spine s)) : Steady i q (spine (preemptLoop s n)) := by
  unfold preemptLoop
  split <;> simp [h]

@[simp] theorem steady_remapLink (s : State) (n : Nat) (expected : Bool) (h : Steady i q (spine s)) : Steady i q (spine (remapLink s n expected)) := by
  unfold remapLink
  dsimp only
  (repeat' split) <;> simp [h]

@[simp] theorem steady_remapLinks (s : State) (old : Option (List Byte)) (m : List Byte) (h : Steady i q (spine s)) :
    Steady i q (spine (remapLinks s old m)) := by
  refine steady_foldl (fun t p ht => ?_) _ h
  have hport : ∀ b : Nat → Bool, Steady i q (spine ((portLinks p).foldl (fun s n => remapLink s n (b n)) t)) := fun b =>
    steady_foldl (fun u n hu => steady_remapLink u n (b n) hu) _ ht
  cases old with
  | none => exact hport _
  | some o =>
    dsimp only
    split
    · exact ht
    · exact hport _

@[simp] theorem steady_execMapLoad (ctx cseq : Nat) (f : Finds) (s : State) (h : Steady i q (spine s)) : SteadyRes i q (execMapLoad ctx cseq f s) := by
  refine (steadyRes_next _).mpr <| onCharge_spine h fun e => ite_spine (steady_report _ _ _ _ h) <| ite_spine (by simpa using h) ?_
  have hr : Steady i q (spine (readAt f 8 noSubject { s := s } [(pw e 0, 1024)]).s) := by simpa using h
  refine ite_spine (steady_report _ _ _ _ hr) <| ite_spine (steady_report _ _ _ _ hr) ?_
  rw [spine_report, spine_remapTwin]
  exact steady_remapLinks _ _ _ hr

@[simp] theorem steady_execMapRead (ctx cseq : Nat) (s : State) (h : Steady i q (spine s)) : SteadyRes i q (execMapRead ctx cseq s) :=
  (steadyRes_next _).mpr <| onCharge_spine h fun _ => ite_spine (steady_report _ _ _ _ h) (steady_putDevice _ _ _ _ _ _ h)

@[simp] theorem steady_execLinkStatus (ctx cseq : Nat) (s : State) (h : Steady i q (spine s)) : SteadyRes i q (execLinkStatus ctx cseq s) :=
  (steadyRes_next _).mpr <| onCharge_spine h fun _ => ite_spine (steady_report _ _ _ _ h) (steady_putDevice _ _ _ _ _ _ h)

@[simp] theorem steady_retrainLink (s : State) (n : Nat) (h : Steady i q (spine s)) : Steady i q (spine (retrainLink s n)) := by
  simp [retrainLink, h]

@[simp] theorem steady_execLinkRetrain (ctx cseq : Nat) (s : State) (h : Steady i q (spine s)) : SteadyRes i q (execLinkRetrain ctx cseq s) := by
  refine (steadyRes_next _).mpr <| onCharge_spine h fun e => ite_spine ?_ <| ite_spine (steady_report _ _ _ _ h) h
  refine ite_spine (steady_report _ _ _ _ h) ?_
  have hr : Steady i q (spine ((bitsOf 48 (fld (pw e 0) 47 0)).foldl retrainLink s)) := steady_foldl (fun t n ht => steady_retrainLink t n ht) _ h
  exact ite_spine (steady_report _ _ _ _ hr) (by rw [spine_modRunning]; exact hr)

/-! ## Contexts -/

@[simp] theorem steady_hopperStore (s : State) (c n : Nat) (h : Steady i q (spine s)) : Steady i q (spine (hopperStore s c n)) :=
  h.store (foldl_tset_wf _ _ _ h.wf) rfl

@[simp] theorem steady_enterHopper (s : State) (c : Nat) (e : Entry) (h : Steady i q (spine s)) : Steady i q (spine (enterHopper s c e)) := by
  simp [enterHopper, h]

@[simp] theorem steady_pump (s : State) (c n : Nat) (h : Steady i q (spine s)) : Steady i q (spine (pump s c n)) := by
  induction n generalizing s with
  | zero => exact h
  | succ n ih =>
    unfold pump
    dsimp only
    split
    · exact h
    · split
      · exact h
      · apply ih
        (repeat' split) <;> simp [h]

@[simp] theorem steady_pumpAll (s : State) (c : Nat) (h : Steady i q (spine s)) : Steady i q (spine (pumpAll s c)) := by simp [pumpAll, h]

@[simp] theorem steady_execIntakeWrite (p : HostPort) (ctx off : Nat) (data : List Byte) (s : State) (h : Steady i q (spine s)) :
    SteadyRes i q (execIntakeWrite p ctx off data s) := by
  unfold execIntakeWrite
  dsimp only
  (repeat' split) <;> simp [h]

@[simp] theorem steady_execChargeDispatch (ctx : Nat) (f : Finds) (s : State) (h : Steady i q (spine s)) :
    SteadyRes i q (execChargeDispatch ctx f s) := by
  unfold execChargeDispatch
  dsimp only
  (repeat' split) <;> simp [h]

@[simp] theorem steady_execExecutorFinishReport (ctx cseq : Nat) (s : State) (h : Steady i q (spine s)) :
    SteadyRes i q (execExecutorFinishReport ctx cseq s) := by simp [execExecutorFinishReport, h]

@[simp] theorem steady_abortRunning (s : State) (c cseq : Nat) (h : Steady i q (spine s)) : Steady i q (spine (abortRunning s c cseq)) := by
  unfold abortRunning
  split <;> simp [h]

@[simp] theorem steady_execAbortMark (ctx : Nat) (s : State) (h : Steady i q (spine s)) : SteadyRes i q (execAbortMark ctx s) := by
  unfold execAbortMark
  dsimp only
  (repeat' split) <;> simp [h]

@[simp] theorem steady_execChargeRetire (ctx : Nat) (s : State) (h : Steady i q (spine s)) : SteadyRes i q (execChargeRetire ctx s) := by
  unfold execChargeRetire
  dsimp only
  (repeat' split) <;> simp [h]

@[simp] theorem steady_execConsumedCountPoll (ctx value : Nat) (s : State) (h : Steady i q (spine s)) :
    SteadyRes i q (execConsumedCountPoll ctx value s) := by simp [execConsumedCountPoll, h]

@[simp] theorem steady_acceptWaiting (s : State) (c : Nat) (h : Steady i q (spine s)) : Steady i q (spine (acceptWaiting s c)) := by
  unfold acceptWaiting
  dsimp only
  rw [spine_modCtx]
  exact steady_foldl (fun t e ht => steady_enterHopper t c e ht) _ h

@[simp] theorem steady_execCtxOpen (ctx : Nat) (s : State) (h : Steady i q (spine s)) : SteadyRes i q (execCtxOpen ctx s) := by
  unfold execCtxOpen
  dsimp only
  (repeat' split) <;> simp [h]

@[simp] theorem steady_execCtxTakeover (ctx : Nat) (s : State) (h : Steady i q (spine s)) : SteadyRes i q (execCtxTakeover ctx s) := by
  unfold execCtxTakeover
  dsimp only
  (repeat' split) <;> simp [h]

@[simp] theorem steady_execTakeoverApply (ctx : Nat) (s : State) (h : Steady i q (spine s)) : SteadyRes i q (execTakeoverApply ctx s) := by
  unfold execTakeoverApply
  dsimp only
  (repeat' split) <;> simp [h]

@[simp] theorem steady_execCtxClose (ctx cseq : Nat) (s : State) (h : Steady i q (spine s)) : SteadyRes i q (execCtxClose ctx cseq s) :=
  (steadyRes_next _).mpr <| onCharge_spine h fun _ => by simp [h]

@[simp] theorem steady_actFlush (s : State) (c cseq op : Nat) (abort : Bool) (h : Steady i q (spine s)) :
    Steady i q (spine (actFlush s c cseq op abort)) := by simp [actFlush, h]

@[simp] theorem steady_admitReset (s : State) (c cseq : Nat) (h : Steady i q (spine s)) : Steady i q (spine (admitReset s c cseq)) := by
  unfold admitReset
  dsimp only
  (repeat' split) <;> simp [h]

@[simp] theorem steady_execCtxReset (ctx cseq : Nat) (s : State) (h : Steady i q (spine s)) : SteadyRes i q (execCtxReset ctx cseq s) := by
  have ha := steady_admitReset s ctx cseq h
  refine (steadyRes_next _).mpr ?_
  split
  · exact ite_spine ha <| ite_spine (steady_actFlush _ _ _ _ _ ha) (by simpa using ha)
  · exact onCharge_spine ha fun e => ite_spine (steady_report _ _ _ _ ha) (steady_report _ _ _ _ ha)

@[simp] theorem steady_execHopperFlush (ctx cseq : Nat) (s : State) (h : Steady i q (spine s)) : SteadyRes i q (execHopperFlush ctx cseq s) := by
  refine (steadyRes_next _).mpr ?_
  split
  · exact ite_spine h <| ite_spine (steady_actFlush _ _ _ _ _ h) (by simpa using h)
  · exact onCharge_spine h fun e => ite_spine (steady_report _ _ _ _ h) (steady_report _ _ _ _ h)

@[simp] theorem steady_execChargeAbort (ctx cseq : Nat) (s : State) (h : Steady i q (spine s)) : SteadyRes i q (execChargeAbort ctx cseq s) := by
  refine (steadyRes_next _).mpr ?_
  split
  · exact ite_spine h <| ite_spine (by simpa using h) (by simpa using h)
  · exact onCharge_spine h fun e => ite_spine (steady_report _ _ _ _ h) <| ite_spine (steady_report _ _ _ _ h) (steady_report _ _ _ _ h)

@[simp] theorem steady_execNop (ctx cseq : Nat) (s : State) (h : Steady i q (spine s)) : SteadyRes i q (execNop ctx cseq s) :=
  (steadyRes_next _).mpr <| onCharge_spine h fun _ => by simp [h]

/-! ## Ports -/

@[simp] theorem steady_execBar4Write (p : HostPort) (off : Nat) (data : List Byte) (f : Finds) (s : State) (h : Steady i q (spine s)) :
    SteadyRes i q (execBar4Write p off data f s) := by
  refine (steadyRes_next _).mpr <| ite_spine h <| ite_spine h ?_
  split
  · simpa using h
  · exact steady_writeDev _ _ _ _ _ h
  next l o _ =>
    have hc := spine_checkRegion s l 8 .wr [(o, data.length)] 0
    split <;> simp_all

@[simp] theorem steady_execBar4Read (p : HostPort) (off len : Nat) (f : Finds) (s : State) (h : Steady i q (spine s)) :
    SteadyRes i q (execBar4Read p off len f s) := by
  refine (steadyRes_next _).mpr <| ite_spine h <| ite_spine (by simpa using h) <| ite_spine h ?_
  split
  · simpa using h
  · simpa using h
  next l o _ =>
    have hc := spine_checkRegion s l 8 .rd [(o, len)] 0
    split <;> simp_all

@[simp] theorem steady_execRegisterWrite (p : HostPort) (off : Nat) (data : List Byte) (s : State) (h : Steady i q (spine s)) :
    SteadyRes i q (execRegisterWrite p off data s) := by simp [execRegisterWrite, h]

@[simp] theorem steady_execPortReset (p : HostPort) (s : State) (h : Steady i q (spine s)) : SteadyRes i q (execPortReset p s) := by
  simp [execPortReset, h]

@[simp] theorem steady_execFunctionLevelReset (p : HostPort) (s : State) (h : Steady i q (spine s)) : SteadyRes i q (execFunctionLevelReset p s) := by
  simp [execFunctionLevelReset, h]

@[simp] theorem steady_execD3hotEntry (p : HostPort) (s : State) (h : Steady i q (spine s)) : SteadyRes i q (execD3hotEntry p s) := by
  simp [execD3hotEntry, h]

@[simp] theorem steady_execD3hotExit (p : HostPort) (s : State) (h : Steady i q (spine s)) : SteadyRes i q (execD3hotExit p s) := by
  simp [execD3hotExit, h]

@[simp] theorem steady_execPortLinkLoss (p : HostPort) (s : State) (h : Steady i q (spine s)) : SteadyRes i q (execPortLinkLoss p s) := by
  simp [execPortLinkLoss, h]

@[simp] theorem steady_execPortLinkUp (p : HostPort) (s : State) (h : Steady i q (spine s)) : SteadyRes i q (execPortLinkUp p s) := by
  simp [execPortLinkUp, h]

@[simp] theorem steady_execBusMasterEnableClear (p : HostPort) (s : State) (h : Steady i q (spine s)) :
    SteadyRes i q (execBusMasterEnableClear p s) := by simp [execBusMasterEnableClear, h]

@[simp] theorem steady_execBusMasterEnableSet (p : HostPort) (cfg : PortCfg) (s : State) (h : Steady i q (spine s)) :
    SteadyRes i q (execBusMasterEnableSet p cfg s) := by simp [execBusMasterEnableSet, h]

@[simp] theorem steady_execPcieCompletionTimeout (p : HostPort) (ctx cseq : Nat) (s : State) (h : Steady i q (spine s)) :
    SteadyRes i q (execPcieCompletionTimeout p ctx cseq s) :=
  (steadyRes_next _).mpr <| onCharge_spine h fun _ => by simp [h]

/-! ## Boot -/

@[simp] theorem steady_execPowerOnReset (mv : Nat) (s : State) (h : Steady i q (spine s)) : SteadyRes i q (execPowerOnReset mv s) := by
  unfold execPowerOnReset
  (repeat' split) <;> simp [h]

@[simp] theorem steady_execModEn (level : Bool) (s : State) (h : Steady i q (spine s)) : SteadyRes i q (execModEn level s) :=
  (steadyRes_next _).mpr <| ite_spine (ite_spine h (steady_goOff _ _ h)) <| ite_spine (steady_powerOn _ _ h) h

@[simp] theorem steady_moduleReset (s : State) (cause : Nat) (h : Steady i q (spine s)) : Steady i q (spine (moduleReset s cause)) := by
  simp [moduleReset, h]

@[simp] theorem steady_execModResetN (s : State) (h : Steady i q (spine s)) : SteadyRes i q (execModResetN s) :=
  (steadyRes_next _).mpr <| ite_spine h (steady_moduleReset _ _ h)

@[simp] theorem steady_execModResetNRelease (s : State) (h : Steady i q (spine s)) : SteadyRes i q (execModResetNRelease s) := by
  simp [execModResetNRelease, h]

@[simp] theorem steady_execSidebandResetRequest (s : State) (h : Steady i q (spine s)) : SteadyRes i q (execSidebandResetRequest s) := by
  unfold execSidebandResetRequest
  split <;> simp [h]

@[simp] theorem steady_stageAction (s : State) (n : Nat) (h : Steady i q (spine s)) : Steady i q (spine (stageAction s n)) := by
  have hf : Steady i q (spine (fallbackRecords s (stageSubs n))) := by simpa using h
  unfold stageAction
  split
  · simpa using h
  · split
    · dsimp only
      (repeat' split) <;> simp [h]
    · split
      · exact h
      · split
        · exact h.store (tabWf_filter 0 _ _ h.wf) rfl
        · split
          · exact h.store (tabWf_filter 0 _ _ h.wf) rfl
          · split <;> simp [h]

@[simp] theorem steady_execBootStageComplete (badActive badOther : Nat) (memOk : Bool) (s : State) (h : Steady i q (spine s)) :
    SteadyRes i q (execBootStageComplete badActive badOther memOk s) := by
  unfold execBootStageComplete
  dsimp only
  (repeat' split) <;> simp [h]

@[simp] theorem steady_execPerstDeassert (p : HostPort) (s : State) (h : Steady i q (spine s)) : SteadyRes i q (execPerstDeassert p s) := by
  simp [execPerstDeassert, h]

@[simp] theorem steady_execPcieDetectExit (p : HostPort) (s : State) (h : Steady i q (spine s)) : SteadyRes i q (execPcieDetectExit p s) := by
  simp [execPcieDetectExit, h]

@[simp] theorem steady_execBypass (s : State) (h : Steady i q (spine s)) : SteadyRes i q (execBypass s) := by simp [execBypass, h]

@[simp] theorem steady_execIdcode (s : State) (h : Steady i q (spine s)) : SteadyRes i q (execIdcode s) := by simp [execIdcode, h]

@[simp] theorem steady_execSamplePreload (s : State) (h : Steady i q (spine s)) : SteadyRes i q (execSamplePreload s) := by
  simp [execSamplePreload, h]

@[simp] theorem steady_execExtest (s : State) (h : Steady i q (spine s)) : SteadyRes i q (execExtest s) := by simp [execExtest, h]

@[simp] theorem steady_execClamp (s : State) (h : Steady i q (spine s)) : SteadyRes i q (execClamp s) := by simp [execClamp, h]

@[simp] theorem steady_execHighz (s : State) (h : Steady i q (spine s)) : SteadyRes i q (execHighz s) := by simp [execHighz, h]

@[simp] theorem steady_execTapPrivateInstruction (code : Nat) (s : State) (h : Steady i q (spine s)) :
    SteadyRes i q (execTapPrivateInstruction code s) := by simp [execTapPrivateInstruction, h]

@[simp] theorem steady_execEntdaa (addr : Nat) (s : State) (h : Steady i q (spine s)) : SteadyRes i q (execEntdaa addr s) := by
  simp [execEntdaa, h]

@[simp] theorem steady_execMctpMessage (request : Nat) (s : State) (h : Steady i q (spine s)) : SteadyRes i q (execMctpMessage request s) := by
  simp [execMctpMessage, h]

/-! ## Collectives -/

@[simp] theorem steady_execGroupDefine (ctx cseq : Nat) (s : State) (h : Steady i q (spine s)) : SteadyRes i q (execGroupDefine ctx cseq s) :=
  (steadyRes_next _).mpr <| itemCharge_spine h fun _ => by simp [h]

@[simp] theorem steady_shapeMismatch (s : State) (k : Coll) (h : Steady i q (spine s)) : Steady i q (spine (shapeMismatch s k)) := by
  simp [shapeMismatch, h]

@[simp] theorem steady_onReady (l box : Nat) (s : State) (k : Coll) (line : CollLine) (h : Steady i q (spine s)) :
    Steady i q (spine (onReady l box s k line)) := by
  unfold onReady
  (repeat' split) <;> simp [h]

@[simp] theorem steady_collTrap (s : State) (k : Coll) (l status a : Nat) (h : Steady i q (spine s)) :
    Steady i q (spine (collTrap s k l status a)) := by simp [collTrap, h]

theorem steady_collRead {f : Finds} {s : State} {k : Coll} {l a n : Nat} {go : State → State} (h : Steady i q (spine s))
    (hgo : ∀ t, Steady i q (spine t) → Steady i q (spine (go t))) : Steady i q (spine (collRead f s k l a n go)) := by
  have hr : Steady i q (spine (readAt f 0 (coreSubject s l 0) { s := s } [(a, n)]).s) := by simpa using h
  unfold collRead
  dsimp only
  split
  · exact steady_collTrap _ _ _ _ _ hr
  · exact hgo _ hr

theorem steady_collWrite {f : Finds} {s : State} {k : Coll} {a : Nat} {d : List Byte} {go : State → State} (h : Steady i q (spine s))
    (hgo : ∀ t, Steady i q (spine t) → Steady i q (spine (go t))) : Steady i q (spine (collWrite f s k a d go)) := by
  unfold collWrite
  dsimp only
  split
  · simp [h]
  · exact hgo _ (by simp [h])

theorem steady_takeLine {s : State} {l box : Nat} {f : Finds} {typ : Nat} {go : State → Coll → CollLine → State} (h : Steady i q (spine s))
    (hgo : ∀ t k x, Steady i q (spine t) → Steady i q (spine (go t k x))) : Steady i q (spine (takeLine s l box f typ go)) := by
  unfold takeLine
  dsimp only
  split
  · exact h
  · split
    · exact h
    · refine steady_collRead h fun t ht => ?_
      split
      · exact hgo _ _ _ (by simpa using ht)
      · simp [ht]

@[simp] theorem steady_execReady (core box : Nat) (f : Finds) (s : State) (h : Steady i q (spine s)) : SteadyRes i q (execReady core box f s) :=
  (steadyRes_next _).mpr <| steady_takeLine h fun t k x ht => steady_onReady _ _ t k x ht

@[simp] theorem steady_execGrant (core box : Nat) (f : Finds) (s : State) (h : Steady i q (spine s)) : SteadyRes i q (execGrant core box f s) :=
  (steadyRes_next _).mpr <| steady_takeLine h fun _ _ _ ht => by simpa using ht

@[simp] theorem steady_execCount (core box : Nat) (f : Finds) (s : State) (h : Steady i q (spine s)) : SteadyRes i q (execCount core box f s) :=
  (steadyRes_next _).mpr <| steady_takeLine h fun _ _ _ ht => by simpa using ht

@[simp] theorem steady_execDigest (core box : Nat) (f : Finds) (s : State) (h : Steady i q (spine s)) : SteadyRes i q (execDigest core box f s) :=
  (steadyRes_next _).mpr <| steady_takeLine h fun _ _ _ ht => by simpa using ht

@[simp] theorem steady_execFinish (core box : Nat) (f : Finds) (s : State) (h : Steady i q (spine s)) : SteadyRes i q (execFinish core box f s) :=
  (steadyRes_next _).mpr <| steady_takeLine h fun _ _ _ ht => by simpa using ht

@[simp] theorem steady_drainMail (s : State) (l : Nat) (k : Coll) (h : Steady i q (spine s)) : Steady i q (spine (drainMail s l k)) := by
  refine steady_foldl (fun t m ht => ?_) _ (by simpa [↓spine_frame] using h)
  dsimp only
  (repeat' split) <;> simp [ht]

@[simp] theorem steady_runCollItem (s : State) (l : Nat) (j : Item) (h : Steady i q (spine s)) : Steady i q (spine (runCollItem s l j)) := by
  unfold runCollItem
  dsimp only
  (repeat' split) <;> simp [h]

@[simp] theorem steady_logRecord (s : State) (l : Nat) (b : List Byte) (h : Steady i q (spine s)) : Steady i q (spine (logRecord s l b)) := by
  unfold logRecord
  dsimp only
  (repeat' split) <;> simp [h]

@[simp] theorem steady_writeRecs (s : State) (k : Coll) (rs : List DigestRec) (h : Steady i q (spine s)) :
    Steady i q (spine (writeRecs s k rs)) := by
  unfold writeRecs
  split
  · exact h
  · exact steady_foldl (fun t r ht => steady_logRecord t _ _ ht) _ h

@[simp] theorem steady_endColl (s : State) (k : Coll) (rs : List DigestRec) (h : Steady i q (spine s)) : Steady i q (spine (endColl s k rs)) := by
  unfold endColl
  split <;> simp [h]

theorem steady_collTurn {f : Finds} {s : State} {k : Coll} {w : List Nat} {e : Entry} {go : State → Coll → State} (h : Steady i q (spine s))
    (hgo : ∀ t k, Steady i q (spine t) → Steady i q (spine (go t k))) : Steady i q (spine (collTurn f s k w e go)) := by
  unfold collTurn
  dsimp only
  generalize hr : List.foldl _ ((({ s := s, k := k } : Turn), 0) : Turn × Nat) _ = r
  have hs : Steady i q (spine r.1.s) := by
    rw [← hr]
    refine foldl_keeps (P := fun t : Turn × Nat => Steady i q (spine t.1.s)) (fun t p ht => ?_) _ h
    split <;> simp [ht]
  split
  · simp [hs]
  · split
    · exact hgo _ _ (by simpa using hs)
    · simpa using hs

theorem steady_collRow {s : State} {c n op : Nat} {f : Finds} {go : State → Coll → List Nat → Entry → State} (h : Steady i q (spine s))
    (hgo : ∀ t k w e, Steady i q (spine t) → Steady i q (spine (go t k w e))) : Steady i q (spine (collRow s c n op f go)) := by
  refine fabricCharge_spine h fun e => ite_spine ?_ ?_
  · exact ite_spine h <| ite_spine (steady_report _ _ _ _ h) <| ite_spine (steady_report _ _ _ _ h) (by simpa using h)
  · split
    · exact h
    · refine ite_spine h <| ite_spine ?_ <| ite_spine (ite_spine (hgo _ _ _ _ h) ?_) <| ite_spine (hgo _ _ _ _ h) h
      · split
        · exact ite_spine (steady_endColl _ _ _ h) (steady_collTurn h fun _ _ ht => ht)
        · exact steady_endColl _ _ _ h
      · split
        · exact hgo _ _ _ _ (by simpa using h)
        · exact h

@[simp] theorem steady_sendDigests (s : State) (k : Coll) (rs : List DigestRec) (h : Steady i q (spine s)) :
    Steady i q (spine (sendDigests s k rs)) := by simpa using h

@[simp] theorem steady_execAllReduce (ctx cseq : Nat) (f : Finds) (s : State) (h : Steady i q (spine s)) : SteadyRes i q (execAllReduce ctx cseq f s) :=
  (steadyRes_next _).mpr <| steady_collRow h fun _ _ _ _ ht => steady_collTurn ht fun _ _ hu => steady_collRead hu fun _ hv =>
    steady_collWrite hv fun _ hx => steady_endColl _ _ _ hx

@[simp] theorem steady_execReduceScatter (ctx cseq : Nat) (f : Finds) (s : State) (h : Steady i q (spine s)) :
    SteadyRes i q (execReduceScatter ctx cseq f s) := by
  refine (steadyRes_next _).mpr <| steady_collRow h fun t k w e ht => ite_spine ?_ ?_
  · refine steady_collTurn ht fun _ _ hu => steady_collRead hu fun _ hv => steady_collWrite hv fun x hx => ?_
    rw [spine_modRunning, spine_modColl, spine_sendDigests]
    exact hx
  · split
    · exact steady_endColl _ _ _ ht
    · exact ht

@[simp] theorem steady_execAllGather (ctx cseq : Nat) (f : Finds) (s : State) (h : Steady i q (spine s)) : SteadyRes i q (execAllGather ctx cseq f s) :=
  (steadyRes_next _).mpr <| steady_collRow h fun _ _ _ _ ht => steady_collTurn ht fun _ _ hu => steady_collRead hu fun _ hv =>
    steady_collWrite hv fun _ hx => steady_endColl _ _ _ hx

@[simp] theorem steady_execBroadcast (ctx cseq : Nat) (f : Finds) (s : State) (h : Steady i q (spine s)) : SteadyRes i q (execBroadcast ctx cseq f s) :=
  (steadyRes_next _).mpr <| steady_collRow h fun _ _ _ _ ht => steady_collTurn ht fun _ _ hu => steady_collRead hu fun _ hv =>
    steady_collWrite hv fun _ hx => steady_endColl _ _ _ hx

@[simp] theorem steady_execBarrier (ctx cseq : Nat) (s : State) (h : Steady i q (spine s)) : SteadyRes i q (execBarrier ctx cseq s) :=
  (steadyRes_next _).mpr <| steady_collRow h fun _ _ _ _ ht => steady_collTurn ht fun _ _ hu => steady_endColl _ _ _ hu

@[simp] theorem steady_sendCounts (f : Finds) (s : State) (k : Coll) (w : List Nat) (e : Entry) (h : Steady i q (spine s)) :
    Steady i q (spine (sendCounts f s k w e)) := by
  refine steady_collRead h fun t ht => ?_
  dsimp only
  split
  · simp [ht]
  · rw [spine_modRunning, spine_modColl, spine_foldl fun u l => spine_foldl (fun v d => spine_sendLine ..) _ _]
    exact ht

@[simp] theorem steady_endCounts (f : Finds) (s : State) (k : Coll) (w : List Nat) (e : Entry) (h : Steady i q (spine s)) :
    Steady i q (spine (endCounts f s k w e)) :=
  steady_collWrite h fun t ht => by split <;> simp [ht]

@[simp] theorem steady_endTokens (f : Finds) (s : State) (k : Coll) (w : List Nat) (e : Entry) (h : Steady i q (spine s)) :
    Steady i q (spine (endTokens f s k w e)) :=
  steady_collRead h fun _ ht => steady_collWrite ht fun u hu => steady_endColl u _ _ hu

@[simp] theorem steady_execAllToAllV (ctx cseq : Nat) (f : Finds) (s : State) (h : Steady i q (spine s)) : SteadyRes i q (execAllToAllV ctx cseq f s) :=
  (steadyRes_next _).mpr <| steady_collRow h fun _ _ _ _ ht => ite_spine (steady_sendCounts _ _ _ _ _ ht) <|
    ite_spine (ite_spine (steady_endCounts _ _ _ _ _ ht) ht) <| steady_collTurn ht fun _ _ hu => steady_endTokens _ _ _ _ _ hu

@[simp] theorem steady_execCollEndMessage (payload : List Byte) (s : State) (h : Steady i q (spine s)) :
    SteadyRes i q (execCollEndMessage payload s) := by
  refine (steadyRes_next _).mpr <| ite_spine h ?_
  dsimp only
  split
  · apply steady_stopColl
    apply ite_spine
    · rw [spine_sendAfiup, spine_frame]; exact h
    · rw [spine_frame]; exact h
  · apply ite_spine
    · rw [spine_sendAfiup, spine_frame]; exact h
    · rw [spine_frame]; exact h

@[simp] theorem steady_execCollStalled (ctx cseq : Nat) (s : State) (h : Steady i q (spine s)) : SteadyRes i q (execCollStalled ctx cseq s) := by
  unfold execCollStalled
  (repeat' split) <;> simp [h]

@[simp] theorem steady_execNack (core : Nat) (shot : Shot) (s : State) (h : Steady i q (spine s)) : SteadyRes i q (execNack core shot s) := by
  unfold execNack
  dsimp only
  (repeat' split) <;> simp [h]

/-! ## Vector -/

@[simp] theorem steady_vecRow (core func : Nat) (f : Finds) (fn : State → Job → Nat → RowOut) (s : State) (h : Steady i q (spine s)) :
    SteadyRes i q (vecRow core func f fn s) := by unfold vecRow; split <;> simp [h]

@[simp] theorem steady_vec1 (core func : Nat) (f : Finds) (g : State → Num → Num) (s : State) (h : Steady i q (spine s)) :
    SteadyRes i q (vec1 core func f g s) := by simp [vec1, h]

@[simp] theorem steady_vec2 (core func : Nat) (f : Finds) (g : State → Job → Num → Num → Num) (s : State) (h : Steady i q (spine s)) :
    SteadyRes i q (vec2 core func f g s) := by simp [vec2, h]

@[simp] theorem steady_execConvert (core : Nat) (f : Finds) (s : State) (h : Steady i q (spine s)) : SteadyRes i q (execConvert core f s) := by
  simp [execConvert, h]

@[simp] theorem steady_execVecAdd (core : Nat) (f : Finds) (s : State) (h : Steady i q (spine s)) : SteadyRes i q (execVecAdd core f s) := by
  simp [execVecAdd, h]

@[simp] theorem steady_execVecMul (core : Nat) (f : Finds) (s : State) (h : Steady i q (spine s)) : SteadyRes i q (execVecMul core f s) := by
  simp [execVecMul, h]

@[simp] theorem steady_execFma (core : Nat) (f : Finds) (s : State) (h : Steady i q (spine s)) : SteadyRes i q (execFma core f s) := by
  simp [execFma, h]

@[simp] theorem steady_execAxpby (core : Nat) (f : Finds) (s : State) (h : Steady i q (spine s)) : SteadyRes i q (execAxpby core f s) := by
  simp [execAxpby, h]

@[simp] theorem steady_execResidAdd (core : Nat) (f : Finds) (s : State) (h : Steady i q (spine s)) : SteadyRes i q (execResidAdd core f s) := by
  simp [execResidAdd, h]

@[simp] theorem steady_execRelu (core : Nat) (f : Finds) (s : State) (h : Steady i q (spine s)) : SteadyRes i q (execRelu core f s) := by
  simp [execRelu, h]

@[simp] theorem steady_execSigmoid (core : Nat) (f : Finds) (s : State) (h : Steady i q (spine s)) : SteadyRes i q (execSigmoid core f s) := by
  simp [execSigmoid, h]

@[simp] theorem steady_execTanh (core : Nat) (f : Finds) (s : State) (h : Steady i q (spine s)) : SteadyRes i q (execTanh core f s) := by
  simp [execTanh, h]

@[simp] theorem steady_execExp (core : Nat) (f : Finds) (s : State) (h : Steady i q (spine s)) : SteadyRes i q (execExp core f s) := by
  simp [execExp, h]

@[simp] theorem steady_execGelu (core : Nat) (f : Finds) (s : State) (h : Steady i q (spine s)) : SteadyRes i q (execGelu core f s) := by
  simp [execGelu, h]

@[simp] theorem steady_execSilu (core : Nat) (f : Finds) (s : State) (h : Steady i q (spine s)) : SteadyRes i q (execSilu core f s) := by
  simp [execSilu, h]

@[simp] theorem steady_execSwiglu (core : Nat) (f : Finds) (s : State) (h : Steady i q (spine s)) : SteadyRes i q (execSwiglu core f s) := by
  simp [execSwiglu, h]

@[simp] theorem steady_execSoftmaxRow (core : Nat) (f : Finds) (s : State) (h : Steady i q (spine s)) : SteadyRes i q (execSoftmaxRow core f s) := by
  simp [execSoftmaxRow, h]

@[simp] theorem steady_execSoftmaxParts (core : Nat) (f : Finds) (s : State) (h : Steady i q (spine s)) :
    SteadyRes i q (execSoftmaxParts core f s) := by simp [execSoftmaxParts, h]

@[simp] theorem steady_execRmsnorm (core : Nat) (f : Finds) (s : State) (h : Steady i q (spine s)) : SteadyRes i q (execRmsnorm core f s) := by
  simp [execRmsnorm, h]

@[simp] theorem steady_execLayernorm (core : Nat) (f : Finds) (s : State) (h : Steady i q (spine s)) : SteadyRes i q (execLayernorm core f s) := by
  simp [execLayernorm, h]

@[simp] theorem steady_execRowSumsq (core : Nat) (f : Finds) (s : State) (h : Steady i q (spine s)) : SteadyRes i q (execRowSumsq core f s) := by
  simp [execRowSumsq, h]

@[simp] theorem steady_execScaleRows (core : Nat) (f : Finds) (s : State) (h : Steady i q (spine s)) : SteadyRes i q (execScaleRows core f s) := by
  simp [execScaleRows, h]

@[simp] theorem steady_execDropout (core : Nat) (f : Finds) (s : State) (h : Steady i q (spine s)) : SteadyRes i q (execDropout core f s) := by
  simp [execDropout, h]

@[simp] theorem steady_execRowStats (core : Nat) (f : Finds) (s : State) (h : Steady i q (spine s)) : SteadyRes i q (execRowStats core f s) := by
  simp [execRowStats, h]

@[simp] theorem steady_execUpdate (core : Nat) (f : Finds) (s : State) (h : Steady i q (spine s)) : SteadyRes i q (execUpdate core f s) := by
  unfold execUpdate
  split <;> simp [h]

@[simp] theorem steady_execPwpoly (core : Nat) (f : Finds) (s : State) (h : Steady i q (spine s)) : SteadyRes i q (execPwpoly core f s) := by
  simp [execPwpoly, h]

/-! ## Steps -/

@[simp] theorem steady_zeroMem (s : State) (a n : Nat) (h : Steady i q (spine s)) : Steady i q (spine (zeroMem s a n)) :=
  h.store (zeroMem_wf s a n h.wf) rfl

@[simp] theorem steady_beginStep (s : State) (c : Nat) (e : Entry) (h : Steady i q (spine s)) : Steady i q (spine (beginStep s c e)) := by
  simp [beginStep, h]

@[simp] theorem steady_execPhaseMarkForward (ctx cseq : Nat) (s : State) (h : Steady i q (spine s)) :
    SteadyRes i q (execPhaseMarkForward ctx cseq s) :=
  (steadyRes_next _).mpr <| markRow_spine h fun _ => ite_spine h <| ite_spine (steady_report _ _ _ _ h) <|
    steady_report _ _ _ _ (steady_beginStep _ _ _ h)

@[simp] theorem steady_execPhaseMarkBackward (ctx cseq : Nat) (s : State) (h : Steady i q (spine s)) :
    SteadyRes i q (execPhaseMarkBackward ctx cseq s) :=
  (steadyRes_next _).mpr <| markRow_spine h fun _ => by simp [h]

@[simp] theorem steady_execPhaseMarkExchange (ctx cseq : Nat) (s : State) (h : Steady i q (spine s)) :
    SteadyRes i q (execPhaseMarkExchange ctx cseq s) :=
  (steadyRes_next _).mpr <| markRow_spine h fun _ => by simp [h]

@[simp] theorem steady_setLedger (s : State) (j st slot : Nat) (h : Steady i q (spine s)) : Steady i q (spine (setLedger s j st slot)) := by
  simp [setLedger, h]

@[simp] theorem steady_readChunk (s : State) (l n : Nat) (c : Region × Nat) (h : Steady i q (spine s)) :
    Steady i q (spine (readChunk s l n c)) := by
  refine updRead_spine h ?_
  dsimp only
  split <;> simp [↓spine_frame, h]

@[simp] theorem steady_advanceChunk (s : State) (l : Nat) (p : Region × Nat) (x : ChunkWork) (h : Steady i q (spine s)) :
    Steady i q (spine (advanceChunk s l p x)) := by unfold advanceChunk; split <;> simp [h]

@[simp] theorem steady_takeChunk (s : State) (l j : Nat) (p : Region × Nat) (h : Steady i q (spine s)) : Steady i q (spine (takeChunk s l j p)) := by
  unfold takeChunk
  split <;> simp [h]

@[simp] theorem steady_advanceItem (s : State) (l j k : Nat) (h : Steady i q (spine s)) : Steady i q (spine (advanceItem s l j k)) := by
  have hopt : ∀ (o : Option (Region × Nat)) (x : ChunkWork), Steady i q (spine (o.elim s fun c => advanceChunk (bumpFree s) l c x)) :=
    fun o x => by cases o <;> simp [h]
  unfold advanceItem
  dsimp only
  (repeat' split) <;> simp [h, hopt]

@[simp] theorem steady_advanceUpdate (s : State) (c n : Nat) (h : Steady i q (spine s)) : Steady i q (spine (advanceUpdate s c n)) :=
  steady_foldl (fun t e ht => by split <;> simp [ht]) _ h

@[simp] theorem steady_execPhaseMarkUpdate (ctx cseq : Nat) (s : State) (h : Steady i q (spine s)) :
    SteadyRes i q (execPhaseMarkUpdate ctx cseq s) := by
  refine (steadyRes_next _).mpr <| markRow_spine h fun _ => ?_
  (repeat' split) <;> simp [h]

@[simp] theorem steady_execTwinMirrorLagging (s : State) (h : Steady i q (spine s)) : SteadyRes i q (execTwinMirrorLagging s) := by
  unfold execTwinMirrorLagging
  dsimp only
  (repeat' split) <;> simp [h]

/-! ## Seal -/

@[simp] theorem steady_sealLayer (s : State) (j : Nat) (p : Nat × Nat × Nat) (h : Steady i q (spine s)) : Steady i q (spine (sealLayer s j p)) := by
  simp [sealLayer, h]

@[simp] theorem steady_advanceGroup (s : State) (g : Nat) (h : Steady i q (spine s)) : Steady i q (spine (advanceGroup s g)) := by
  simp [advanceGroup, h]

@[simp] theorem steady_sealStep (s : State) (r : SealRec) (h : Steady i q (spine s)) : Steady i q (spine (sealStep s r)) := by
  unfold sealStep
  dsimp only
  rw [spine_startDelta, spine_frame]
  exact steady_foldl (fun t g ht => steady_advanceGroup t g ht) _ (steady_foldl (fun t c ht => steady_sealLayer t _ _ ht) _ h)

@[simp] theorem steady_decideSeal (s : State) (x : SealRun) (r : SealRec) (h : Steady i q (spine s)) : Steady i q (spine (decideSeal s x r)) := by
  unfold decideSeal
  (repeat' split) <;> simp [h]

@[simp] theorem steady_advanceSeal (s : State) (n : Nat) (h : Steady i q (spine s)) : Steady i q (spine (advanceSeal s n)) := by
  induction n generalizing s with
  | zero => exact h
  | succ n ih => unfold advanceSeal; dsimp only; (repeat' split) <;> simp [h, ih]

@[simp] theorem steady_execSeal (ctx cseq : Nat) (s : State) (h : Steady i q (spine s)) : SteadyRes i q (execSeal ctx cseq s) := by
  refine (steadyRes_next _).mpr <| onCharge_spine h fun _ => ?_
  (repeat' split) <;> simp [h]

@[simp] theorem steady_takeStage (s : State) (m : SealMsg) (d : List Byte) (h : Steady i q (spine s)) : Steady i q (spine (takeStage s m d)) := by
  unfold takeStage
  dsimp only
  (repeat' split) <;> simp [h]

@[simp] theorem steady_execSealStalled (s : State) (h : Steady i q (spine s)) : SteadyRes i q (execSealStalled s) := by
  unfold execSealStalled
  split <;> simp [h]

@[simp] theorem steady_restoreChunk (s : State) (c : Nat × Region × Nat) (d : List Byte) (h : Steady i q (spine s)) :
    Steady i q (spine (restoreChunk s c d)) := by simp [restoreChunk, h]

@[simp] theorem steady_execRollbackRedo (ctx cseq : Nat) (mirror : List Piece) (s : State) (h : Steady i q (spine s)) :
    SteadyRes i q (execRollbackRedo ctx cseq mirror s) := by
  refine (steadyRes_next _).mpr <| onCharge_spine h fun e => ite_spine h <| ite_spine (steady_report _ _ _ _ h) <|
    ite_spine (steady_report _ _ _ _ h) <| ite_spine (steady_report _ _ _ _ h) ?_
  rw [spine_report, spine_frame]
  exact steady_foldl (fun t c ht => steady_restoreChunk t c _ ht) _ h

@[simp] theorem steady_restoreDone (mirror : List Piece) (cs : List (Nat × Region × Nat)) (p : State × Nat) (h : Steady i q (spine p.1)) :
    Steady i q (spine (restoreDone mirror cs p).1) := by
  induction cs generalizing p with
  | nil => exact h
  | cons c r ih => unfold restoreDone; split <;> simp [h, ih]

@[simp] theorem steady_execRollbackAbandon (ctx cseq : Nat) (mirror : List Piece) (s : State) (h : Steady i q (spine s)) :
    SteadyRes i q (execRollbackAbandon ctx cseq mirror s) := by
  refine (steadyRes_next _).mpr <| onCharge_spine h fun e => ite_spine h <| ite_spine (steady_report _ _ _ _ h) <| ite_spine ?_ ?_
  · split
    · exact ite_spine (steady_report _ _ _ _ h) (by simpa using h)
    · exact h
  · have hs : Steady i q (spine (stopSeal s)) := by simpa using h
    dsimp only
    generalize hp : (if (twinOf (stopSeal s)).isNone = true then _ else _ : State × Option Nat) = p
    have ht : Steady i q (spine p.1) := by
      rw [← hp]
      split
      · exact steady_foldl (fun t c ht => steady_restoreChunk t c _ ht) _ hs
      · exact steady_restoreDone _ _ _ (steady_foldl (fun t c ht => steady_restoreChunk t c _ ht) _ hs)
    split
    · exact steady_report _ _ _ _ ht
    · rw [spine_report, spine_frame, spine_closeStep, spine_frame]
      exact steady_foldl (fun t c ht => steady_setLedger t _ _ _ ht) _ ht

/-! ## Twins -/

@[simp] theorem steady_holdPiece (s : State) (coord : Nat) (m : MirrorMsg) (d : List Byte) (h : Steady i q (spine s)) :
    Steady i q (spine (holdPiece s coord m d)) := by unfold holdPiece; split <;> simp [h]

@[simp] theorem steady_restorePiece (s : State) (m : MirrorMsg) (d : List Byte) (h : Steady i q (spine s)) :
    Steady i q (spine (restorePiece s m d)) := by unfold restorePiece; split <;> simp [h]

@[simp] theorem steady_takeMirrorPiece (s : State) (coord : Nat) (m : MirrorMsg) (d : List Byte) (h : Steady i q (spine s)) :
    Steady i q (spine (takeMirrorPiece s coord m d)) := by
  unfold takeMirrorPiece
  split
  · simp [h]
  · exact fromPartner_spine h fun t ht => steady_holdPiece t coord m d (ht ▸ h)

@[simp] theorem steady_takeMessage (s : State) (coord : Nat) (head data : List Byte) (h : Steady i q (spine s)) :
    Steady i q (spine (takeMessage s coord head data)) := by unfold takeMessage; split <;> simp [h]

@[simp] theorem steady_afiupMessage (s : State) (kind coord : Nat) (head data : List Byte) (h : Steady i q (spine s)) :
    Steady i q (spine (afiupMessage s kind coord head data)) := by
  unfold afiupMessage
  (repeat' split) <;> simp [h]

@[simp] theorem steady_execPiece (coord : Nat) (head data : List Byte) (s : State) (h : Steady i q (spine s)) :
    SteadyRes i q (execPiece coord head data s) := by simp [execPiece, h]

@[simp] theorem steady_execCommit (coord : Nat) (head : List Byte) (s : State) (h : Steady i q (spine s)) :
    SteadyRes i q (execCommit coord head s) := by simp [execCommit, h]

@[simp] theorem steady_execAck (coord : Nat) (head : List Byte) (s : State) (h : Steady i q (spine s)) : SteadyRes i q (execAck coord head s) := by
  simp [execAck, h]

@[simp] theorem steady_execRestoreReq (coord : Nat) (head : List Byte) (s : State) (h : Steady i q (spine s)) :
    SteadyRes i q (execRestoreReq coord head s) := by simp [execRestoreReq, h]

@[simp] theorem steady_execRestoreEnd (coord : Nat) (head : List Byte) (s : State) (h : Steady i q (spine s)) :
    SteadyRes i q (execRestoreEnd coord head s) := by simp [execRestoreEnd, h]

@[simp] theorem steady_execFold (head : List Byte) (s : State) (h : Steady i q (spine s)) : SteadyRes i q (execFold head s) := by
  simp [execFold, h]

@[simp] theorem steady_execSealStage (head data : List Byte) (s : State) (h : Steady i q (spine s)) : SteadyRes i q (execSealStage head data s) := by
  simp [execSealStage, h]

@[simp] theorem steady_execTwinUnreachable (s : State) (h : Steady i q (spine s)) : SteadyRes i q (execTwinUnreachable s) := by
  simp [execTwinUnreachable, h]

/-! ## SelfTest -/

@[simp] theorem steady_zeroTested (s : State) (p : Nat → Bool) (bad : List Nat) (h : Steady i q (spine s)) :
    Steady i q (spine (zeroTested s p bad)) :=
  h.store (zeroTested_wf s p bad h.wf) rfl

@[simp] theorem steady_testFast (s : State) (e : Entry) (rows : List Nat) (h : Steady i q (spine s)) : Steady i q (spine (testFast s e rows)) := by
  simp [testFast, h]

@[simp] theorem steady_testDeep (s : State) (c cseq : Nat) (e : Entry) (units : List Nat) (h : Steady i q (spine s)) :
    Steady i q (spine (testDeep s c cseq e units)) := by simp [testDeep, h]

@[simp] theorem steady_testMargin (s : State) (c n : Nat) (e : Entry) (links : List (Nat × Nat × Nat × Nat)) (h : Steady i q (spine s)) :
    Steady i q (spine (testMargin s c n e links)) := by
  unfold testMargin
  exact steady_putReport _ _ _ _ _ _ _ (by simpa [↓spine_frame] using h)

@[simp] theorem steady_execBistRun (ctx cseq : Nat) (found : BistFound) (s : State) (h : Steady i q (spine s)) :
    SteadyRes i q (execBistRun ctx cseq found s) :=
  (steadyRes_next _).mpr <| onCharge_spine h fun _ => ite_spine h <| ite_spine (steady_report _ _ _ _ h) <|
    ite_spine (steady_report _ _ _ _ (steady_testFast _ _ _ h)) <| ite_spine (steady_testDeep _ _ _ _ _ h) <|
    ite_spine (steady_testMargin _ _ _ _ _ h) <| by simpa using h

@[simp] theorem steady_execLoopbackTestEnd (link errors : Nat) (s : State) (h : Steady i q (spine s)) :
    SteadyRes i q (execLoopbackTestEnd link errors s) := by unfold execLoopbackTestEnd; split <;> simp [h]

@[simp] theorem steady_execHbmRepair (ctx cseq : Nat) (f : Finds) (s : State) (h : Steady i q (spine s)) :
    SteadyRes i q (execHbmRepair ctx cseq f s) :=
  (steadyRes_next _).mpr <| onCharge_spine h fun _ => by simp [h]

@[simp] theorem steady_execMbistRead (ctx cseq : Nat) (s : State) (h : Steady i q (spine s)) : SteadyRes i q (execMbistRead ctx cseq s) :=
  (steadyRes_next _).mpr <| onCharge_spine h fun _ => ite_spine (steady_report _ _ _ _ h) (steady_putReport _ _ _ _ _ _ _ h)

@[simp] theorem steady_execSiteTest (ctx cseq failingUnit : Nat) (s : State) (h : Steady i q (spine s)) :
    SteadyRes i q (execSiteTest ctx cseq failingUnit s) :=
  (steadyRes_next _).mpr <| onCharge_spine h fun _ => by simp [h]

/-! ## Fences -/

@[simp] theorem steady_execFenceStart (die : Nat) (s : State) (h : Steady i q (spine s)) : SteadyRes i q (execFenceStart die s) := by
  unfold execFenceStart
  split <;> simp [h]

@[simp] theorem steady_endCharge (s : State) (j : Item) (status : Nat) (h : Steady i q (spine s)) : Steady i q (spine (endCharge s j status)) := by
  unfold endCharge
  (repeat' split) <;> simp [h]

@[simp] theorem steady_withdrawItems (s : State) (l : Nat) (h : Steady i q (spine s)) : Steady i q (spine (withdrawItems s l)) := by
  unfold withdrawItems
  dsimp only
  rw [spine_settleRail, spine_foldl fun t a => spine_removeItems .., spine_frame, spine_setCore]
  exact steady_foldl (fun t a ht => steady_endCharge t _ _ ht) _ (by simpa using h)

@[simp] theorem steady_withdraw (s : State) (die : Nat) (x : Fence) (h : Steady i q (spine s)) : Steady i q (spine (withdraw s die x)) := by
  unfold withdraw
  dsimp only
  rw [spine_endFenceCharges, spine_raiseEv, spine_foldl fun t g => spine_withdrawGroup .., spine_dropHeld]
  exact steady_withdrawItems _ _ (by simpa [↓spine_frame] using h)

@[simp] theorem steady_execFenceStopComplete (die ns : Nat) (s : State) (h : Steady i q (spine s)) :
    SteadyRes i q (execFenceStopComplete die ns s) := by
  refine (steadyRes_next _).mpr ?_
  split
  next x _ =>
    refine ite_spine h ?_
    have ht : Steady i q (spine (dropUpdate (stopSequencer s x.core) x.core)) := by simpa using h
    dsimp only
    split
    next site u hu => rw [spine_modFence, spine_takeSpare hu]; exact ht
    · exact steady_withdraw _ _ _ ht
  · exact h

@[simp] theorem steady_execTransplantComplete (die transplantNs : Nat) (f : Finds) (s : State) (h : Steady i q (spine s)) :
    SteadyRes i q (execTransplantComplete die transplantNs f s) := by unfold execTransplantComplete; split <;> simp [h]

@[simp] theorem steady_execTransplantFailed (die transplantNs : Nat) (s : State) (h : Steady i q (spine s)) :
    SteadyRes i q (execTransplantFailed die transplantNs s) := by
  unfold execTransplantFailed
  dsimp only
  (repeat' split) <;> simp [h]

@[simp] theorem steady_execFenceBindComplete (die : Nat) (s : State) (h : Steady i q (spine s)) : SteadyRes i q (execFenceBindComplete die s) := by
  unfold execFenceBindComplete
  (repeat' split) <;> simp [h]

@[simp] theorem steady_execCoreFence (ctx cseq : Nat) (s : State) (h : Steady i q (spine s)) : SteadyRes i q (execCoreFence ctx cseq s) :=
  (steadyRes_next _).mpr <| onCharge_spine h fun _ => by simp [h]

@[simp] theorem steady_execStoreReloaded (core store index : Nat) (corrected : Bool) (s : State) (h : Steady i q (spine s)) :
    SteadyRes i q (execStoreReloaded core store index corrected s) := by simp [execStoreReloaded, h]

@[simp] theorem steady_execFaultWindowExpiry (site cls : Nat) (s : State) (h : Steady i q (spine s)) :
    SteadyRes i q (execFaultWindowExpiry site cls s) := by simp [execFaultWindowExpiry, h]

/-! ## Firmware -/

@[simp] theorem steady_retrainPort (s : State) (c n p : Nat) (h : Steady i q (spine s)) : Steady i q (spine (retrainPort s c n p)) := by
  unfold retrainPort
  split
  · rw [spine_modRunning]
    exact steady_foldl (fun t k ht => steady_retrainLink t k ht) _ (by simpa using h)
  · simpa using h

@[simp] theorem steady_releasePort (s : State) (p : Nat) (h : Steady i q (spine s)) : Steady i q (spine (releasePort s p)) := by
  unfold releasePort
  dsimp only
  (repeat' split) <;> simp [h]

@[simp] theorem steady_portStep (s : State) (c cseq p : Nat) (h : Steady i q (spine s)) : Steady i q (spine (portStep s c cseq p)) := by
  unfold portStep
  split <;> simp [h]

@[simp] theorem steady_startUpdate (s : State) (c cseq k : Nat) (j : Image) (h : Steady i q (spine s)) :
    Steady i q (spine (startUpdate s c cseq k j)) := by
  unfold startUpdate
  (repeat' split) <;> simp [h]

@[simp] theorem steady_execFwUpdate (ctx cseq : Nat) (f : Finds) (s : State) (h : Steady i q (spine s)) : SteadyRes i q (execFwUpdate ctx cseq f s) := by
  refine (steadyRes_next _).mpr <| onSecure_spine h fun e => ite_spine (ite_spine h <| ite_spine (steady_report _ _ _ _ h) ?_) <|
    ite_spine (steady_portStep _ _ _ _ h) <| ite_spine (by simpa using h) <| ite_spine (by simpa using h) h
  have hr : Steady i q (spine (readUnits f noSubject { s := s } (unitsOf (pw e 0) (fld (pw e 8) 31 0))).s) := by simpa using h
  exact ite_spine (steady_report _ _ _ _ hr) <| ite_spine (steady_report _ _ _ _ hr) <| steady_startUpdate _ _ _ _ _ hr

@[simp] theorem steady_execAfiupRestartComplete (s : State) (h : Steady i q (spine s)) : SteadyRes i q (execAfiupRestartComplete s) := by
  refine (steadyRes_next _).mpr <| ite_spine h <| steady_foldl (fun t m ht => steady_takeMessage t _ _ _ ht) _ ?_
  split <;> simpa using h

/-! ## Patrol -/

@[simp] theorem steady_execPatrolScrubRow (core bank row : Nat) (f : Finds) (s : State) (h : Steady i q (spine s)) :
    SteadyRes i q (execPatrolScrubRow core bank row f s) := by simp [execPatrolScrubRow, h]

@[simp] theorem steady_execMemoryPatrol (addr : Nat) (corrected : Bool) (f : Finds) (s : State) (h : Steady i q (spine s)) :
    SteadyRes i q (execMemoryPatrol addr corrected f s) := by simp [execMemoryPatrol, h]

@[simp] theorem steady_execBridgeUnit (die : Nat) (good : Bool) (s : State) (h : Steady i q (spine s)) :
    SteadyRes i q (execBridgeUnit die good s) := by simp [execBridgeUnit, h]

@[simp] theorem steady_execBridgeLost (die : Nat) (s : State) (h : Steady i q (spine s)) : SteadyRes i q (execBridgeLost die s) := by
  simp [execBridgeLost, h]

/-! ## PowerStates -/

@[simp] theorem steady_execPowerStateSet (ctx cseq : Nat) (s : State) (h : Steady i q (spine s)) : SteadyRes i q (execPowerStateSet ctx cseq s) :=
  (steadyRes_next _).mpr <| onCharge_spine h fun _ => by simp [h]

@[simp] theorem steady_execAutoIdle (s : State) (h : Steady i q (spine s)) : SteadyRes i q (execAutoIdle s) := by simp [execAutoIdle, h]

@[simp] theorem steady_execPowerTransitionComplete (s : State) (h : Steady i q (spine s)) : SteadyRes i q (execPowerTransitionComplete s) := by
  unfold execPowerTransitionComplete
  dsimp only
  (repeat' split) <;> simp [h]

@[simp] theorem steady_execPowerDrawTimeout (s : State) (h : Steady i q (spine s)) : SteadyRes i q (execPowerDrawTimeout s) := by
  simp [execPowerDrawTimeout, h]

@[simp] theorem steady_execCoreRailLow (mv : Nat) (s : State) (h : Steady i q (spine s)) : SteadyRes i q (execCoreRailLow mv s) := by
  simp [execCoreRailLow, h]

@[simp] theorem steady_execInputLost (mv : Nat) (s : State) (h : Steady i q (spine s)) : SteadyRes i q (execInputLost mv s) := by
  unfold execInputLost
  (repeat' split) <;> simp [h]

/-! ## Replay -/

@[simp] theorem steady_endRun (s : State) (c cseq dst : Nat) (b : List Byte) (h : Steady i q (spine s)) :
    Steady i q (spine (endRun s c cseq dst b)) := by simp [endRun, h]

@[simp] theorem steady_execReplayRun (ctx cseq : Nat) (needs : Option (Nat × Nat)) (s : State) (h : Steady i q (spine s)) :
    SteadyRes i q (execReplayRun ctx cseq needs s) := by
  refine (steadyRes_next _).mpr <| replayRow_spine h fun _ => ?_
  (repeat' split) <;> simp [h]

@[simp] theorem steady_execReplayCapture (ctx cseq : Nat) (s : State) (h : Steady i q (spine s)) : SteadyRes i q (execReplayCapture ctx cseq s) :=
  (steadyRes_next _).mpr <| replayRow_spine h fun _ => by simp [h]

@[simp] theorem steady_execReplayRestore (ctx cseq : Nat) (s : State) (h : Steady i q (spine s)) : SteadyRes i q (execReplayRestore ctx cseq s) := by
  refine (steadyRes_next _).mpr <| replayRow_spine h fun _ => ?_
  (repeat' split) <;> simp [h]

/-! ## WorkQueue -/

@[simp] theorem steady_runItem (s : State) (l : Nat) (j : Item) (h : Steady i q (spine s)) : Steady i q (spine (runItem s l j)) := by
  unfold runItem
  split <;> simp [h]

@[simp] theorem steady_execWorkQueueItemStart (core : Nat) (s : State) (h : Steady i q (spine s)) : SteadyRes i q (execWorkQueueItemStart core s) := by
  unfold execWorkQueueItemStart
  split <;> simp [h]

/-- Every command keeps what the invariant speaks of: its row's lemma. -/
theorem steady_exec (c : Instr) (s : State) (h : Steady i q (spine s)) : SteadyRes i q (exec c s) := by
  cases c <;> simp [exec, h]

theorem steady_idleTick (s : State) (h : Steady i q (spine s)) : Steady i q (spine (idleTick s)) := by
  unfold idleTick
  split
  · exact h
  · exact ⟨h.1, h.2.1, h.2.2.1, Nat.mod_lt _ (Nat.two_pow_pos 64), h.2.2.2.2⟩

theorem Steady.sound {s : State} (h : Steady i q (spine s)) (hq : q.all Instr.wf = true) :
    Sound s ∧ s.ident = i := by
  obtain ⟨hmem, hident, hpending, htime, hepoch⟩ := h
  exact ⟨⟨hmem, by rw [show s.pending = q from hpending]; exact hq, htime, hepoch⟩, hident⟩

/-- A step from a sound state ends in a sound state of the same module. -/
theorem step_sound {s t : State} (h : Sound s) (hstep : step s = .next t) : Sound t ∧ t.ident = s.ident := by
  obtain ⟨hmem, hqueue, htime, hepoch⟩ := h
  unfold step at hstep
  split at hstep
  case h_1 hnil =>
    cases hstep
    exact (steady_idleTick s ⟨hmem, rfl, rfl, htime, hepoch⟩).sound hqueue
  case h_2 c rest hcons =>
    rw [hcons, List.all_cons, Bool.and_eq_true] at hqueue
    exact (steady_exec c { s with pending := rest } ⟨hmem, rfl, rfl, htime, hepoch⟩ t hstep).sound hqueue.2

end Sys2Proof.Machine

/-- Settles O20: the front command by the lemma of its row, the empty queue by the idle step's; the rest of the queue stays well formed. -/
theorem everyStepKeepsTheInvariant : Obligations.EveryStepKeepsTheInvariant := fun _ _ => Sys2Proof.Machine.step_sound

end

section
/-! One step on either queue (R43, R44, R418): a waiting command runs, an empty queue lets one oscillator period pass. -/

namespace Sys2Proof.Machine

theorem step_cons {s : State} {c : Instr} {r : List Instr} (h : s.pending = c :: r) : step s = exec c { s with pending := r } := by
  unfold step; rw [h]

theorem step_nil {s : State} (h : s.pending = []) : step s = .next (idleTick s) := by
  unfold step; rw [h]

/-- R44: an oscillator period is 40 ns, within 0.5 %. -/
theorem periodPs_bounds (i : Nat) (hi : i < 800) : 39800 ≤ periodPs i ∧ periodPs i ≤ 40200 := by
  unfold periodPs
  (repeat' split) <;> omega

theorem profileAt_lt (s : State) : profileAt s < 800 := Nat.mod_lt _ (by decide)

/-- Nanoseconds that wrap at `m`, and picoseconds below 1,000, count on together as one number that wraps at `1000 * m`. -/
theorem nanos_picos_mod (a ps m : Nat) : (1000 * ((a + ps / 1000) % m) + ps % 1000) % (1000 * m) = (1000 * a + ps) % (1000 * m) := by
  rw [← Nat.mul_mod_mul_left, Nat.mod_add_mod, Nat.mul_add, Nat.add_assoc, Nat.div_add_mod]

/-- R43, R44, R418: the idle step of a module that is not OFF. -/
theorem idleTick_on {s : State} (hoff : s.boot.off = false) :
    let ps := s.oscPs + periodPs (profileAt s)
    idleTick s = { s with time := (s.time + ps / 1000) % 2 ^ 64, oscPs := ps % 1000, osc := (s.osc + 1) % 800 } :=
  if_neg (by simp [hoff])

end Sys2Proof.Machine

/-- Settles O18: the step's equation for each queue; the idle step's period is the profile's at its place. -/
theorem stepTakesTheFrontCommand : Obligations.StepTakesTheFrontCommand := by
  refine ⟨fun _ _ _ => Sys2Proof.Machine.step_cons, fun s hnil hoff => ?_, fun s hnil hoff => ?_, by decide +kernel⟩
  · rw [Sys2Proof.Machine.step_nil hnil, Sys2Proof.Machine.idleTick, if_pos hoff]
  · obtain ⟨hmin, hmax⟩ := Sys2Proof.Machine.periodPs_bounds _ (Sys2Proof.Machine.profileAt_lt s)
    refine ⟨_, (Sys2Proof.Machine.step_nil hnil).trans (congrArg _ (Sys2Proof.Machine.idleTick_on hoff)), rfl, rfl, Nat.mod_lt _ (by decide),
      _, hmin, hmax, ?_⟩
    rw [Nat.add_assoc]
    exact Sys2Proof.Machine.nanos_picos_mod s.time _ (2 ^ 64)

end

section
/-! What the fields of the reset state read (R195, R456). -/

namespace Sys2Proof.Machine

theorem regionOf_reset_first (m : Nat) : regionOf [] (16 * m + 0) = 0x8007017FFF000000 := by simp [regionOf, tget, regionReset]

/-- R195: at reset a master's first region register grants every kind of access up to unit 98,303. -/
theorem unitAllowed_reset {m u : Nat} {k : Kind} (hu : u ≤ 98303) : unitAllowed [] m k u = true := by
  have hbits : bitOf 0x8007017FFF000000 63 && bitOf 0x8007017FFF000000 k.bit && fld 0x8007017FFF000000 16 0 ≤ u
      && u ≤ fld 0x8007017FFF000000 40 24 := by
    have hlast : u ≤ fld 0x8007017FFF000000 40 24 := hu
    have hkind : bitOf 0x8007017FFF000000 k.bit = true := by cases k <;> decide
    rw [hkind, decide_eq_true hlast, decide_eq_true (show fld 0x8007017FFF000000 16 0 ≤ u from Nat.zero_le u)]
    decide
  exact List.any_eq_true.2 ⟨0, by decide, by rw [regionOf_reset_first]; exact hbits⟩

theorem firstRefused_reset {m a n : Nat} {k : Kind} (h : a + n ≤ spSize) : firstRefused [] m k [(a, n)] = none := by
  have hunit : ∀ u ∈ unitsOf a n, ¬(!unitAllowed [] m k (u / 64)) = true := fun u hu => by
    have hlt : u < spSize := by
      unfold unitsOf at hu
      split at hu
      · simp at hu
      · obtain ⟨i, hi, rfl⟩ := List.mem_map.1 hu
        have := List.mem_range.1 hi
        omega
    rw [spSize] at hlt
    rw [unitAllowed_reset (by omega)]
    decide
  simp [firstRefused, List.find?_eq_none.2 hunit]

theorem regionOf_reset_disabled {m k : Nat} (hk0 : 0 < k) (hk : k < 16) : bitOf (regionOf [] (16 * m + k)) 63 = false := by
  have hreset : regionReset (16 * m + k) = 0 := if_neg (by omega)
  rw [regionOf, tget, hreset]
  decide

theorem gReg_reset (i : Nat) : gReg {} i = 0 := by unfold gReg; split <;> rfl

theorem counterOf_reset (set i : Nat) : counterOf State.reset set i = {} := by unfold counterOf; split <;> rfl

end Sys2Proof.Machine

/-- Settles O22: the record's default fields, with the region registers read through their reset values. -/
theorem resetValuesOfTheRegisters : Obligations.ResetValuesOfTheRegisters :=
  ⟨rfl, rfl, rfl, rfl, rfl, rfl, rfl, fun _ => ⟨rfl, rfl⟩, fun _ => rfl,
    fun _ i => ⟨Sys2Proof.Machine.gReg_reset i, rfl, rfl, rfl⟩, Sys2Proof.Machine.counterOf_reset, rfl, rfl, rfl,
    fun _ _ _ _ _ _ _ hrange => ⟨fun _ => Sys2Proof.Machine.firstRefused_reset hrange, Sys2Proof.Machine.regionOf_reset_disabled⟩⟩

end

section
/-! The issue of an instruction and its completion (R45, R87 to R91, R100). -/

namespace Sys2Proof.Machine

open Sys2Proof.Claims

/-! ## The issue of an instruction -/

/-- A ready sequencer's core runs that launch. -/
theorem seqReady_run {s : State} {l : Nat} {r : Run} (h : seqReady s l = some r) : (getCore s l).run = some r := by
  unfold seqReady at h
  split at h
  case h_1 q hq =>
    split at h
    · rw [hq, ← h]
    · simp at h
  case h_2 => simp at h

theorem issues_of_iOp {op w : Nat} (h : iOp w = op) : issues op w = true := by simp [issues, h]

/-- Counting an issue leaves every core as it was. -/
theorem getCore_countIssue (s : State) (l : Nat) (r : Run) (k : Nat) : getCore (countIssue s l r) k = getCore s k :=
  (congrArg (fun u : State => getCore u k) (countIssue_frame s l r) :)

/-- The core of an issued instruction is as before, but for the marks of a breakpoint. -/
theorem getCore_issued (s : State) (l : Nat) (r : Run) : getCore (Issued s l r) l = { getCore s l with bpSkip := false, haltedAt := false } := by
  rw [Issued, getCore_modCore, getCore_countIssue]

theorem getCore_issued_ne (s : State) {l k : Nat} (r : Run) (h : k ≠ l) : getCore (Issued s l r) k = getCore s k :=
  (getCore_modCore_ne _ h _).trans (getCore_countIssue s l r k)

theorem issued_frame (s : State) (l : Nat) (r : Run) : { Issued s l r with cores := s.cores, tel := s.tel } = s :=
  (congrArg (fun u : State => { u with cores := s.cores }) (countIssue_frame s l r) :)

/-- A word whose sequencer issues it acts in the issued state. -/
theorem issue_acts {s : State} {l w op : Nat} {r : Run} (f : State → Run → Nat → State) (h : Issues s l w r) (hop : iOp w = op) :
    issue s l op f = f (Issued s l r) r w := by
  obtain ⟨hready, hhalt, hbreak, hinstr, hguard, hform, hindex⟩ := h
  subst hinstr
  rw [issue_runs f hready hhalt hbreak (issues_of_iOp hop)]
  exact runInstr_passes f hguard hform hindex

/-! ## The completion of an instruction -/

theorem getCore_next (s : State) (l : Nat) : getCore (next s l) l
    = { getCore s l with pc := (getCore s l).pc + 1, run := (getCore s l).run.map fun r => { r with holding := false, waiting := false } } := by
  rw [next, goto, modRun, getCore_modCore, getCore_modCore]

theorem getCore_next_ne (s : State) {l k : Nat} (h : k ≠ l) : getCore (next s l) k = getCore s k :=
  (getCore_modCore_ne _ h _).trans (getCore_modCore_ne _ h _)

/-- Of a state that an issued instruction of core `l` may leave before it completes: its core keeps program counter and launch, and nothing
but that core and the counter of the issue differs. -/
structure Acted (s u : State) (l : Nat) (r : Run) : Prop where
  pc     : (getCore u l).pc = (getCore s l).pc
  run    : (getCore u l).run = some r
  tel    : u.tel = (countIssue s l r).tel
  frame  : { u with cores := s.cores, tel := s.tel } = s
  others : ∀ k, k ≠ l → getCore u k = getCore s k

theorem acted_issued {s : State} {l : Nat} {r : Run} (hrun : (getCore s l).run = some r) : Acted s (Issued s l r) l r where
  pc := by rw [getCore_issued]
  run := by rw [getCore_issued]; exact hrun
  tel := rfl
  frame := issued_frame s l r
  others _ hk := getCore_issued_ne s r hk

theorem Acted.modCore {s u : State} {l : Nat} {r : Run} (h : Acted s u l r) {f : Core → Core} (hpc : ∀ x, (f x).pc = x.pc)
    (hrun : ∀ x, (f x).run = x.run) : Acted s (modCore u l f) l r where
  pc := by rw [getCore_modCore, hpc, h.pc]
  run := by rw [getCore_modCore, hrun, h.run]
  tel := h.tel
  frame := h.frame
  others _ hk := (getCore_modCore_ne u hk f).trans (h.others _ hk)

/-- Outside the cores a completion changes nothing. -/
theorem next_frame (s u : State) (l : Nat) : { next u l with cores := s.cores, tel := s.tel } = { u with cores := s.cores, tel := s.tel } := rfl

theorem Acted.completes {s u : State} {l : Nat} {r : Run} (h : Acted s u l r) : Completes s (next u l) l r ((getCore s l).pc + 1) := by
  refine ⟨?_, ?_, h.tel, (next_frame s u l).trans h.frame, fun k hk => (getCore_next_ne u hk).trans (h.others k hk)⟩
  · rw [getCore_next, h.pc]
  · rw [getCore_next, h.run]
    rfl

/-! ## General registers -/

theorem gReg_putG (x : Core) (i : Nat) (v : Word64) : gReg (putG x i v) i = if i = 0 then 0 else v := by
  unfold gReg putG
  split
  · rfl
  · exact tget_tset_same 0 x.g i v

theorem gReg_putG_ne (x : Core) {i j : Nat} (v : Word64) (h : j ≠ i) : gReg (putG x i v) j = gReg x j := by
  unfold gReg putG
  split
  · rfl
  · split
    · rfl
    · exact tget_tset_ne 0 x.g h v

theorem putG_pc (x : Core) (i : Nat) (v : Word64) : (putG x i v).pc = x.pc := by unfold putG; split <;> rfl

theorem putG_run (x : Core) (i : Nat) (v : Word64) : (putG x i v).run = x.run := by unfold putG; split <;> rfl

theorem pc_putDst (s : State) (l w : Nat) (v : Word64) : (getCore (putDst s l w v) l).pc = (getCore s l).pc + 1 := by
  rw [putDst, getCore_next, getCore_modCore, putG_pc]

/-- The registers of a core after a result are those that the result left. -/
theorem gReg_putDst (s : State) (l w : Nat) (v : Word64) (j : Nat) :
    gReg (getCore (putDst s l w v) l) j = gReg (putG (getCore s l) (iDst w) v) j := by
  rw [putDst, getCore_next, getCore_modCore]
  rfl

theorem completes_putDst {s : State} {l : Nat} {r : Run} (w : Nat) (v : Word64) (hrun : (getCore s l).run = some r) :
    Completes s (putDst (Issued s l r) l w v) l r ((getCore s l).pc + 1) :=
  ((acted_issued hrun).modCore (fun x => putG_pc x (iDst w) v) fun x => putG_run x (iDst w) v).completes

/-- A result reaches one register of the issuing core. -/
theorem sameG_putDst (s : State) (l : Nat) (r : Run) (w : Nat) (v : Word64) :
    SameG (getCore s l) (getCore (putDst (Issued s l r) l w v) l) (iDst w) := fun j hj => by
  rw [gReg_putDst, gReg_putG_ne _ _ hj, getCore_issued]
  rfl

/-! ## TIME and WHOAMI (R45, R100) -/

/-- R45: the core's copy of module time is at most 64 ns old, never ahead, and never older than the last one. -/
theorem coreTime_bounds {s : State} {l : Nat} (h : (getCore s l).timeCopy ≤ s.time) :
    coreTime s l ≤ s.time ∧ s.time ≤ coreTime s l + 64 ∧ (getCore s l).timeCopy ≤ coreTime s l := by
  unfold coreTime
  omega

theorem getCore_bumpFree (s : State) (l : Nat) : getCore (bumpFree s) l = getCore s l := rfl

theorem exec_time {s : State} {l w : Nat} {r : Run} (h : Issues s l w r) (hop : iOp w = 0x60) :
    exec (.time l) s = .next (putDst (bumpFree (modCore (Issued s l r) l fun x => { x with timeCopy := coreTime (Issued s l r) l })) l w
      (BitVec.ofNat 64 (coreTime (Issued s l r) l))) := congrArg _ (issue_acts _ h hop)

theorem exec_whoami {s : State} {l w : Nat} {r : Run} (h : Issues s l w r) (hop : iOp w = 0x61) :
    exec (.whoami l) s = .next (putDst (Issued s l r) l w (BitVec.ofNat 64 (whoamiWord (Issued s l r) l r.cores))) :=
  congrArg _ (issue_acts _ h hop)

/-- The identity and the map, which WHOAMI reads, are those before the issue. -/
theorem whoamiWord_issued (s : State) (l : Nat) (r : Run) (n : Nat) : whoamiWord (Issued s l r) l n = whoamiWord s l n :=
  (congrArg (fun u : State => whoamiWord u l n) (issued_frame s l r) :)

/-- R100: the fields of the identity word, cut to its 64 bits. -/
theorem whoamiWord_mod (s : State) {l : Nat} (n : Nat) (hl : l < 88) : whoamiWord s l n % 2 ^ 64
    = l + (if l < 44 then 0 else 1) * 2 ^ 7 + n % 256 * 2 ^ 8 + (if s.ident.code = .l8 then 1 else 2) * 2 ^ 16 + ownCoord s % 2 ^ 32 * 2 ^ 32 := by
  have hcode : (if isL8 s = true then 1 else 2) = if s.ident.code = .l8 then 1 else 2 := by simp [isL8]
  unfold whoamiWord dieOf
  rw [hcode]
  (repeat' split) <;> omega

theorem salfelTimeAndWhoamiReadTheModule : SalfelTimeAndWhoamiReadTheModule := by
  intro s l w r h x
  have hrun : (getCore s l).run = some r := seqReady_run h.1
  refine ⟨fun hop hcopy htime hdst => ?_, fun hop hl => ?_⟩
  · have hcore := getCore_issued s l r
    have hnow : (Issued s l r).time = s.time := (congrArg State.time (issued_frame s l r) :)
    obtain ⟨hle, hlag, hback⟩ := coreTime_bounds (s := Issued s l r) (l := l) (by rw [hcore, hnow]; exact hcopy)
    rw [hnow] at hle hlag
    rw [hcore] at hback
    refine ⟨_, exec_time h hop, ?_, ?_⟩
    · rw [pc_putDst, getCore_bumpFree, getCore_modCore, hcore]
    · rw [gReg_putDst, gReg_putG, if_neg hdst, BitVec.toNat_ofNat, Nat.mod_eq_of_lt (by omega)]
      exact ⟨hle, hlag, hback⟩
  · refine ⟨_, exec_whoami h hop, completes_putDst w _ hrun, sameG_putDst s l r w _, ?_⟩
    rw [GetsG, gReg_putDst, gReg_putG, apply_ite BitVec.toNat, BitVec.toNat_ofNat, whoamiWord_issued, whoamiWord_mod s r.cores hl]
    rfl

/-! ## The guard and the form (R87, R89, R91) -/

theorem exec_add_issued {s : State} {l : Nat} {r : Run} (hready : seqReady s l = some r) (hhalt : (getCore s l).halt = false)
    (hbreak : atBreak (getCore s l) = false) (hop : iOp (instrAt s l) = 0x01) :
    exec (.add l) s = .next (runInstr s l r (instrAt s l) fun s _ w => let x := getCore s l; putDst s l w (opA x w + opB x w)) :=
  congrArg _ (issue_runs _ hready hhalt hbreak (issues_of_iOp hop))

/-- An instruction whose guard fails is passed over, away from the last index. -/
theorem runInstr_skips {s : State} {l w : Nat} {r : Run} (f : State → Run → Nat → State) (hguard : guardOf (getCore s l) (iPred w) (iNeg w) = false)
    (hpc : (getCore s l).pc ≠ 32767) : runInstr s l r w f = next (Issued s l r) l := by
  unfold runInstr Issued
  simp [hguard, hpc]

theorem runInstr_illegal {s : State} {l w : Nat} {r : Run} (f : State → Run → Nat → State)
    (hguard : guardOf (getCore s l) (iPred w) (iNeg w) = true) (hform : formOk w = false) :
    runInstr s l r w f = trap (Issued s l r) l Status.salfelIllegal (getCore s l).pc 0 0 false := by
  unfold runInstr Issued
  simp [hguard, hform]

/-- A word at the last index that would be followed by the next traps, unless its form is illegal. -/
theorem runInstr_runsOut {s : State} {l w : Nat} {r : Run} (f : State → Run → Nat → State)
    (hok : guardOf (getCore s l) (iPred w) (iNeg w) = false ∨ formOk w = true) (hpc : (getCore s l).pc = 32767)
    (hstays : leavesStore (iOp w) (loopTaken (getCore s l) w) = false) :
    runInstr s l r w f = trap (Issued s l r) l Status.salfelAddress 32767 0 32768 false := by
  unfold runInstr Issued
  cases hguard : guardOf (getCore s l) (iPred w) (iNeg w) with
  | false => simp [hguard, hpc]
  | true =>
    rw [hguard] at hok
    have hform : formOk w = true := hok.resolve_left Bool.noConfusion
    simp [hguard, hform, hpc, hstays]

theorem salfelGuardAndFormDecideTheIssue : SalfelGuardAndFormDecideTheIssue := by
  intro s l w r hready hhalt hbreak hw hop x u
  subst hw
  have hexec := exec_add_issued hready hhalt hbreak hop
  have hstays : leavesStore (iOp (instrAt s l)) (loopTaken x (instrAt s l)) = false := by rw [hop]; rfl
  refine ⟨fun hguard hpc => ⟨_, hexec.trans (congrArg _ (runInstr_skips _ hguard hpc)), (acted_issued (seqReady_run hready)).completes, ?_, ?_⟩,
    fun hguard hform => hexec.trans (congrArg _ (runInstr_illegal _ hguard hform)),
    fun hok hpc => hexec.trans (congrArg _ (runInstr_runsOut _ hok hpc hstays))⟩
  · rw [SameButRegs, getCore_next, getCore_issued]
  · rw [SameGP, getCore_next, getCore_issued]
    exact ⟨fun _ => rfl, rfl⟩

end Sys2Proof.Machine

/-- Settles O6: TIME and WHOAMI by the issued state's core, the guard and the form by the branches of the issue. -/
theorem salfelIssueAndReadsFollowTheGuard : Obligations.SalfelIssueAndReadsFollowTheGuard :=
  ⟨Sys2Proof.Machine.salfelTimeAndWhoamiReadTheModule, Sys2Proof.Machine.salfelGuardAndFormDecideTheIssue⟩

end

section
/-! What the events of a host port leave: its registers, its contexts, and the other port's (R48 to R51, R57, R60, R71, R459). -/

namespace Sys2Proof.Machine

open Sys2Proof.Claims

/-! ## Tables whose entries change by key -/

/-- An entry of a table whose values change by their keys, where the key's change keeps the default. -/
theorem tget_map_key {β : Type} (d : β) (g : Nat → β → β) (t : Tab β) {i : Nat} (hg : g i d = d) :
    tget d (t.map fun e => (e.1, g e.1 e.2)) i = g i (tget d t i) := by
  induction t with
  | nil => exact hg.symm
  | cons e r ih =>
    obtain ⟨k, v⟩ := e
    by_cases h : k = i
    · subst h
      simp [tget]
    · simpa [tget, h] using ih

/-! ## The ports' registers -/

@[simp] theorem setPort_getPort (s : State) (p : HostPort) : setPort s p (getPort s p) = s := by cases p <;> rfl

@[simp] theorem getPort_setPort_other (s : State) (p : HostPort) (x : Port) : getPort (setPort s p x) (otherPort p) = getPort s (otherPort p) := by
  cases p <;> rfl

/-- With no vector pending, a port that can master again sends nothing. -/
theorem flushPba_none {s : State} {p : HostPort} (h : (getPort s p).pba = []) : flushPba s p = s := by
  unfold flushPba
  split
  · rfl
  · simp only [h, List.filter_nil, List.foldl_nil]
    rw [← h]
    exact setPort_getPort s p

/-! ## Contexts of a lost port (R51, R60) -/

/-- A context after the loss of a port (R51, R60, R71): an open one of that port is ORPHANED, and the port's host-memory charges end. -/
def Ctx.afterLoss (p : HostPort) (c : Nat) (x : Ctx) : Ctx :=
  let host := fun (e : Entry) => e.dispatched && e.st ≠ .finished && e.report.isNone && e.port = p && (e.opcode = 0x110 || e.opcode = 0x111)
  { x with st := if (x.st = .opened || x.st = .faulted) && x.owner = p && c ≠ replayCtx then .orphaned else x.st
           entries := x.entries.map (fun y => if host y then { y with report := some (Status.hostPortLost, 0) } else y) }

theorem getCtx_orphan (s : State) (p : HostPort) (c : Nat) : getCtx (orphan s p) c = (getCtx s c).afterLoss p c := by
  have hctxs : (orphan s p).ctxs = s.ctxs.map fun e => (e.1, e.2.afterLoss p e.1) := rfl
  rw [getCtx, hctxs]
  exact tget_map_key {} (fun c x => Ctx.afterLoss p c x) s.ctxs rfl

theorem Ctx.st_afterLoss (p : HostPort) {c : Nat} (hc : c < 1024) (x : Ctx) :
    (x.afterLoss p c).st = if x.owner = p ∧ (x.st = .opened ∨ x.st = .faulted) then .orphaned else x.st := by
  have hne : c ≠ replayCtx := Nat.ne_of_lt hc
  simp [Ctx.afterLoss, hne, and_comm]

/-- What an event that loses a port leaves, where `f` is the event's own change of the port's registers. -/
def LosesPort (s t : State) (p : HostPort) (f : Port → Port) : Prop :=
  getPort t p = f { getPort s p with winBase := 0, msix := [], pba := [] } ∧ getPort t (otherPort p) = getPort s (otherPort p)
    ∧ { t with portA := s.portA, portB := s.portB, ctxs := s.ctxs } = s
    ∧ ∀ c, c < 1024 → (getCtx t c).st = if (getCtx s c).owner = p ∧ ((getCtx s c).st = .opened ∨ (getCtx s c).st = .faulted)
        then .orphaned else (getCtx s c).st

theorem portLoss_port (s : State) (p : HostPort) : getPort (portLoss s p) p = { getPort s p with winBase := 0, msix := [], pba := [] } :=
  getPort_setPort s p _

theorem getCtx_setPort (s : State) (p : HostPort) (x : Port) (c : Nat) : getCtx (setPort s p x) c = getCtx s c := by cases p <;> rfl

theorem losesPort_setPort (s : State) (p : HostPort) (f : Port → Port) :
    LosesPort s (setPort (portLoss s p) p (f (getPort (portLoss s p) p))) p f := by
  refine ⟨?_, ?_, ?_, fun c hc => ?_⟩
  · rw [getPort_setPort, portLoss_port]
  · rw [getPort_setPort_other]
    exact getPort_setPort_other s p _
  · cases p <;> rfl
  · rw [getCtx_setPort, portLoss, getCtx_orphan, Ctx.st_afterLoss p hc, getCtx_setPort]

theorem exec_losesPort {s : State} {i : Instr} {p : HostPort} {f : Port → Port}
    (h : exec i s = .next (setPort (portLoss s p) p (f (getPort (portLoss s p) p)))) : ∃ t, exec i s = .next t ∧ LosesPort s t p f :=
  ⟨_, h, losesPort_setPort s p f⟩

/-! ## The opposite events (R49, R57, R459) -/

theorem putPerst_low (s : State) (p : HostPort) : perstLow (putPerst s p false) p = false
    ∧ perstLow (putPerst s p false) (otherPort p) = perstLow s (otherPort p) ∧ { putPerst s p false with pins := s.pins } = s := by
  cases p <;> exact ⟨rfl, rfl, rfl⟩

end Sys2Proof.Machine

open Sys2Proof Sys2Proof.Machine

/-- Settles O28: one lemma for the five events that lose a port, the register writes of those that bring it back. -/
theorem portEventsOrphanContexts : Obligations.PortEventsOrphanContexts := by
  intro s p
  refine ⟨fun row hrow => ?_, fun hpba => ⟨?_, fun hup hdet => ?_, fun hlink cfg => ?_⟩, ⟨_, rfl, putPerst_low s p⟩, fun hup hperst => ?_,
    fun c q e hrun hport => ?_⟩
  · simp only [List.mem_cons, List.not_mem_nil, or_false] at hrow
    rcases hrow with rfl | rfl | rfl | rfl | rfl <;> exact exec_losesPort rfl
  · exact congrArg _ (flushPba_none (by rw [getPort_setPort]; exact hpba))
  · refine congrArg _ ((if_pos (by simp [hup, hdet])).trans (flushPba_none ?_))
    rw [getPort_setPort]; exact hpba
  · refine congrArg _ ((if_pos hlink).trans (flushPba_none ?_))
    rw [getPort_setPort]; exact hpba
  · exact congrArg _ (if_pos (by simp [hup, hperst]))
  · exact congrArg _ ((onCharge_running _ hrun).trans (if_pos hport))

end

section
/-! Input, measurements, temperature, core rail and pool: a rule for each command (R39, R40, R405, R412 to R417). -/

namespace Sys2Proof.Machine

open Sys2Proof.Claims

/-! ## What a settled rail, a settled excess and a record of power leave -/

/-- The rail that follows its code changes the applied code and the held grants alone. -/
theorem settleRail_shape (s : State) :
    ∃ cores applied, settleRail s = { s with cores := cores, power := { s.power with applied := applied } } := by
  rcases settleRail_cases s with h | ⟨code, h⟩
  · exact ⟨s.cores, s.power.applied, h⟩
  · exact ⟨_, code, h⟩

theorem powerEvent_shape (s : State) (status : Nat) : ∃ tel, powerEvent s status = { s with tel := tel } :=
  ⟨_, (recorded_raiseEv s status 5 noSubject 0 (pwrInput s) (pwrStat s)).eq⟩

theorem setInput_shape (s : State) (mv : Nat) (low high : Bool) : ∃ cores applied excess, setInput s mv low high
    = { s with cores := cores, power := { s.power with vinNow := mv, low := low, high := high, applied := applied, excess := excess } } := by
  obtain ⟨cores, applied, h⟩ := settleRail_shape { s with power := { s.power with vinNow := mv, low := low, high := high } }
  exact ⟨cores, applied, _, congrArg settleExcess h⟩

/-! ## The input voltage (R405) -/

/-- The state has taken an input voltage with its marks, and settled rail and records for it. -/
def TakesInput (s t : State) (mv : Nat) (low high : Bool) : Prop :=
  t.power.vinNow = mv ∧ t.power.low = low ∧ t.power.high = high ∧ t.mem = s.mem ∧ t.ctxs = s.ctxs ∧ t.power.limitW = s.power.limitW
    ∧ { t with power := s.power, cores := s.cores, tel := s.tel } = s

theorem takesInput_setInput (s : State) (mv : Nat) (low high : Bool) : TakesInput s (setInput s mv low high) mv low high := by
  obtain ⟨cores, applied, excess, h⟩ := setInput_shape s mv low high
  rw [h]
  exact ⟨rfl, rfl, rfl, rfl, rfl, rfl, rfl⟩

theorem TakesInput.powerEvent {s t : State} {mv : Nat} {low high : Bool} (h : TakesInput s t mv low high) (status : Nat) :
    TakesInput s (powerEvent t status) mv low high := by
  obtain ⟨tel, ht⟩ := powerEvent_shape t status
  rw [ht]
  exact h

/-- A command of the input voltage within its band. -/
theorem takesInput_band {s : State} {p : Prop} [Decidable p] {mv : Nat} {low high : Bool} (status : Nat) :
    TakesInput s (if p then setInput s mv low high else powerEvent (setInput s mv low high) status) mv low high := by
  split
  · exact takesInput_setInput s mv low high
  · exact (takesInput_setInput s mv low high).powerEvent status

theorem exec_inputLow {s : State} {mv : Nat} (hoff : s.boot.off = false) (hmin : 32000 ≤ mv) (hmax : mv ≤ 35999) :
    ∃ t, exec (.inputLow mv) s = .next t ∧ TakesInput s t mv true false := by
  refine ⟨_, ?_, takesInput_band (p := s.power.low) Status.inputLow⟩
  refine (if_neg (by omega)).trans (congrArg _ (if_neg ?_))
  simp only [hoff, Bool.false_eq_true, false_or]
  omega

theorem exec_inputHigh {s : State} {mv : Nat} (hoff : s.boot.off = false) (hmin : 44001 ≤ mv) (hmax : mv ≤ 48000) :
    ∃ t, exec (.inputHigh mv) s = .next t ∧ TakesInput s t mv false true := by
  refine ⟨_, ?_, takesInput_band (p := s.power.high) Status.inputHigh⟩
  refine (if_neg (by omega)).trans (congrArg _ (if_neg ?_))
  simp only [hoff, Bool.false_eq_true, false_or]
  omega

theorem exec_inputInOperatingRange {s : State} {mv : Nat} (hoff : s.boot.off = false) (hmin : 36000 ≤ mv) (hmax : mv ≤ 44000) :
    ∃ t, exec (.inputInOperatingRange mv) s = .next t ∧ TakesInput s t mv false false := by
  refine ⟨_, ?_, takesInput_setInput s mv false false⟩
  refine (if_neg (by omega)).trans (congrArg _ (if_neg ?_))
  simp only [hoff, Bool.false_eq_true, false_or]
  omega

/-- R405: an input outside 32 V to 48 V turns the module OFF. -/
theorem exec_inputLost {s : State} {mv : Nat} (hmax : mv ≤ 54000) (hoff : s.boot.off = false) (hout : mv < 32000 ∨ 48000 < mv) :
    exec (.inputLost mv) s = .next (goOff s mv) := by
  refine (if_neg (by omega)).trans (congrArg _ ((if_neg (by omega)).trans (if_neg ?_)))
  rw [hoff]
  exact Bool.false_ne_true

/-! ## Measurements and temperature (R414, R415, R417) -/

theorem exec_inputPowerMeasurement {s : State} {mv : Nat} (w peak avg : Nat) (hmax : mv ≤ 54000) (hoff : s.boot.off = false)
    (hon : s.boot.shutdown = false) : exec (.inputPowerMeasurement mv w peak avg) s
      = .next (settleExcess { s with power := { s.power with vinMv := mv, pinW := w, peakW := peak, avgW := avg, railMv := railMvNow s } }) := by
  refine (if_neg (by omega)).trans (congrArg _ (if_neg ?_))
  simp [hoff, hon]

theorem getCore_shutDown (s : State) (l : Nat) : ∃ v, getCore (shutDown s) l = { timeCopy := v } := by
  have hcores : (shutDown s).cores = (s.cores.filter fun e => e.2.timeCopy ≠ 0).map fun e => (e.1, ({ timeCopy := e.2.timeCopy } : Core)) := rfl
  rw [getCore, hcores, tget_map {} (fun x : Core => ({ timeCopy := x.timeCopy } : Core)) rfl]
  exact ⟨_, rfl⟩

/-- The hottest junction in its register. -/
def tjRead (s : State) (h : Nat) : State := { s with power := { s.power with tjMax := min 255 h } }

/-- R415: the command of the hottest junction while the module has power. -/
theorem exec_junctionSensorRead {s : State} (h : Nat) (hoff : s.boot.off = false) (hon : s.boot.shutdown = false) :
    exec (.junctionSensorRead h) s = .next (
      if 110 ≤ h then emit (shutDown (powerEvent (tjRead s h) Status.thermalShutdown)) (.sideband Status.thermalShutdown [])
      else if 105 ≤ h ∧ s.power.throttle = false then
        let s := tjRead s h
        powerEvent (settleRail { s with power := { s.power with throttle := true, heat := 10 } }) Status.thermalThrottle
      else if h < 100 ∧ s.power.throttle = true then
        let s := tjRead s h
        settleRail { s with power := { s.power with throttle := false } }
      else tjRead s h) :=
  congrArg Host.Outcome.next (if_neg (by simp [hoff, hon]))

theorem fabricRuns_of_shutdown {s : State} (h : s.boot.shutdown = true) : fabricRuns s = false := by simp [fabricRuns, h]

/-- R415: at 110 °C every rail but the management rail is removed. -/
theorem junction_shutsDown {s : State} {h : Nat} (hoff : s.boot.off = false) (hon : s.boot.shutdown = false) (hhot : 110 ≤ h) :
    ∃ t, exec (.junctionSensorRead h) s = .next t ∧ t.boot.shutdown = true ∧ t.mem = [] ∧ (∀ l, ∃ v, getCore t l = { timeCopy := v })
      ∧ fabricRuns t = false :=
  ⟨_, (exec_junctionSensorRead h hoff hon).trans (congrArg _ (if_pos hhot)), rfl, rfl, getCore_shutDown _, fabricRuns_of_shutdown rfl⟩

/-- R415: from 105 °C the module throttles, which takes half of the pool off. -/
theorem junction_throttles {s : State} {h : Nat} (hoff : s.boot.off = false) (hon : s.boot.shutdown = false) (hmin : 105 ≤ h) (hmax : h < 110)
    (hnot : s.power.throttle = false) : ∃ t, exec (.junctionSensorRead h) s = .next t ∧ t.power.throttle = true
      ∧ t.power.tjMax = h ∧ railCode t = 0 ∧ t.power.heat = 10 ∧ { t with power := s.power, cores := s.cores, tel := s.tel } = s := by
  refine ⟨_, (exec_junctionSensorRead h hoff hon).trans (congrArg _ ((if_neg (by omega)).trans (if_pos ⟨hmin, hnot⟩))), ?_⟩
  dsimp only
  generalize hu : settleRail _ = u
  obtain ⟨cores, applied, hrail⟩ := settleRail_shape { tjRead s h with power := { (tjRead s h).power with throttle := true, heat := 10 } }
  obtain ⟨tel, ht⟩ := powerEvent_shape u Status.thermalThrottle
  rw [ht, ← hu, hrail]
  exact ⟨rfl, Nat.min_eq_right (by omega), rfl, rfl, rfl⟩

/-- R415: below 100 °C the throttle ends; what it took off the pool comes back by steps. -/
theorem junction_recovers {s : State} {h : Nat} (hoff : s.boot.off = false) (hon : s.boot.shutdown = false) (hcold : h < 100)
    (hthr : s.power.throttle = true) : ∃ t, exec (.junctionSensorRead h) s = .next t ∧ t.power.throttle = false
      ∧ t.power.tjMax = h ∧ t.power.heat = s.power.heat ∧ { t with power := s.power, cores := s.cores } = s := by
  refine ⟨_, (exec_junctionSensorRead h hoff hon).trans (congrArg _
    ((if_neg (by omega)).trans ((if_neg (by omega)).trans (if_pos ⟨hcold, hthr⟩)))), ?_⟩
  obtain ⟨cores, applied, hrail⟩ := settleRail_shape { tjRead s h with power := { (tjRead s h).power with throttle := false } }
  dsimp only
  rw [hrail]
  exact ⟨rfl, Nat.min_eq_right (by omega), rfl, rfl⟩

theorem junction_rests {s : State} {h : Nat} (hoff : s.boot.off = false) (hon : s.boot.shutdown = false) (hmax : h < 110)
    (hcool : h < 105 ∨ s.power.throttle = true) (hwarm : 100 ≤ h ∨ s.power.throttle = false) :
    exec (.junctionSensorRead h) s = .next { s with power := { s.power with tjMax := h } } := by
  have hthr : ¬(105 ≤ h ∧ s.power.throttle = false) := fun ⟨hge, hf⟩ => by
    rw [hf] at hcool
    exact hcool.elim (Nat.not_lt.2 hge) Bool.noConfusion
  have hend : ¬(h < 100 ∧ s.power.throttle = true) := fun ⟨hlt, ht⟩ => by
    rw [ht] at hwarm
    exact hwarm.elim (Nat.not_le.2 hlt) Bool.noConfusion
  rw [exec_junctionSensorRead h hoff hon, if_neg (by omega), if_neg hthr, if_neg hend, tjRead, Nat.min_eq_right (by omega)]

/-! ## The core rail (R39) -/

theorem interruptUpdate_none {s : State} (cause : Nat) (h : running s s.step.updCtx.1 s.step.updCtx.2 0x400 = none) : interruptUpdate s cause = s := by
  unfold interruptUpdate
  dsimp only
  rw [h]

theorem fabricRuns_of_railLow {s : State} (h : s.power.railLow = true) : fabricRuns s = false := by simp [fabricRuns, h]

/-- R39: a core rail below its threshold halts the fabric. -/
theorem coreRailLow_halts {s : State} {rail : Nat} (hoff : s.boot.off = false) (hon : s.boot.shutdown = false) (hstage : 5 ≤ s.boot.stage)
    (hlow : rail < s.power.threshold) (hnew : s.power.railLow = false)
    (hidle : running s s.step.updCtx.1 s.step.updCtx.2 0x400 = none) : ∃ t, exec (.coreRailLow rail) s = .next t
      ∧ t.power = { s.power with railLow := true, lowDrawn := decide (s.power.st = .drawn) }
      ∧ fabricRuns t = false ∧ { t with power := s.power, tel := s.tel } = s := by
  obtain ⟨tel, ht⟩ := powerEvent_shape { s with power := { s.power with railLow := true, lowDrawn := s.power.st = .drawn } } Status.coreRailLow
  have hexec : exec (.coreRailLow rail) s
      = .next { s with power := { s.power with railLow := true, lowDrawn := s.power.st = .drawn }, tel := tel } := by
    refine congrArg _ ((if_neg ?_).trans ((if_neg (Nat.not_le.2 hlow)).trans ((if_neg (by rw [hnew]; exact Bool.false_ne_true)).trans ?_)))
    · simp only [hoff, hon, Bool.false_eq_true, false_or]
      omega
    · rw [ht]
      split
      · rfl
      · exact interruptUpdate_none _ hidle
  exact ⟨_, hexec, rfl, fabricRuns_of_railLow rfl, rfl⟩

/-- R39: a core rail back at its threshold ends the halt outside DRAWN. -/
theorem coreRailLow_returns {s : State} {rail : Nat} (hoff : s.boot.off = false) (hon : s.boot.shutdown = false) (hstage : 5 ≤ s.boot.stage)
    (hback : s.power.threshold ≤ rail) : exec (.coreRailLow rail) s
      = .next (if s.power.st = .drawn ∨ s.power.lowDrawn = true then s else { s with power := { s.power with railLow := false } }) := by
  refine congrArg _ ((if_neg ?_).trans (if_pos hback))
  simp only [hoff, hon, Bool.false_eq_true, false_or]
  omega

/-! ## The pool (R414, R415) -/

theorem exec_powerOverdraw {s : State} (hover : effLimit s s.power.limitW < s.power.avgW) (hroom : s.power.cuts < 20) :
    exec .powerOverdraw s = .next (
      let t := { s with power := { s.power with cuts := s.power.cuts + 1, excess := true } }
      if s.power.excess then t else powerEvent t Status.powerOverdraw) :=
  congrArg Host.Outcome.next (if_neg (by omega))

/-- R414: an overdraw cuts the pool by one step, and a new one raises its record. -/
theorem powerOverdraw_cuts {s : State} (hover : effLimit s s.power.limitW < s.power.avgW) (hroom : s.power.cuts < 20) :
    ∃ t, exec .powerOverdraw s = .next t ∧ t.power = { s.power with cuts := s.power.cuts + 1, excess := true }
      ∧ { t with power := s.power, tel := s.tel } = s ∧ (s.power.excess = true → t.tel = s.tel)
      ∧ (s.power.excess = false → s.tel.lostNow = 0 → s.tel.buffer.length < 4096 → ∃ v, t.tel.buffer = s.tel.buffer ++ [v]
          ∧ v.status = Status.powerOverdraw) := by
  rw [exec_powerOverdraw hover hroom]
  generalize hu : ({ s with power := { s.power with cuts := s.power.cuts + 1, excess := true } } : State) = u
  cases hnew : s.power.excess with
  | true =>
    subst hu
    exact ⟨_, rfl, rfl, rfl, fun _ => rfl, Bool.noConfusion⟩
  | false =>
    obtain ⟨tel, ht⟩ := powerEvent_shape u Status.powerOverdraw
    refine ⟨_, rfl, ?_, ?_, Bool.noConfusion, fun _ hlost hlen => ?_⟩
    · rw [if_neg Bool.false_ne_true, ht, ← hu]
    · rw [if_neg Bool.false_ne_true, ht, ← hu]
    · have htel : u.tel = s.tel := by rw [← hu]
      obtain ⟨v, hbuffer, hstatus, -, -⟩ := raiseEv_buffer Status.powerOverdraw 5 noSubject 0 (pwrInput u) (pwrStat u)
        (by rw [htel]; exact hlost) (by rw [htel]; exact hlen)
      rw [htel] at hbuffer
      exact ⟨v, hbuffer, hstatus⟩

/-- R414, R415: an average 5 % below the limit brings one step of the pool back. -/
theorem poolRestore_returns {s : State} (hunder : s.power.avgW * 100 ≤ effLimit s s.power.limitW * 95) : ∃ t, exec .poolRestore s = .next t
    ∧ t.power.cuts = s.power.cuts - 1 ∧ t.power.heat = (if s.power.throttle = true then s.power.heat else s.power.heat - 1)
    ∧ { t with power := s.power, cores := s.cores } = s := by
  obtain ⟨cores, applied, hrail⟩ := settleRail_shape { s with power := { s.power with
    cuts := s.power.cuts - 1, heat := if s.power.throttle then s.power.heat else s.power.heat - 1 } }
  exact ⟨_, congrArg Host.Outcome.next ((if_neg (Nat.not_lt.2 hunder)).trans hrail), rfl, rfl, rfl⟩

end Sys2Proof.Machine

open Sys2Proof Sys2Proof.Machine

/-- Settles O50: a rule for each command of input, measurement, temperature and rail. -/
theorem inputAndSensorsSteerThePower : Obligations.InputAndSensorsSteerThePower := by
  intro s mv hmax
  refine ⟨fun hoff => ⟨fun row hrow => ?_, fun hout => ⟨_, exec_inputLost hmax hoff hout, rfl, rfl, rfl, rfl, rfl, rfl, rfl, rfl, rfl, rfl⟩⟩,
    fun hoff hon => ⟨fun w peak avg => ⟨_, exec_inputPowerMeasurement w peak avg hmax hoff hon, rfl, rfl, rfl, rfl, rfl⟩,
      fun h => ⟨junction_shutsDown hoff hon, junction_throttles hoff hon, junction_recovers hoff hon, junction_rests hoff hon⟩,
      fun rail hstage => ⟨coreRailLow_halts hoff hon hstage, coreRailLow_returns hoff hon hstage⟩⟩,
    powerOverdraw_cuts, poolRestore_returns, fun a b ha hb => ?_⟩
  · simp only [List.mem_cons, List.not_mem_nil, or_false] at hrow
    rcases hrow with rfl | rfl | rfl
    · exact exec_inputLow hoff
    · exact exec_inputHigh hoff
    · exact exec_inputInOperatingRange hoff
  · change Host.Outcome.next _ = _
    rw [Nat.mod_eq_of_lt ha, Nat.mod_eq_of_lt hb]

end

section
/-! The power states, the governor's charges and AUTO_IDLE (R39, R268, R408 to R411, R413, R416): what each transition leaves. -/

namespace Sys2Proof.Machine

open Sys2Proof.Claims

/-! ## The running charge and its report -/

/-- A change of the first entry that passes one test shows among those that pass a wider one. -/
theorem filter_updFirst {α : Type} {p r : α → Bool} {f : α → α} (hp : ∀ x, p x = true → r x = true) (hf : ∀ x, r (f x) = r x) (l : List α) :
    (updFirst p f l).filter r = updFirst p f (l.filter r) := by
  induction l with
  | nil => rfl
  | cons x t ih =>
    cases hx : p x with
    | true => simp [updFirst, hx, hp x hx, hf]
    | false => cases hr : r x <;> simp [updFirst, hx, hr, ih]

/-- A charge's running entry, looked for among those with its CSEQ. -/
theorem running_filter (s : State) (c q op : Nat) : running s c q op = ((getCtx s c).entries.filter (fun y => y.cseq = q)).find?
    (fun y => y.opcode = op && y.dispatched && y.st ≠ .finished && y.report.isNone) := by
  rw [List.find?_filter, running]
  simp only [Bool.and_assoc, Bool.decide_and, Bool.decide_eq_true]

/-- A change of the running charge that keeps what it is found by leaves it the running charge. -/
theorem sole_modRunning {s : State} {c q op : Nat} {e : Entry} (h : Sole s c q op e) {f : Entry → Entry} (hcseq : ∀ x, (f x).cseq = x.cseq)
    (hop : (f e).opcode = e.opcode) (hdisp : (f e).dispatched = e.dispatched) (hst : (f e).st = e.st) (hrep : (f e).report = e.report) :
    Sole (modRunning s c q f) c q op (f e) := by
  obtain ⟨hrun, hsole⟩ := h
  obtain ⟨-, heq, heop, hedisp, hest, herep⟩ := running_spec hrun
  have hfilter : (getCtx (modRunning s c q f) c).entries.filter (fun y => y.cseq = q) = [f e] := by
    rw [modRunning, getCtx_modCtx]
    refine (filter_updFirst (fun x hx => ?_) (fun x => ?_) _).trans ?_
    · simp only [Bool.and_eq_true, decide_eq_true_eq] at hx ⊢
      exact hx.1.1
    · rw [hcseq]
    · rw [hsole]
      simp [updFirst, heq, hedisp, hest]
  refine ⟨?_, hfilter⟩
  rw [running_filter, hfilter]
  simp [hop, hdisp, hst, hrep, heop, hedisp, hest, herep]

theorem reported_of_sole {s : State} {c q op : Nat} {e : Entry} (h : Sole s c q op e) (st r : Nat) : Reported (report s c q st r) c q st r := by
  obtain ⟨-, hcseq, -, -, -, hnone⟩ := running_spec h.1
  exact ⟨_, modRunning_entry h _, hcseq, by rw [hnone]; rfl⟩

/-- A charge whose transition ends reports module time, or 0 with a status, and a state that is reached sets AUTO_IDLE. -/
theorem endPowerSet_running {s : State} {c q : Nat} {e : Entry} (status : Nat) (hcharge : s.power.charge = some (c, q))
    (hrun : running s c q 0x600 = some e) : endPowerSet s status = report { s with power := { s.power with
      target := none, charge := none, autoIdle := if status = 0 then bitOf (pw e 0) 2 else s.power.autoIdle } } c q status
        (if status = 0 then s.time else 0) := by
  simp [endPowerSet, hcharge, hrun]

/-! ## Work of the links that spares contexts, cores, memory and power -/

structure SparesPower (s t : State) : Prop extends SparesBoard s t where
  power : t.power = s.power

theorem SparesPower.refl (s : State) : SparesPower s s := ⟨.refl s, rfl⟩

theorem SparesPower.trans {s t u : State} (h : SparesPower s t) (k : SparesPower t u) : SparesPower s u :=
  ⟨h.toSparesBoard.trans k.toSparesBoard, k.power.trans h.power⟩

theorem power_takeCredits (s : State) (p : Nat) : (takeCredits s p).1.power = s.power := by
  unfold takeCredits
  split <;> rfl

theorem sparesPower_sendFragment (s : State) (n : Nat) (body : List Byte) : SparesPower s (sendFragment s n body) where
  toSparesBoard := (sparesLinks_sendFragment s n body).toSparesBoard
  power := by
    unfold sendFragment
    dsimp only
    split
    · exact power_takeCredits s (portOf n)
    · rfl

theorem sparesPower_sendControl (s : State) (n mtype reason : Nat) (body : List Byte) : SparesPower s (sendControl s n mtype reason body) :=
  foldl_keeps (fun _ _ h => h.trans (sparesPower_sendFragment _ _ _)) _
    ⟨sparesBoard_setLink s n _, rfl⟩

theorem sparesPower_sendIntent (s : State) (p : Nat) (b : Bool) : SparesPower s (sendIntent s p b) :=
  foldl_keeps (fun _ _ h => h.trans (sparesPower_sendControl _ _ _ _ _)) _
    ⟨(sparesLinks_modLPort s p _).toSparesBoard, rfl⟩

theorem sparesPower_sendIntents (s : State) (b : Bool) (ps : List Nat) : SparesPower s (ps.foldl (fun s p => sendIntent s p b) s) :=
  foldl_keeps (fun _ _ h => h.trans (sparesPower_sendIntent _ _ b)) ps (.refl s)

/-- The power of a port's work is that before it. -/
theorem power_placeFrame (s : State) (p n bseq : Nat) (shots : List Shot) : (placeFrame s p n bseq shots).power = s.power := by
  unfold placeFrame sendFrame
  dsimp only
  refine (power_takeCredits _ (portOf n)).trans ?_
  rw [(recorded_phaseAdd _ 1 shots.length).eq]
  rfl

theorem power_pumpPort (s : State) (p fuel : Nat) : (pumpPort s p fuel).power = s.power := by
  induction fuel generalizing s with
  | zero => rfl
  | succ fuel ih =>
    unfold pumpPort
    split
    · rfl
    · split
      · exact (ih _).trans (power_placeFrame _ p _ _ _)
      · dsimp only
        split
        · rfl
        · exact (ih _).trans (power_placeFrame _ p _ _ _)

/-- The port sends what waits: power, contexts, cores and memory stay, and no link changes its state. -/
structure PumpWork (s t : State) : Prop extends SparesPower s t where
  link : ∀ n, (getLink t n).st = (getLink s n).st

theorem PumpWork.refl (s : State) : PumpWork s s := ⟨.refl s, fun _ => rfl⟩

theorem PumpWork.trans {s t u : State} (h : PumpWork s t) (k : PumpWork t u) : PumpWork s u :=
  ⟨h.toSparesPower.trans k.toSparesPower, fun n => (k.link n).trans (h.link n)⟩

theorem Carried.st {l l' : Link} (h : Carried l l') : l'.st = l.st := by
  rcases h with rfl | ⟨-, x, k, rfl⟩ <;> rfl

theorem pumpWork_pumpOut (s : State) (p : Nat) : PumpWork s (pumpOut s p) :=
  have h := portWork_pumpOut s p
  ⟨⟨h.toSparesBoard, power_pumpPort s p _⟩, fun n => (h.carried n List.not_mem_nil).st⟩

theorem pumpWork_all (s : State) (ps : List Nat) : PumpWork s (ps.foldl pumpOut s) :=
  foldl_keeps (fun _ p h => h.trans (pumpWork_pumpOut _ p)) ps (.refl s)

/-! ## Intents (R410) -/

theorem intentOut_modLPort (s : State) (p k : Nat) {f : LPort → LPort} (hf : ∀ x, (f x).intentOut = x.intentOut) :
    (getLPort (modLPort s p f) k).intentOut = (getLPort s k).intentOut := by
  by_cases h : k = p
  · subst h
    rw [modLPort, getLPort_setLPort, hf]
  · rw [modLPort, getLPort_setLPort_ne s h]

theorem intentOut_takeCredits (s : State) (p k : Nat) : (getLPort (takeCredits s p).1 k).intentOut = (getLPort s k).intentOut := by
  unfold takeCredits
  split
  · rfl
  · exact intentOut_modLPort s p k fun _ => rfl

theorem intentOut_sendFragment (s : State) (n : Nat) (body : List Byte) (k : Nat) :
    (getLPort (sendFragment s n body) k).intentOut = (getLPort s k).intentOut := by
  unfold sendFragment
  dsimp only
  split
  · exact intentOut_takeCredits s (portOf n) k
  · rfl

theorem intentOut_sendControl (s : State) (n mtype reason : Nat) (body : List Byte) (k : Nat) :
    (getLPort (sendControl s n mtype reason body) k).intentOut = (getLPort s k).intentOut :=
  foldl_keeps (P := fun t => (getLPort t k).intentOut = (getLPort s k).intentOut) (fun _ _ h => (intentOut_sendFragment _ _ _ k).trans h) _ rfl

/-- Sending an intent or its withdrawal notes it on that port. -/
theorem intentOut_sendIntent (s : State) (p : Nat) (b : Bool) (k : Nat) :
    (getLPort (sendIntent s p b) k).intentOut = if k = p then b else (getLPort s k).intentOut := by
  refine foldl_keeps (P := fun t => (getLPort t k).intentOut = _) (fun _ _ h => (intentOut_sendControl _ _ _ _ _ k).trans h) _ ?_
  split
  case isTrue h => rw [h, modLPort, getLPort_setLPort]
  case isFalse h => rw [modLPort, getLPort_setLPort_ne s h]

theorem intentOut_sendIntents (s : State) (b : Bool) (ps : List Nat) (k : Nat) :
    (getLPort (ps.foldl (fun s p => sendIntent s p b) s) k).intentOut = if k ∈ ps then b else (getLPort s k).intentOut := by
  induction ps generalizing s with
  | nil => simp
  | cons p r ih =>
    rw [List.foldl_cons, ih, intentOut_sendIntent]
    by_cases hr : k ∈ r <;> by_cases hp : k = p <;> simp [hr, hp]

/-! ## Links and cores on the ways into and out of DRAWN (R39, R268) -/

theorem getLink_swapLinks (s : State) {a : LinkSt} (b : LinkSt) (ha : a ≠ .dark) (n : Nat) :
    getLink (swapLinks s a b) n = if (getLink s n).st = a then { getLink s n with st := b } else getLink s n := by
  have hlinks : (swapLinks s a b).links = s.links.map (fun e => (e.1, if e.2.st = a then { e.2 with st := b } else e.2)) :=
    List.map_congr_left fun e _ => by split <;> rfl
  rw [getLink, hlinks]
  exact tget_map {} (fun x : Link => if x.st = a then { x with st := b } else x) (if_neg fun h => ha h.symm) s.links n

theorem st_swapLinks {s : State} {a b : LinkSt} (ha : a ≠ .dark) {n : Nat} (h : (getLink s n).st = a) : (getLink (swapLinks s a b) n).st = b := by
  rw [getLink_swapLinks s b ha, if_pos h]

/-- FABRIC and TAP close on entry to DRAWN (R429). -/
theorem scopes_enterDrawn (s : State) : bitOf (enterDrawn s).sec.scopes 0 = false ∧ bitOf (enterDrawn s).sec.scopes 2 = false := by
  have hleft : (enterDrawn s).sec.scopes = if bitOf s.sec.scopes 1 then 2 else 0 := by
    change (List.range 3).foldl (fun a i => a + if bitOf s.sec.scopes i && !bitOf 5 i then 2 ^ i else 0) 0 = _
    have hmask : bitOf 5 0 = true ∧ bitOf 5 1 = false ∧ bitOf 5 2 = true := by decide
    simp [List.range_succ, hmask]
  rw [hleft]
  split <;> decide

/-- What leaving DRAWN leaves before the ports send what waits. -/
def wokenState (s : State) (to_ : PwrSt) : State :=
  let s := clearIntents (swapLinks s .keepalive .active)
  let s := { s with power := { s.power with st := to_, threshold := 660 } }
  if s.power.lowDrawn then
    { s with cores := s.cores.map (fun e => (e.1, renewCore e.2)), power := { s.power with railLow := false, lowDrawn := false } }
  else s

/-- What leaving DRAWN does to a core (R39): a rail that was low in it renews the stores. -/
theorem getCore_wokenState (s : State) (to_ : PwrSt) (hlow : s.power.lowDrawn = true) (l : Nat) :
    getCore (wokenState s to_) l = renewCore (getCore s l) := by
  have hcores : (wokenState s to_).cores = s.cores.map fun e => (e.1, renewCore e.2) := by
    unfold wokenState
    exact (congrArg State.cores (if_pos hlow) :)
  rw [getCore, hcores]
  exact tget_map {} renewCore rfl s.cores l

theorem wokenState_ctxs (s : State) (to_ : PwrSt) : (wokenState s to_).ctxs = s.ctxs := by unfold wokenState; dsimp only; split <;> rfl

theorem wokenState_links (s : State) (to_ : PwrSt) : (wokenState s to_).links = (swapLinks s .keepalive .active).links := by
  unfold wokenState; dsimp only; split <;> rfl

theorem wokenState_cores (s : State) (to_ : PwrSt) (h : s.power.lowDrawn = false) : (wokenState s to_).cores = s.cores := by
  unfold wokenState
  have hnot : ¬s.power.lowDrawn = true := by simp [h]
  exact (congrArg State.cores (if_neg hnot) :)

theorem wokenState_power (s : State) (to_ : PwrSt) : (wokenState s to_).power.st = to_ ∧ (wokenState s to_).power.threshold = 660
    ∧ (wokenState s to_).power.charge = s.power.charge ∧ (s.power.lowDrawn = true → (wokenState s to_).power.railLow = false) := by
  unfold wokenState
  dsimp only
  split
  · exact ⟨rfl, rfl, rfl, fun _ => rfl⟩
  case isFalse h => exact ⟨rfl, rfl, rfl, fun hlow => absurd hlow h⟩

theorem spine_time (s : State) : (spine s).time = s.time := rfl

theorem spine_mem (s : State) : (spine s).mem = s.mem := rfl

theorem pumpWork_leaveDrawn (s : State) (to_ : PwrSt) : PumpWork (wokenState s to_) (leaveDrawn s to_) := pumpWork_all _ _

/-! ## Transitions (R408 to R410) -/

theorem running_congr {s t : State} (h : t.ctxs = s.ctxs) (c q op : Nat) : running t c q op = running s c q op := by
  simp only [running, getCtx, h]

/-- A transition that has reached its state from a state with these contexts, time and charge. -/
theorem endPowerSet_reaches {s u : State} {c q : Nat} {e : Entry} (hrun : running s c q 0x600 = some e) (hctxs : u.ctxs = s.ctxs)
    (htime : u.time = s.time) (hcharge : u.power.charge = some (c, q)) : endPowerSet u 0 = report { u with power := { u.power with
      target := none, charge := none, autoIdle := bitOf (pw e 0) 2 } } c q 0 s.time := by
  rw [endPowerSet_running 0 hcharge ((running_congr hctxs c q 0x600).trans hrun), if_pos rfl, if_pos rfl, htime]

/-- What the end of a transition leaves of the state `u` that it reached: `s` is the state in which the command came. -/
structure TransitionEnded (s u t : State) (c q : Nat) (e : Entry) : Prop where
  reports : Reports s t c q 0 s.time
  power : t.power = { u.power with target := none, charge := none, autoIdle := bitOf (pw e 0) 2 }
  frame : { t with power := u.power, ctxs := u.ctxs } = u

theorem endPowerSet_ended {s u : State} {c q : Nat} {e : Entry} (hrun : running s c q 0x600 = some e) (hctxs : u.ctxs = s.ctxs)
    (htime : u.time = s.time) (hcharge : u.power.charge = some (c, q)) : TransitionEnded s u (endPowerSet u 0) c q e := by
  rw [endPowerSet_reaches hrun hctxs htime hcharge]
  exact ⟨report_ctxs hctxs c q 0 s.time, rfl, rfl⟩

theorem TransitionEnded.links {s u t : State} {c q : Nat} {e : Entry} (h : TransitionEnded s u t c q e) : t.links = u.links :=
  (congrArg State.links h.frame :)

theorem TransitionEnded.cores {s u t : State} {c q : Nat} {e : Entry} (h : TransitionEnded s u t c q e) : t.cores = u.cores :=
  (congrArg State.cores h.frame :)

theorem TransitionEnded.sec {s u t : State} {c q : Nat} {e : Entry} (h : TransitionEnded s u t c q e) : t.sec = u.sec :=
  (congrArg State.sec h.frame :)

theorem TransitionEnded.mem {s u t : State} {c q : Nat} {e : Entry} (h : TransitionEnded s u t c q e) : t.mem = u.mem :=
  (congrArg State.mem h.frame :)

/-- The state in which a POWER_STATE_SET has been accepted (R416). -/
def powerSetAccepted (s : State) (c q : Nat) (e : Entry) : State :=
  modRunning { s with power := { s.power with target := some (pwrOf (fld (pw e 0) 1 0)), charge := some (c, q)
                                              drawMs := if fld (pw e 0) 31 16 = 0 then 1000 else fld (pw e 0) 31 16 } } c q
    (fun e => { e with phase := 1 })

theorem exec_powerStateSet {s : State} {c q : Nat} {e : Entry} (hsole : Sole s c q 0x600 e) (hphase : e.phase = 0) :
    exec (.powerStateSet c q) s = .next (
      if !(fld (pw e 0) 1 0 ≠ 3 && fld (pw e 0) 15 3 = 0 && fld (pw e 0) 63 32 = 0 && tailZero e 8) then report s c q Status.fieldReserved 0
      else if s.power.target.isSome then report s c q Status.powerStateBusy 0
      else if s.power.st = pwrOf (fld (pw e 0) 1 0) then endPowerSet (powerSetAccepted s c q e) 0
      else sendIntents (powerSetAccepted s c q e)) :=
  congrArg Host.Outcome.next ((onCharge_running _ hsole.1).trans (if_neg (not_not_intro hphase)))

theorem sole_powerSetAccepted {s : State} {c q : Nat} {e : Entry} (h : Sole s c q 0x600 e) :
    Sole (powerSetAccepted s c q e) c q 0x600 { e with phase := 1 } :=
  sole_modRunning (s := { s with power := _ }) h (fun _ => rfl) rfl rfl rfl rfl

theorem sendIntents_spares (s : State) : SparesBoard s (sendIntents s) ∧ ∃ b, (sendIntents s).power = { s.power with intent := b } := by
  unfold sendIntents
  split
  · have h := sparesPower_sendIntents { s with power := { s.power with intent := true } } true
      ((intentPorts s).filter fun p => !(getLPort s p).intentOut)
    obtain ⟨⟨hctxs, hcores, hmem, hmap⟩, hpower⟩ := h
    exact ⟨⟨hctxs, hcores, hmem, hmap⟩, true, hpower⟩
  · exact ⟨.refl s, s.power.intent, rfl⟩

/-- R409, R416: what POWER_STATE_SET does when it starts. -/
theorem powerStateSet_starts {s : State} {c q : Nat} {e : Entry} (hsole : Sole s c q 0x600 e) (hphase : e.phase = 0) :
    let w := pw e 0
    let fine : Prop := fld w 1 0 ≠ 3 ∧ fld w 15 3 = 0 ∧ fld w 63 32 = 0 ∧ tailZero e 8 = true
    (¬ fine → exec (.powerStateSet c q) s = .next (report s c q Status.fieldReserved 0))
      ∧ (fine → s.power.target.isSome = true → exec (.powerStateSet c q) s = .next (report s c q Status.powerStateBusy 0))
      ∧ (fine → s.power.target = none → s.power.st = pwrOf (fld w 1 0) → ∃ t, exec (.powerStateSet c q) s = .next t
          ∧ Reported t c q 0 s.time ∧ t.power.target = none ∧ t.power.autoIdle = bitOf w 2 ∧ t.power.st = s.power.st ∧ t.mem = s.mem)
      ∧ (fine → s.power.target = none → s.power.st ≠ pwrOf (fld w 1 0) → ∃ t, exec (.powerStateSet c q) s = .next t
          ∧ t.power.target = some (pwrOf (fld w 1 0)) ∧ t.power.charge = some (c, q) ∧ t.power.st = s.power.st
          ∧ t.power.drawMs = (if fld w 31 16 = 0 then 1000 else fld w 31 16) ∧ { e with phase := 1 } ∈ (getCtx t c).entries ∧ t.mem = s.mem
          ∧ t.cores = s.cores) := by
  intro w fine
  have hexec := exec_powerStateSet hsole hphase
  have hcheck : (!(fld w 1 0 ≠ 3 && fld w 15 3 = 0 && fld w 63 32 = 0 && tailZero e 8)) = true ↔ ¬fine := by simp [fine]; tauto
  have hidle : s.power.target = none → ¬s.power.target.isSome = true := fun h => by simp [h]
  refine ⟨fun hbad => ?_, fun hfine hbusy => ?_, fun hfine hfree hst => ?_, fun hfine hfree hst => ?_⟩
  · exact hexec.trans (congrArg _ (if_pos (hcheck.2 hbad)))
  · exact hexec.trans (congrArg _ ((if_neg fun h => hcheck.1 h hfine).trans (if_pos hbusy)))
  · have hsole' := sole_powerSetAccepted hsole
    have hend := endPowerSet_reaches (u := powerSetAccepted s c q e) hsole'.1 rfl rfl rfl
    refine ⟨_, hexec.trans (congrArg _ ((if_neg fun h => hcheck.1 h hfine).trans ((if_neg (hidle hfree)).trans ((if_pos hst).trans hend)))),
      ?_, rfl, rfl, rfl, rfl⟩
    exact reported_of_sole (s := { powerSetAccepted s c q e with power := _ }) hsole' 0 s.time
  · obtain ⟨hboard, b, hpower⟩ := sendIntents_spares (powerSetAccepted s c q e)
    refine ⟨_, hexec.trans (congrArg _ ((if_neg fun h => hcheck.1 h hfine).trans ((if_neg (hidle hfree)).trans (if_neg hst)))), ?_, ?_, ?_, ?_, ?_,
      hboard.mem, hboard.cores⟩
    · rw [hpower]; rfl
    · rw [hpower]; rfl
    · rw [hpower]; rfl
    · rw [hpower]; rfl
    · rw [getCtx, hboard.ctxs]
      exact modRunning_entry (s := { s with power := _ }) hsole fun e => { e with phase := 1 }

section
variable {s : State} {c q : Nat} {e : Entry} (hsole : Sole s c q 0x600 e) (hcharge : s.power.charge = some (c, q))
  (hoff : s.boot.off = false) (hon : s.boot.shutdown = false) (hwake : s.power.wake = false)

include hoff hon hwake in
theorem exec_powerTransitionComplete {to_ : PwrSt} (htarget : s.power.target = some to_) :
    exec .powerTransitionComplete s = .next (reachTarget s to_) := by
  change execPowerTransitionComplete s = _
  simp [execPowerTransitionComplete, hoff, hon, hwake, htarget]

include hsole hcharge hoff hon hwake

/-- R408: from IDLE_LIT the module is ACTIVE at once. -/
theorem transition_toActive (htarget : s.power.target = some .active) (hst : s.power.st = .idleLit) :
    ∃ t, exec .powerTransitionComplete s = .next t ∧ Reports s t c q 0 s.time ∧ t.power.st = .active ∧ t.power.target = none
      ∧ t.power.autoIdle = bitOf (pw e 0) 2 ∧ { t with power := s.power, ctxs := s.ctxs } = s := by
  have hend := endPowerSet_reaches (u := { s with power := { s.power with st := .active, wake := false } }) hsole.1 rfl rfl hcharge
  have hreach : reachTarget s .active = endPowerSet { s with power := { s.power with st := .active, wake := false } } 0 := by
    simp [reachTarget, hst]
  exact ⟨_, (exec_powerTransitionComplete hoff hon hwake htarget).trans (congrArg _ (hreach.trans hend)),
    report_ctxs rfl c q 0 s.time, rfl, rfl, rfl, rfl⟩

/-- R409: from ACTIVE the module is IDLE_LIT once it is quiescent. -/
theorem transition_toIdleLit (htarget : s.power.target = some .idleLit) (hst : s.power.st = .active) :
    if quiescent s then ∃ t, exec .powerTransitionComplete s = .next t ∧ Reports s t c q 0 s.time
      ∧ t.power.st = .idleLit ∧ t.power.target = none ∧ { t with power := s.power, ctxs := s.ctxs } = s
    else exec .powerTransitionComplete s = .next s := by
  have hexec := exec_powerTransitionComplete hoff hon hwake htarget
  have hreach : reachTarget s .idleLit = if quiescent s then endPowerSet { s with power := { s.power with st := .idleLit } } 0 else s := by
    simp [reachTarget, hst]
  have hend := endPowerSet_reaches (u := { s with power := { s.power with st := .idleLit } }) hsole.1 rfl rfl hcharge
  split
  case isTrue hq =>
    exact ⟨_, hexec.trans (congrArg _ (hreach.trans ((if_pos hq).trans hend))), report_ctxs rfl c q 0 s.time, rfl, rfl, rfl⟩
  case isFalse hq => exact hexec.trans (congrArg _ (hreach.trans (if_neg hq)))

/-- R39, R268, R410: with every intent met the module enters DRAWN. -/
theorem transition_toDrawn (htarget : s.power.target = some .drawn) (hst : s.power.st ≠ .drawn) (hready : drawReady s = true)
    (hintent : s.power.intent = true) (hmet : intentsMet s = true) :
    ∃ t, exec .powerTransitionComplete s = .next t ∧ Reports s t c q 0 s.time ∧ t.power.st = .drawn ∧ t.power.threshold = 560
      ∧ (∀ n, (getLink s n).st = .active → (getLink t n).st = .keepalive) ∧ bitOf t.sec.scopes 0 = false ∧ bitOf t.sec.scopes 2 = false
      ∧ t.mem = s.mem := by
  have hreach : reachTarget s .drawn = endPowerSet (enterDrawn s) 0 := by simp [reachTarget, hst, hready, hintent, hmet]
  have hend : TransitionEnded s (enterDrawn s) (endPowerSet (enterDrawn s) 0) c q e := endPowerSet_ended hsole.1 rfl rfl hcharge
  obtain ⟨hfabric, htap⟩ := scopes_enterDrawn s
  refine ⟨_, (exec_powerTransitionComplete hoff hon hwake htarget).trans (congrArg _ hreach), hend.reports, congrArg Power.st hend.power,
    congrArg Power.threshold hend.power, fun n hn => ?_, ?_, ?_, hend.mem⟩
  · rw [getLink, hend.links]
    exact st_swapLinks (s := closeScopes s 5) (a := .active) (by decide) hn
  · rw [hend.sec, hfabric]
  · rw [hend.sec, htap]

/-- R39, R268: from DRAWN the module wakes, and what the retention may have lost is renewed. -/
theorem transition_fromDrawn {to_ : PwrSt} (hne : to_ ≠ .drawn) (htarget : s.power.target = some to_) (hst : s.power.st = .drawn) :
    ∃ t, exec .powerTransitionComplete s = .next t ∧ Reports s t c q 0 s.time ∧ t.power.st = to_ ∧ t.power.target = none
      ∧ t.power.threshold = 660 ∧ (∀ n, (getLink s n).st = .keepalive → (getLink t n).st = .active) ∧ t.mem = s.mem
      ∧ (s.power.lowDrawn = false → t.cores = s.cores)
      ∧ (s.power.lowDrawn = true → t.power.railLow = false
          ∧ ∀ l, (getCore t l).scratch = [] ∧ (getCore t l).acc = [] ∧ (getCore t l).risers = []
              ∧ (getCore t l).instr = (getCore s l).imgInstr ∧ (getCore t l).tables = (getCore s l).imgTables) := by
  have hreach : reachTarget s to_ = endPowerSet (leaveDrawn s to_) 0 := by
    cases to_ with
    | active => simp [reachTarget, hst]
    | idleLit => simp [reachTarget, hst]
    | drawn => exact absurd rfl hne
  obtain ⟨⟨⟨hctxs, hcores, -, -⟩, hpower⟩, hlink⟩ := pumpWork_leaveDrawn s to_
  obtain ⟨hto, hthreshold, hkept, hrail⟩ := wokenState_power s to_
  have hctxs' : (leaveDrawn s to_).ctxs = s.ctxs := hctxs.trans (wokenState_ctxs s to_)
  have hend := endPowerSet_ended hsole.1 hctxs' (by rw [← spine_time, spine_leaveDrawn, spine_time]) (by rw [hpower, hkept, hcharge])
  have hcore : ∀ l, getCore (endPowerSet (leaveDrawn s to_) 0) l = getCore (wokenState s to_) l := fun l => by
    rw [getCore, hend.cores, hcores]
    rfl
  refine ⟨_, (exec_powerTransitionComplete hoff hon hwake htarget).trans (congrArg _ hreach), hend.reports, ?_,
    congrArg Power.target hend.power, ?_, fun n hn => ?_, hend.mem.trans (by rw [← spine_mem, spine_leaveDrawn, spine_mem]), fun hlow => ?_,
    fun hlow => ⟨?_, fun l => ?_⟩⟩
  · rw [hend.power, hpower, hto]
  · rw [hend.power, hpower, hthreshold]
  · rw [getLink, hend.links]
    refine (hlink n).trans ?_
    rw [getLink, wokenState_links]
    exact st_swapLinks (by decide) hn
  · rw [hend.cores, hcores, wokenState_cores s to_ hlow]
  · rw [hend.power, hpower, hrail hlow]
  · rw [hcore, getCore_wokenState s to_ hlow]
    exact ⟨rfl, rfl, rfl, rfl, rfl⟩

end

/-- R410: a draw whose conditions are not met in time is withdrawn. -/
theorem powerDrawTimeout_withdraws {s : State} {c q : Nat} {e : Entry} (hsole : Sole s c q 0x600 e) (hcharge : s.power.charge = some (c, q))
    (htarget : s.power.target = some .drawn) (hst : s.power.st ≠ .drawn) : ∃ t, exec .powerDrawTimeout s = .next t
      ∧ Reports s t c q Status.powerDrawTimeout 0 ∧ t.power.st = s.power.st ∧ t.power.target = none ∧ t.power.intent = false
      ∧ (∀ p < 8, (getLPort t p).intentOut = false) ∧ t.mem = s.mem ∧ t.cores = s.cores := by
  generalize hps : (List.range 8).filter (fun p => (getLPort s p).intentOut) = ps
  obtain ⟨⟨hctxs, hcores, hmem, -⟩, hpower⟩ := sparesPower_sendIntents s false ps
  have hexec : exec .powerDrawTimeout s = .next (
      let t := ps.foldl (fun s p => sendIntent s p false) s
      endPowerSet { t with power := { t.power with intent := false } } Status.powerDrawTimeout) := by
    rw [← hps]
    exact congrArg Host.Outcome.next (if_pos ⟨htarget, hst⟩)
  have hrun := (running_congr hctxs c q 0x600).trans hsole.1
  have hport : ∀ p < 8, (getLPort (ps.foldl (fun s p => sendIntent s p false) s) p).intentOut = false := fun p hp => by
    rw [intentOut_sendIntents]
    split
    · rfl
    case isFalse hout =>
      rw [← hps, List.mem_filter, List.mem_range] at hout
      exact Bool.eq_false_iff.2 fun h => hout ⟨hp, h⟩
  generalize ps.foldl (fun s p => sendIntent s p false) s = u at *
  have hend := endPowerSet_running (s := { u with power := { u.power with intent := false } }) Status.powerDrawTimeout
    (by rw [hpower]; exact hcharge) hrun
  refine ⟨_, hexec.trans (congrArg _ hend), report_ctxs hctxs c q _ 0, ?_, rfl, rfl, hport, hmem, hcores⟩
  exact (congrArg Power.st hpower :)

/-- R409: a wake ends. -/
theorem wake_ends {s : State} (hwake : s.power.wake = true) (hst : s.power.st = .idleLit) (htarget : s.power.target = none)
    (hoff : s.boot.off = false) (hon : s.boot.shutdown = false) :
    exec .powerTransitionComplete s = .next { s with power := { s.power with st := .active, wake := false } } := by
  change execPowerTransitionComplete s = _
  simp [execPowerTransitionComplete, hoff, hon, hwake, hst, htarget]

/-! ## POWER_LIMIT_SET, LADLE_STATUS and AUTO_IDLE (R409, R413, R416) -/

/-- The watts granted do not depend on the contexts. -/
theorem grantedW_report (s : State) (c q st r : Nat) : grantedW (report s c q st r) = grantedW s := rfl

theorem exec_powerLimitSet {s : State} {c q : Nat} {e : Entry} (hsole : Sole s c q 0x601 e) (hres : fld (pw e 0) 63 19 = 0)
    (htail : tailZero e 8 = true) : exec (.powerLimitSet c q) s = .next (
      if 1000 ≤ fld (pw e 0) 15 0 ∧ fld (pw e 0) 15 0 ≤ 2200 ∧ fld (pw e 0) 18 16 ≤ 4 then
        let t := settleExcess (settleRail { s with power := { s.power with limitW := fld (pw e 0) 15 0, rail := fld (pw e 0) 18 16 } })
        report t c q 0 (grantedW t)
      else report s c q Status.powerLimitInvalid 0) := by
  refine congrArg Host.Outcome.next ((onCharge_running _ hsole.1).trans ?_)
  by_cases h : 1000 ≤ fld (pw e 0) 15 0 ∧ fld (pw e 0) 15 0 ≤ 2200 ∧ fld (pw e 0) 18 16 ≤ 4
  · simp [firstFail_cons, hres, htail, h]
  · have hbad : (1000 ≤ fld (pw e 0) 15 0 && fld (pw e 0) 15 0 ≤ 2200 && fld (pw e 0) 18 16 ≤ 4) = false := by
      simpa [and_assoc] using h
    simp only [firstFail_cons, hbad, hres, htail, if_neg h]
    simp [Status.powerLimitInvalid]

theorem powerLimitSet_sets {s : State} {c q : Nat} {e : Entry} (hsole : Sole s c q 0x601 e) (hres : fld (pw e 0) 63 19 = 0)
    (htail : tailZero e 8 = true) :
    let n := fld (pw e 0) 15 0
    let r := fld (pw e 0) 18 16
    if 1000 ≤ n ∧ n ≤ 2200 ∧ r ≤ 4 then ∃ t, exec (.powerLimitSet c q) s = .next t ∧ t.power.limitW = n ∧ t.power.rail = r
        ∧ Reports s t c q 0 (grantedW t) ∧ { t with power := s.power, cores := s.cores, ctxs := s.ctxs } = s
      else exec (.powerLimitSet c q) s = .next (report s c q Status.powerLimitInvalid 0) := by
  intro n r
  have hexec := exec_powerLimitSet hsole hres htail
  split
  case isTrue h =>
    obtain ⟨cores, applied, hrail⟩ := settleRail_shape { s with power := { s.power with limitW := n, rail := r } }
    rw [if_pos h, hrail] at hexec
    refine ⟨_, hexec, rfl, rfl, ?_, rfl⟩
    rw [grantedW_report]
    exact report_ctxs rfl c q 0 _
  case isFalse h => exact hexec.trans (congrArg _ (if_neg h))

/-- A report with its bytes in memory, nothing of which is lasting. -/
theorem putReport_writes {s : State} (c q a : Nat) (d : List Byte) (status result : Nat) (h : s.poison = []) :
    Reports s (putReport s c q a d status result) c q status result ∧ MemWritten s (putReport s c q a d status result) a d
      ∧ { putReport s c q a d status result with mem := s.mem, poison := s.poison, ctxs := s.ctxs } = s := by
  have hwrite : writeDev {} noSubject { s := s } a d = { s := { s with mem := writeB s.mem a d } } :=
    pieces_write noSubject _ { s := s } a d h (by omega)
  have hput : putReport s c q a d status result = report { s with mem := writeB s.mem a d } c q status result := by
    rw [putReport, hwrite]
  rw [hput]
  exact ⟨report_ctxs rfl c q status result,
    ⟨readB_writeB s.mem a d, fun i hi => readB_writeB_disjoint s.mem a i 1 d (hi.imp_left Nat.succ_le_of_lt)⟩, rfl⟩

theorem ladleStatus_writes {s : State} {c q : Nat} {e : Entry} (hsole : Sole s c q 0x602 e) (halign : pw e 0 % 64 = 0)
    (htail : tailZero e 8 = true) (hpoison : s.poison = []) :
    if inFast s (pw e 0) 768 then ∃ t, exec (.ladleStatus c q) s = .next t ∧ Reports s t c q 0 0 ∧ MemWritten s t (pw e 0) (ladleBytes s)
        ∧ { t with mem := s.mem, poison := s.poison, ctxs := s.ctxs } = s
      else exec (.ladleStatus c q) s = .next (report s c q Status.addressUnpopulated 0) := by
  have hexec : exec (.ladleStatus c q) s = .next (if inFast s (pw e 0) 768 then putReport s c q (pw e 0) (ladleBytes s) 0 0
      else report s c q Status.addressUnpopulated 0) := by
    refine congrArg Host.Outcome.next ((onCharge_running _ hsole.1).trans ?_)
    cases h : inFast s (pw e 0) 768 <;> simp [firstFail_cons, halign, htail, h, Status.addressUnpopulated]
  split
  case isTrue h => exact ⟨_, hexec.trans (congrArg _ (if_pos h)), putReport_writes c q (pw e 0) (ladleBytes s) 0 0 hpoison⟩
  case isFalse h => exact hexec.trans (congrArg _ (if_neg h))

theorem exec_autoIdle (s : State) : exec .autoIdle s = .next (if s.power.st = .active ∧ s.power.autoIdle = true ∧ quiescent s = true
    then { s with power := { s.power with st := .idleLit } } else s) := by
  change execAutoIdle s = _
  simp only [execAutoIdle, Bool.and_eq_true, decide_eq_true_eq, and_assoc]

end Sys2Proof.Machine

open Sys2Proof Sys2Proof.Machine

/-- Settles O51: a rule for each command of the power states and each charge of the governor. -/
theorem powerChargesMoveTheModule : Obligations.PowerChargesMoveTheModule := by
  intro s c q e
  exact ⟨powerStateSet_starts,
    fun hsole hcharge hoff hon hwake => ⟨transition_toActive hsole hcharge hoff hon hwake, transition_toIdleLit hsole hcharge hoff hon hwake,
      transition_toDrawn hsole hcharge hoff hon hwake, fun _ => transition_fromDrawn hsole hcharge hoff hon hwake,
      powerDrawTimeout_withdraws hsole hcharge⟩,
    wake_ends, powerLimitSet_sets, ladleStatus_writes, exec_autoIdle s⟩

end

section
/-! Completion records and the vectors that follow them (R49, R76 to R78). -/

namespace Sys2Proof.Machine

open Sys2Proof.Claims

/-! ## Vectors (R49, R54, R78) -/

/-- The MSI-X table of a port masks a vector. -/
def vectorMasked (s : State) (p : HostPort) (v : Nat) : Bool := (msixByte (getPort s p) (16 * v + 12)).toNat % 2 = 1

theorem raiseMsix_sends {s : State} {p : HostPort} {v : Nat} (hmaster : canMaster s p = true) (hopen : vectorMasked s p v = false) :
    raiseMsix s p v = emit s (.msix p v) := by
  have h : ¬(msixByte (getPort s p) (16 * v + 12)).toNat % 2 = 1 := of_decide_eq_false hopen
  rw [raiseMsix, hmaster, if_neg (by decide), if_neg h]

theorem raiseMsix_pends {s : State} {p : HostPort} {v : Nat} (hmaster : canMaster s p = true) (hmasked : vectorMasked s p v = true) :
    raiseMsix s p v = setPort s p { getPort s p with pba := insNat (getPort s p).pba v } := by
  have h : (msixByte (getPort s p) (16 * v + 12)).toNat % 2 = 1 := of_decide_eq_true hmasked
  rw [raiseMsix, hmaster, if_neg (by decide), if_pos h]

@[simp] theorem raiseMsix_ctxs (s : State) (p : HostPort) (v : Nat) : (raiseMsix s p v).ctxs = s.ctxs := by
  unfold raiseMsix
  split
  · rfl
  · split
    · exact setPort_ctxs s p _
    · rfl

/-- Raising a vector sends its message or nothing. -/
theorem raiseMsix_out (s : State) (p : HostPort) (v : Nat) : (raiseMsix s p v).out = s.out ∨ (raiseMsix s p v).out = .msix p v :: s.out := by
  unfold raiseMsix
  split
  · exact .inl rfl
  · split
    · exact .inl (setPort_out s p _)
    · exact .inr rfl

/-! ## Records (R76, R78) -/

/-- The write that brings a record to the next slot of its context's ring (R76). -/
def recordWrite (s : State) (c : Nat) (r : Rec) : Output :=
  let x := getCtx s c
  .hostWrite x.owner (x.ringBase + 32 * (x.written % 2 ^ x.ringLog2)) (recBytes c r (lapPhase x.written x.ringLog2))

/-- The state after a record is written, before its vector is raised. -/
def recordPut (s : State) (c : Nat) (r : Rec) : State :=
  bump (setCtx (emit s (recordWrite s c r)) c { getCtx s c with written := ((getCtx s c).written + 1) % 2 ^ 64 }) 0 4 1

/-- A record raises the vector of its context (R78). -/
def vectorDue (x : Ctx) (r : Rec) : Bool := x.msixEn && (r.notify || severity r.status = 2)

theorem writeRec_eq (s : State) (c : Nat) (r : Rec) : writeRec s c r = if vectorDue (getCtx s c) r
    then raiseMsix (recordPut s c r) (getCtx s c).owner (getCtx s c).msixVec else recordPut s c r := rfl

theorem writeRec_due {s : State} {c : Nat} {r : Rec} (h : vectorDue (getCtx s c) r = true) :
    writeRec s c r = raiseMsix (recordPut s c r) (getCtx s c).owner (getCtx s c).msixVec := (writeRec_eq s c r).trans (if_pos h)

theorem writeRec_silent {s : State} {c : Nat} {r : Rec} (h : vectorDue (getCtx s c) r = false) : writeRec s c r = recordPut s c r :=
  (writeRec_eq s c r).trans (if_neg (Bool.not_eq_true _ ▸ h))

theorem recordPut_out (s : State) (c : Nat) (r : Rec) : (recordPut s c r).out = recordWrite s c r :: s.out := rfl

theorem getPort_recordPut (s : State) (c : Nat) (r : Rec) (p : HostPort) : getPort (recordPut s c r) p = getPort s p := by cases p <;> rfl

theorem canMaster_recordPut (s : State) (c : Nat) (r : Rec) (p : HostPort) : canMaster (recordPut s c r) p = canMaster s p := by
  simp only [canMaster, getPort_recordPut]

theorem vectorMasked_recordPut (s : State) (c : Nat) (r : Rec) (p : HostPort) (v : Nat) :
    vectorMasked (recordPut s c r) p v = vectorMasked s p v := by simp only [vectorMasked, getPort_recordPut]

theorem getCtx_writeRec (s : State) (c : Nat) (r : Rec) :
    getCtx (writeRec s c r) c = { getCtx s c with written := ((getCtx s c).written + 1) % 2 ^ 64 } := by
  have hctxs : (writeRec s c r).ctxs = (recordPut s c r).ctxs := by
    rw [writeRec_eq]
    split
    · exact raiseMsix_ctxs _ _ _
    · rfl
  rw [getCtx, hctxs]
  exact getCtx_setCtx _ c _

/-- After a record comes at most the message of its context's vector, where the vector is due. -/
theorem writeRec_out (s : State) (c : Nat) (r : Rec) : ∃ o, (writeRec s c r).out = o ++ recordWrite s c r :: s.out
    ∧ ∀ m ∈ o, m = .msix (getCtx s c).owner (getCtx s c).msixVec ∧ vectorDue (getCtx s c) r = true := by
  rw [writeRec_eq]
  split
  case isTrue hdue =>
    rcases raiseMsix_out (recordPut s c r) (getCtx s c).owner (getCtx s c).msixVec with h | h
    · exact ⟨[], h, fun m hm => absurd hm List.not_mem_nil⟩
    · exact ⟨[.msix (getCtx s c).owner (getCtx s c).msixVec], h, fun m hm => ⟨List.mem_singleton.1 hm, hdue⟩⟩
  case isFalse => exact ⟨[], rfl, fun m hm => absurd hm List.not_mem_nil⟩

end Sys2Proof.Machine

open Sys2Proof Sys2Proof.Machine

/-- Settles O56: the record is written, then its vector is raised, sent or left pending. -/
theorem theVectorFollowsTheRecord : Obligations.TheVectorFollowsTheRecord := by
  intro s c r x due masked w hmaster
  have hmaster' : canMaster (recordPut s c r) x.owner = true := (canMaster_recordPut s c r x.owner).trans hmaster
  have hmask : vectorMasked (recordPut s c r) x.owner x.msixVec = masked := vectorMasked_recordPut s c r x.owner x.msixVec
  refine ⟨fun hdue hopen => ?_, fun hdue hmasked => ?_, fun hdue => ?_⟩
  · rw [writeRec_due hdue, raiseMsix_sends hmaster' (hmask.trans hopen)]
    rfl
  · rw [writeRec_due hdue, raiseMsix_pends hmaster' (hmask.trans hmasked)]
    refine ⟨setPort_out _ _ _, ?_⟩
    rw [getPort_setPort]
    exact (mem_insNat _ _ _).2 (.inl rfl)
  · rw [writeRec_silent hdue, getPort_recordPut]
    exact ⟨rfl, rfl⟩

end

section
/-! BAR4 accesses and the window register (R54, R55, R58): the units that an access touches, and what it leaves. -/

namespace Sys2Proof.Machine

open Sys2Proof.Claims

/-! ## The units of a range -/

/-- The units of a range are the 64-byte units that it meets. -/
theorem mem_unitsOf {a n u : Nat} : u ∈ unitsOf a n ↔ n ≠ 0 ∧ u % 64 = 0 ∧ a < u + 64 ∧ u < a + n := by
  unfold unitsOf
  split
  case isTrue hn => simp [hn]
  case isFalse hn =>
    rw [List.mem_map]
    constructor
    · rintro ⟨i, hi, rfl⟩
      rw [List.mem_range] at hi
      omega
    · rintro ⟨-, hu, hlow, hhigh⟩
      refine ⟨u / 64 - a / 64, List.mem_range.2 ?_, ?_⟩ <;> omega

/-- A range has the units of each of its parts. -/
theorem unitsOf_part {a n k m u : Nat} (hk : k + m ≤ n) (hu : u ∈ unitsOf (a + k) m) : u ∈ unitsOf a n := by
  rw [mem_unitsOf] at hu ⊢
  omega

/-! ## Accesses that meet nothing lasting (R240 to R242) -/

/-- No unit of the range is poisoned. -/
def UnitsGood (s : State) (a n : Nat) : Prop := ∀ u ∈ unitsOf a n, s.poison.contains u = false

theorem readUnit_good {x : Acc} {u : Nat} (subj src : Nat) (h : x.s.poison.contains u = false) : readUnit {} subj src x u = x := by
  rw [readUnit, h]
  rfl

theorem readUnits_good {x : Acc} {us : List Nat} (subj : Nat) (h : ∀ u ∈ us, x.s.poison.contains u = false) : readUnits {} subj x us = x := by
  have hfold : ∀ l : List Nat, (∀ u ∈ l, x.s.poison.contains u = false) → l.foldl (readUnit {} subj 0) x = x := by
    intro l hl
    induction l with
    | nil => rfl
    | cons u r ih =>
      rw [List.foldl_cons, readUnit_good subj 0 (hl u List.mem_cons_self)]
      exact ih fun v hv => hl v (List.mem_cons_of_mem u hv)
  exact hfold us.dedup fun u hu => h u (List.mem_dedup.1 hu)

/-- A piece of a unit that is not poisoned stores its bytes, and leaves the rest of the state. -/
theorem writeUnit_good {x : Acc} {a : Nat} {d : List Byte} (subj : Nat) (h : x.s.poison.contains (a / 64 * 64) = false) :
    writeUnit {} subj x a d = { x with s := { x.s with mem := writeB x.s.mem a d } } := by
  have hfilter : x.s.poison.filter (· ≠ a / 64 * 64) = x.s.poison := by
    refine List.filter_eq_self.2 fun u hu => decide_eq_true fun he => ?_
    rw [he] at hu
    exact Bool.noConfusion (h.symm.trans (List.contains_iff_mem.2 hu))
  unfold writeUnit
  dsimp only
  split
  · rw [hfilter]
  · have hread : readUnit {} subj 0 { x with bad := [] } (a / 64 * 64) = { x with bad := [] } := readUnit_good subj 0 h
    rw [hread]
    exact if_pos rfl

theorem pieces_write_good (subj : Nat) (fuel : Nat) (x : Acc) (a : Nat) (d : List Byte) (hgood : UnitsGood x.s a d.length)
    (hfuel : d.length + a % 64 ≤ 64 * fuel) :
    (pieces 64 fuel a d).foldl (fun y p => writeUnit {} subj y p.1 p.2) x = { x with s := { x.s with mem := writeB x.s.mem a d } } := by
  induction fuel generalizing x a d with
  | zero =>
    have : d = [] := List.length_eq_zero_iff.mp (by omega)
    subst this; rfl
  | succ n ih =>
    unfold pieces
    by_cases hd : d = []
    · subst hd; rfl
    · have hlen : 0 < d.length := List.length_pos_iff.mpr hd
      have hfirst : x.s.poison.contains (a / 64 * 64) = false := hgood _ (mem_unitsOf.2 (by omega))
      rw [if_neg hd, List.foldl_cons, writeUnit_good subj hfirst]
      refine (ih _ _ _ ?_ ?_).trans ?_
      · intro u hu
        rw [mem_unitsOf, List.length_drop] at hu
        exact hgood u (mem_unitsOf.2 (by omega))
      · rw [List.length_drop]
        omega
      · by_cases hone : d.length ≤ 64 - a % 64
        · simp [List.drop_eq_nil_of_le hone, List.take_of_length_le hone, writeB]
        · have htake : (d.take (64 - a % 64)).length = 64 - a % 64 := by rw [List.length_take]; omega
          have hnext : a / 64 * 64 + 64 = a + (d.take (64 - a % 64)).length := by rw [htake]; omega
          simp only [hnext, writeB_append, List.take_append_drop]

/-- A write to units that are not poisoned stores exactly its bytes. -/
theorem writeDev_good {s : State} {a : Nat} {d : List Byte} (subj : Nat) (h : UnitsGood s a d.length) :
    writeDev {} subj { s := s } a d = { s := { s with mem := writeB s.mem a d } } := pieces_write_good subj _ { s := s } a d h (by omega)

/-! ## BAR4 (R58) -/

section
variable {s : State} {p : HostPort} {off a : Nat} (hhub : hubUp s = true) (hready : portReady s p = true) (haddr : bar4Addr s p off = a)
include hhub hready haddr

/-- A write that reaches memory goes there. -/
theorem exec_bar4Write_device {d : List Byte} (h : bar4Target s a d.length = .device) :
    exec (.bar4Write p off d {}) s = .next (writeDev {} noSubject { s := s } a d).s := by
  change execBar4Write p off d {} s = _
  unfold execBar4Write
  dsimp only
  rw [hhub, hready, haddr, h]
  rfl

theorem exec_bar4Write_nothing {d : List Byte} (h : bar4Target s a d.length = .nothing) :
    exec (.bar4Write p off d {}) s = .next (discard s p) := by
  change execBar4Write p off d {} s = _
  unfold execBar4Write
  dsimp only
  rw [hhub, hready, haddr, h]
  rfl

omit hhub haddr in
theorem linkUp_of_portReady : (getPort s p).linkUp = true := by
  simp only [portReady, Bool.and_eq_true] at hready
  exact hready.1.1

theorem exec_bar4Read_device {n : Nat} (h : bar4Target s a n = .device) :
    exec (.bar4Read p off n {}) s = .next (answerRead (readUnits {} noSubject { s := s } (unitsOf a n)) p a (memB s a n)) := by
  change execBar4Read p off n {} s = _
  unfold execBar4Read
  dsimp only
  rw [hhub, linkUp_of_portReady hready, hready, haddr, h]
  rfl

theorem exec_bar4Read_nothing {n : Nat} (h : bar4Target s a n = .nothing) : exec (.bar4Read p off n {}) s = .next (emit s (.readUnsupported p)) := by
  change execBar4Read p off n {} s = _
  unfold execBar4Read
  dsimp only
  rw [hhub, linkUp_of_portReady hready, hready, haddr, h]
  rfl

end

/-! ## PORT_WIN (R54, R55) -/

/-- Eight bytes at a word's own place take all of it. -/
theorem overlay_word (old base w : Nat) : overlay old base base (toLE 8 w) = w % 256 ^ 8 := by
  have hbytes : (List.range 8).map (fun i => if base ≤ base + i ∧ base + i < base + (toLE 8 w).length then (toLE 8 w).getD (base + i - base) 0
      else (toLE 8 old).getD i 0) = toLE 8 w := by
    refine List.ext_getElem (by simp [length_toLE]) fun i hi _ => ?_
    have hlt : i < 8 := by simpa using hi
    simp [length_toLE, hlt]
  rw [overlay, hbytes, leNat_toLE]

/-- A write of `PORT_WIN` names the window in bits [43:36]. -/
theorem fld_portWin (old : Nat) {v : Nat} (hv : v < 256) : fld (overlay old 0x20 0x20 (toLE 8 (v * 2 ^ 36))) 43 36 = v := by
  rw [overlay_word, fld, Nat.shiftRight_eq_div_pow]
  omega

/-- R55: a write of `PORT_WIN` moves the window, and sends what no mask holds back any more. -/
theorem exec_registerWrite_portWin {s : State} {p : HostPort} {v : Nat} (hhub : hubUp s = true) (hready : portReady s p = true) (hv : v < 256) :
    exec (.registerWrite p 0x20 (toLE 8 (v * 2 ^ 36))) s = .next (flushPba (setPort s p { getPort s p with winBase := v }) p) := by
  have hskip : ∀ (d : List Byte) (x : Port), (List.range 8).foldl (fun x i => if 0xC0000 ≤ 0x20 + i ∧ 0x20 + i < 0xC4000
      then msixPut x (0x20 + i - 0xC0000) (d.getD i 0) else x) x = x := by simp [List.range_succ]
  change execRegisterWrite p 0x20 (toLE 8 (v * 2 ^ 36)) s = _
  unfold execRegisterWrite
  dsimp only
  rw [hhub, hready, length_toLE, hskip, fld_portWin _ hv]
  rfl

end Sys2Proof.Machine

open Sys2Proof Sys2Proof.Machine

/-- Settles O27: the accesses of BAR4 by what the window reaches, and the write of `PORT_WIN`. -/
theorem bar4ReachesDeviceMemory : Obligations.Bar4ReachesDeviceMemory := by
  intro s p off a hhub hready hlt
  have haddr : bar4Addr s p off = a := Nat.mod_eq_of_lt hlt
  refine ⟨fun d hd htarget hgood => ⟨_, exec_bar4Write_device hhub hready haddr htarget, ?_⟩,
    fun d htarget => exec_bar4Write_nothing hhub hready haddr htarget, fun n htarget hgood => ?_,
    fun n htarget => exec_bar4Read_nothing hhub hready haddr htarget, fun v hv hpba => ?_⟩
  · rw [writeDev_good noSubject hgood]
    exact ⟨readB_writeB s.mem a d, fun i hi => readB_writeB_disjoint s.mem a i 1 d (hi.imp_left Nat.succ_le_of_lt), rfl⟩
  · rw [exec_bar4Read_device hhub hready haddr htarget, readUnits_good noSubject hgood]
    rfl
  · rw [exec_registerWrite_portWin hhub hready hv, flushPba_none (by rw [getPort_setPort]; exact hpba)]

end

section
/-! The charges that place items on the cores that they name (R67, R104 to R106, R483). -/

namespace Sys2Proof.Machine

open Sys2Proof.Claims

/-! ## Placing items (R104) -/

theorem nodup_namedCores (e : Entry) : (namedCores e).Nodup := by
  refine List.nodup_append'.2 ⟨nodup_bitsOf 64 _, (nodup_bitsOf 24 _).map fun a b h => Nat.add_right_cancel h, fun l hlow hhigh => ?_⟩
  obtain ⟨k, -, rfl⟩ := List.mem_map.1 hhigh
  have hlt : k + 64 < 64 := List.mem_range.1 (List.mem_filter.1 hlow).1
  omega

/-- An item that arrives stands behind all others of its core; queue and hub items alone differ, and the queue is filled up to four. -/
theorem giveItem_spec (x : Core) (i : Item) : { giveItem x i with queue := x.queue, hubItems := x.hubItems } = x
    ∧ (giveItem x i).queue ++ (giveItem x i).hubItems = x.queue ++ x.hubItems ++ [i]
    ∧ (x.queue.length ≤ 4 → (giveItem x i).queue.length = min 4 (x.queue.length + x.hubItems.length + 1)) := by
  refine ⟨rfl, ?_, fun hroom => ?_⟩
  · simp [giveItem, fillQueue]
  · simp only [giveItem, fillQueue, List.length_append, List.length_take, List.length_singleton]
    omega

/-- Items reach exactly the cores of the list. -/
theorem getCore_foldl_giveItem (item : Nat → Item) {ls : List Nat} (hnodup : ls.Nodup) (s : State) (l : Nat) :
    getCore (ls.foldl (fun s l => modCore s l (fun x => giveItem x (item l))) s) l
      = if l ∈ ls then giveItem (getCore s l) (item l) else getCore s l := by
  induction ls generalizing s with
  | nil => rfl
  | cons k r ih =>
    obtain ⟨hk, hr⟩ := List.nodup_cons.1 hnodup
    rw [List.foldl_cons, ih hr]
    by_cases hl : l = k
    · subst hl
      rw [if_neg hk, if_pos List.mem_cons_self, getCore_modCore]
    · simp only [getCore_modCore_ne s hl, List.mem_cons, hl, false_or]

theorem foldl_giveItem_frame (item : Nat → Item) (ls : List Nat) (s : State) :
    { ls.foldl (fun s l => modCore s l (fun x => giveItem x (item l))) s with cores := s.cores } = s :=
  foldl_keeps (P := fun t : State => { t with cores := s.cores } = s) (f := fun s l => modCore s l (fun x => giveItem x (item l)))
    (fun _ _ h => h) ls rfl

theorem sole_congr {s t : State} {c q op : Nat} {e : Entry} (h : t.ctxs = s.ctxs) (hsole : Sole s c q op e) : Sole t c q op e := by
  unfold Sole running at *
  simpa only [getCtx, h] using hsole

/-- The charge waits for an item on each of its cores. -/
theorem placed_placeItems {s : State} {c q op : Nat} {e : Entry} (hsole : Sole s c q op e) {ls : List Nat} (hnodup : ls.Nodup)
    (item : Nat → Item) : Placed s (placeItems s c q ls item) c ls e item := by
  have hframe := foldl_giveItem_frame item ls s
  have hcore : ∀ l, getCore (placeItems s c q ls item) l = if l ∈ ls then giveItem (getCore s l) (item l) else getCore s l :=
    getCore_foldl_giveItem item hnodup s
  have hmem := congrArg State.mem hframe
  have hout := congrArg State.out hframe
  have htel := congrArg State.tel hframe
  refine ⟨fun l hl => ?_, fun l hl => (hcore l).trans (if_neg hl), ?_, hmem, hout, htel⟩
  · rw [hcore l, if_pos hl]
    exact giveItem_spec (getCore s l) (item l)
  · exact modRunning_entry (sole_congr (congrArg State.ctxs hframe :) hsole) _

/-! ## The charges -/

/-- A charge that places items, in its turn and not aborted, does so when its checks pass, and else reports the failing one (R106). -/
theorem itemCharge_acts {s : State} {c q op : Nat} {e : Entry} (hruns : fabricRuns s = true) (hrun : running s c q op = some e)
    (hphase : e.phase = 0) (hst : e.st ≠ .abortPending) (hturn : inTurn s c q = true) (status : Entry → Nat) (place : Entry → State) :
    itemCharge s c q op status place = if status e = 0 then place e else report s c q (status e) 0 := by
  rw [itemCharge, fabricCharge, if_pos hruns, onCharge_running _ hrun, if_neg (by simp [hphase, hturn]), if_neg hst, ite_not]

/-- With nothing lasting, a charge places its items as read from the state in which it acts. -/
theorem placeCharge_clean {s : State} (c q : Nat) (e : Entry) (rs : List (Nat × Nat)) (item : State → Nat → Item) (h : s.poison = []) :
    placeCharge s c q e {} rs item = placeItems s c q (namedCores e) (item s) := by
  unfold placeCharge
  rw [readUnits_clean noSubject { s := s } _ h]
  rfl

/-- Such a charge places one item on each core that it names, or reports its failing check. -/
theorem itemCharge_places {s : State} {c q op : Nat} {e : Entry} {i : Instr} {status : Entry → Nat} {item : Entry → State → Nat → Item}
    {rs : Entry → List (Nat × Nat)} (hruns : fabricRuns s = true) (hpoison : s.poison = []) (hphase : e.phase = 0)
    (hst : e.st ≠ .abortPending) (hturn : inTurn s c q = true) (hsole : Sole s c q op e)
    (hexec : exec i s = .next (itemCharge s c q op status fun e => placeCharge s c q e {} (rs e) (item e))) :
    if status e = 0 then ∃ t, exec i s = .next t ∧ Placed s t c (namedCores e) e (item e s) else exec i s = .next (report s c q (status e) 0) := by
  rw [hexec, itemCharge_acts hruns hsole.1 hphase hst hturn]
  split
  · rw [placeCharge_clean c q e (rs e) (item e) hpoison]
    exact ⟨_, rfl, placed_placeItems hsole (nodup_namedCores e) _⟩
  · rfl

/-- The place of a program image, as an instruction index (R105). -/
theorem loadRange_entry (e : Entry) : (loadRange e false).1 / 8 = fld (pw4 e 0x1C) 14 0 := Nat.mul_div_cancel_left _ (by decide)

theorem exec_progLoad (s : State) (c q : Nat) : exec (.progLoad c q {}) s = .next (itemCharge s c q 0x200 (loadStatus s · false) fun e =>
    placeCharge s c q e {} [(pw e 0x10, pw4 e 0x18)] fun t _ =>
      { kind := .progLoad, ctx := c, cseq := q, entry := fld (pw4 e 0x1C) 14 0, data := memB t (pw e 0x10) (pw4 e 0x18) }) := by
  simp only [← loadRange_entry]
  rfl

theorem exec_tableLoad (s : State) (c q : Nat) : exec (.tableLoad c q {}) s = .next (itemCharge s c q 0x201 (loadStatus s · true) fun e =>
    placeCharge s c q e {} [(pw e 0x10, pw4 e 0x18)] fun t _ =>
      { kind := .tableLoad, ctx := c, cseq := q, entry := fld (pw4 e 0x1C) 3 0, data := memB t (pw e 0x10) (pw4 e 0x18) }) := rfl

theorem exec_launch (s : State) (c q : Nat) : exec (.launch c q {}) s = .next (itemCharge s c q 0x210 (launchStatus s) fun e =>
    placeCharge s c q e {} (if perCore e then argRanges e else []) fun t l =>
      { kind := .launch, ctx := c, cseq := q, entry := fld (pw4 e 0x10) 14 0, args := launchArgs t e l }) := rfl

end Sys2Proof.Machine

open Sys2Proof Sys2Proof.Machine

/-- Settles O31: one lemma for the three charges, with the item that each places. -/
theorem loadChargesPlaceOneItemOnEachNamedCore : Obligations.LoadChargesPlaceOneItemOnEachNamedCore := by
  intro s c q e hruns hpoison hphase hst hturn n data
  exact ⟨fun hsole => itemCharge_places hruns hpoison hphase hst hturn hsole (exec_progLoad s c q),
    fun hsole => itemCharge_places hruns hpoison hphase hst hturn hsole (exec_tableLoad s c q),
    fun hsole => itemCharge_places hruns hpoison hphase hst hturn hsole (exec_launch s c q)⟩

end

section
/-! The move of accepted charges into the hopper (R64, R66): what it changes of its context, and where it writes. -/

namespace Sys2Proof.Machine

open Sys2Proof.Claims

/-! ## Lists -/

/-- What stands at a place of a list after a change of the first element that passes a test. -/
theorem getElem?_updFirst {α : Type} (p : α → Bool) (f : α → α) {l : List α} {i : Nat} {x : α} (h : l[i]? = some x) :
    ∃ y, (updFirst p f l)[i]? = some y ∧ (y = x ∨ p x = true ∧ y = f x) := by
  induction l generalizing i with
  | nil => simp at h
  | cons z r ih =>
    cases i with
    | zero =>
      obtain rfl : z = x := by simpa using h
      unfold updFirst
      split
      case isTrue hz => exact ⟨f z, rfl, .inr ⟨hz, rfl⟩⟩
      case isFalse => exact ⟨z, rfl, .inl rfl⟩
    | succ i =>
      rw [List.getElem?_cons_succ] at h
      unfold updFirst
      split
      · exact ⟨x, h, .inl rfl⟩
      · exact ih h

/-- Behind elements that fail the test, the first that passes it changes. -/
theorem updFirst_append {α : Type} {p : α → Bool} {f : α → α} {l r : List α} {x : α} (hl : ∀ y ∈ l, p y = false) (hx : p x = true) :
    updFirst p f (l ++ x :: r) = l ++ f x :: r := by
  induction l with
  | nil => simp [updFirst, hx]
  | cons y l ih => simp [updFirst, hl y List.mem_cons_self, ih fun z hz => hl z (List.mem_cons_of_mem y hz)]

/-! ## What the move leaves -/

/-- An entry that moves into the hopper, or stays as it is. -/
def Moves (e e' : Entry) : Prop := e' = e ∨ e.moved = false ∧ e' = { e with moved := true }

theorem Moves.trans {a b c : Entry} (h : Moves a b) (k : Moves b c) : Moves a c := by
  rcases h with rfl | ⟨ha, rfl⟩
  · exact k
  · rcases k with rfl | ⟨hb, -⟩
    · exact .inr ⟨ha, rfl⟩
    · exact Bool.noConfusion hb

/-- An entry in the hopper stays as it is. -/
theorem Moves.eq {e e' : Entry} (h : Moves e e') (hmoved : e.moved = true) : e' = e :=
  h.resolve_right fun hn => Bool.noConfusion (hmoved.symm.trans hn.1)

/-- A move into the hopper of a context: entries that move, the ring's head and the place in the region differ, bytes of the hopper region
and the accounts of the move. -/
structure Pumped (c : Nat) (s t : State) : Prop where
  ctx : ∃ es head pos, getCtx t c = { getCtx s c with entries := es, head := head, hopPos := pos }
    ∧ ∀ (i : Nat) (e : Entry), (getCtx s c).entries[i]? = some e → ∃ e', es[i]? = some e' ∧ Moves e e'
  others : ∀ k, k ≠ c → getCtx t k = getCtx s k
  hopper : OnlyHopper s t (getCtx s c)
  frame : { t with ctxs := s.ctxs, tel := s.tel, journal := s.journal, out := s.out, mem := s.mem, free := s.free } = s

/-- Accounts alone differ. -/
theorem Pumped.accounts {c : Nat} {s t : State} (h : { t with tel := s.tel, journal := s.journal, out := s.out, free := s.free } = s) :
    Pumped c s t := by
  have hctx : ∀ k, getCtx t k = getCtx s k := fun k => (congrArg (fun y : State => getCtx y k) h :)
  have hmem := congrArg State.mem h
  refine ⟨⟨_, _, _, hctx c, fun i e he => ⟨e, he, .inl rfl⟩⟩, fun k _ => hctx k, fun a _ => ?_, ?_⟩
  · exact congrArg (tget 0 · a) hmem
  · exact congrArg (fun y : State => { y with ctxs := s.ctxs, mem := s.mem }) h

theorem Pumped.refl (c : Nat) (s : State) : Pumped c s s := .accounts rfl

theorem Pumped.trans {c : Nat} {s t u : State} (h : Pumped c s t) (k : Pumped c t u) : Pumped c s u := by
  obtain ⟨es, head, pos, hctx, hes⟩ := h.ctx
  obtain ⟨es', head', pos', hctx', hes'⟩ := k.ctx
  refine ⟨⟨es', head', pos', ?_, fun i e he => ?_⟩, fun n hn => (k.others n hn).trans (h.others n hn), fun a ha => ?_, ?_⟩
  · rw [hctx', hctx]
  · obtain ⟨e', he', hm⟩ := hes i e he
    obtain ⟨e'', he'', hm'⟩ := hes' i e' (by rw [hctx]; exact he')
    exact ⟨e'', he'', hm.trans hm'⟩
  · exact (k.hopper a (by rw [hctx]; exact ha)).trans (h.hopper a ha)
  · have hframe := congrArg (fun y : State => { y with ctxs := s.ctxs, tel := s.tel, journal := s.journal, out := s.out, mem := s.mem, free := s.free })
      k.frame
    exact hframe.trans h.frame

theorem modJournal_frame (s : State) (f : JEntry → JEntry) : { modJournal s f with journal := s.journal } = s := by
  unfold modJournal
  split
  · split <;> rfl
  · rfl

theorem journalAccept_frame (s : State) (c : Nat) (e : Entry) : { journalAccept s c e with journal := s.journal } = s := by
  unfold journalAccept
  split
  · exact modJournal_frame s _
  · rfl

theorem shadowWrite_frame (s : State) (c : Nat) : { shadowWrite s c with out := s.out } = s := by
  unfold shadowWrite
  dsimp only
  split <;> rfl

/-- Bytes put one by one at places of a range leave all others. -/
theorem tget_foldl_tset {m : Tab Byte} {place : Nat → Nat} {b : Nat → Byte} {a : Nat} (h : ∀ i, a ≠ place i) (is : List Nat) :
    tget 0 (is.foldl (fun m i => tset 0 m (place i) (b i)) m) a = tget 0 m a :=
  foldl_keeps (P := fun t => tget 0 t a = tget 0 m a) (fun _ i ht => (tget_tset_ne 0 _ (h i) _).trans ht) is rfl

theorem getCtx_hopperStore (s : State) (c n : Nat) :
    getCtx (hopperStore s c n) c = { getCtx s c with hopPos := ((getCtx s c).hopPos + n) % 2 ^ (getCtx s c).hopLog2 } := getCtx_setCtx _ c _

theorem pumped_hopperStore (s : State) (c n : Nat) : Pumped c s (hopperStore s c n) where
  ctx := ⟨_, _, _, getCtx_hopperStore s c n, fun _ e he => ⟨e, he, .inl rfl⟩⟩
  others _ hk := getCtx_setCtx_ne _ hk _
  hopper a ha := by
    refine tget_foldl_tset (fun i hai => ?_) _
    have hlt : ((getCtx s c).hopPos + i) % 2 ^ (getCtx s c).hopLog2 < 2 ^ (getCtx s c).hopLog2 := Nat.mod_lt _ (Nat.two_pow_pos _)
    omega
  frame := rfl

theorem enterHopper_accounts (s : State) (c : Nat) (e : Entry) :
    { enterHopper s c e with tel := s.tel, journal := s.journal } = hopperStore s c e.size := by
  have h := journalAccept_frame (bump (hopperStore s c e.size) 0 (if (getCtx s c).owner = .a then 2 else 3) 1) c e
  exact congrArg (fun y : State => { y with tel := s.tel }) h

theorem getCtx_enterHopper (s : State) (c : Nat) (e : Entry) (k : Nat) : getCtx (enterHopper s c e) k = getCtx (hopperStore s c e.size) k :=
  (congrArg (fun y : State => getCtx y k) (enterHopper_accounts s c e) :)

theorem pumped_enterHopper (s : State) (c : Nat) (e : Entry) : Pumped c s (enterHopper s c e) := by
  refine (pumped_hopperStore s c e.size).trans (.accounts ?_)
  have h := enterHopper_accounts s c e
  exact congrArg (fun y : State => { y with out := s.out, free := s.free + e.size }) h

theorem pumped_shadowWrite (s : State) (c : Nat) : Pumped c s (shadowWrite s c) :=
  .accounts (congrArg (fun y : State => { y with tel := s.tel, journal := s.journal, free := s.free }) (shadowWrite_frame s c))

/-! ## One charge, and all that have room -/

/-- The context after its first charge in the ring has moved. -/
def Ctx.moveFirst (x : Ctx) (e : Entry) : Ctx :=
  { x with entries := updFirst (fun e => !e.moved) (fun e => { e with moved := true }) x.entries, head := (x.head + e.size) % 65536 }

/-- The state after that charge has moved into the hopper. -/
def moveFirst (s : State) (c : Nat) (e : Entry) : State :=
  let x := getCtx s c
  let y := x.moveFirst e
  let t := setCtx s c y
  let t := if e.size = 0 then t else enterHopper t c e
  if e.size ≠ 0 ∧ (x.head / 4096 ≠ y.head / 4096 ∨ ringBytes y = 0) then shadowWrite t c else t

theorem pump_none {s : State} {c : Nat} (h : (getCtx s c).entries.find? (fun e => !e.moved) = none) (n : Nat) : pump s c n = s := by
  cases n with
  | zero => rfl
  | succ n => simp [pump, h]

theorem pump_full {s : State} {c : Nat} {e : Entry} (h : (getCtx s c).entries.find? (fun e => !e.moved) = some e)
    (hfull : e.size ≠ 0 ∧ 2 ^ (getCtx s c).hopLog2 < hopperBytes (getCtx s c) + e.size) (n : Nat) : pump s c n = s := by
  cases n with
  | zero => rfl
  | succ n =>
    simp only [pump, h]
    exact if_pos hfull

theorem pump_moves {s : State} {c : Nat} {e : Entry} (h : (getCtx s c).entries.find? (fun e => !e.moved) = some e)
    (hroom : ¬(e.size ≠ 0 ∧ 2 ^ (getCtx s c).hopLog2 < hopperBytes (getCtx s c) + e.size)) (n : Nat) :
    pump s c (n + 1) = pump (moveFirst s c e) c n := by
  simp only [pump, h]
  exact if_neg hroom

theorem pumped_moveFirst (s : State) (c : Nat) (e : Entry) : Pumped c s (moveFirst s c e) := by
  have hset : Pumped c s (setCtx s c ((getCtx s c).moveFirst e)) := by
    refine ⟨⟨_, _, _, getCtx_setCtx s c _, fun i b hb => ?_⟩, fun k hk => getCtx_setCtx_ne s hk _, fun _ _ => rfl, rfl⟩
    obtain ⟨y, hy, hcase⟩ := getElem?_updFirst (fun e => !e.moved) (fun e => { e with moved := true }) hb
    exact ⟨y, hy, hcase.imp id fun ⟨hnot, heq⟩ => ⟨by simpa using hnot, heq⟩⟩
  have henter : Pumped c s (if e.size = 0 then setCtx s c ((getCtx s c).moveFirst e) else enterHopper (setCtx s c ((getCtx s c).moveFirst e)) c e) := by
    split
    · exact hset
    · exact hset.trans (pumped_enterHopper _ c e)
  unfold moveFirst
  dsimp only
  split
  · exact henter.trans (pumped_shadowWrite _ c)
  · exact henter

theorem pumped_pump (s : State) (c n : Nat) : Pumped c s (pump s c n) := by
  induction n generalizing s with
  | zero => exact .refl c s
  | succ n ih =>
    rcases hfind : (getCtx s c).entries.find? (fun e => !e.moved) with - | e
    · rw [pump_none hfind]
      exact .refl c s
    · by_cases hfull : e.size ≠ 0 ∧ 2 ^ (getCtx s c).hopLog2 < hopperBytes (getCtx s c) + e.size
      · rw [pump_full hfind hfull]
        exact .refl c s
      · rw [pump_moves hfind hfull]
        exact (pumped_moveFirst s c e).trans (ih _)

theorem pumped_pumpAll (s : State) (c : Nat) : Pumped c s (pumpAll s c) := pumped_pump s c _

theorem find?_unmoved {es : List Entry} (h : es.all Entry.moved = true) : es.find? (fun e => !e.moved) = none :=
  List.find?_eq_none.2 fun e he => by simpa using List.all_eq_true.1 h e he

/-- With every charge in the hopper, none moves. -/
theorem pumpAll_idle {s : State} {c : Nat} (h : (getCtx s c).entries.all Entry.moved = true) : pumpAll s c = s := pump_none (find?_unmoved h) _

/-- A move changes of its context's registers none but the head. -/
theorem Pumped.fields {c : Nat} {s t : State} (h : Pumped c s t) : (getCtx t c).st = (getCtx s c).st
    ∧ (getCtx t c).lastFault = (getCtx s c).lastFault ∧ (getCtx t c).nextCseq = (getCtx s c).nextCseq
    ∧ (getCtx t c).marks = (getCtx s c).marks := by
  obtain ⟨es, head, pos, hctx, -⟩ := h.ctx
  rw [hctx]
  exact ⟨rfl, rfl, rfl, rfl⟩

/-- An entry at a place stays there; one in the hopper stays as it is. -/
theorem Pumped.entry {c : Nat} {s t : State} (h : Pumped c s t) {i : Nat} {e : Entry} (he : (getCtx s c).entries[i]? = some e) :
    ∃ e', (getCtx t c).entries[i]? = some e' ∧ Moves e e' := by
  obtain ⟨es, head, pos, hctx, hes⟩ := h.ctx
  rw [hctx]
  exact hes i e he

theorem Pumped.entry_moved {c : Nat} {s t : State} (h : Pumped c s t) {i : Nat} {e : Entry} (he : (getCtx s c).entries[i]? = some e)
    (hmoved : e.moved = true) : (getCtx t c).entries[i]? = some e := by
  obtain ⟨e', he', hm⟩ := h.entry he
  rw [he', hm.eq hmoved]

theorem Pumped.mem_moved {c : Nat} {s t : State} (h : Pumped c s t) {e : Entry} (he : e ∈ (getCtx s c).entries) (hmoved : e.moved = true) :
    e ∈ (getCtx t c).entries := by
  obtain ⟨i, hi⟩ := List.getElem?_of_mem he
  exact List.mem_of_getElem? (h.entry_moved hi hmoved)

end Sys2Proof.Machine

end

section
/-! The intake of a context (R56, R59, R63 to R66): writes that are refused, that wait, that bring a whole charge, that fault the context. -/

namespace Sys2Proof.Machine

open Sys2Proof.Claims

/-! ## The last charge of the ring moves -/

/-- A charge that has moved stands in the hopper region: the place for the next one follows it (R66). -/
theorem getCtx_moveFirst (s : State) (c : Nat) (e : Entry) : getCtx (moveFirst s c e) c = if e.size = 0 then (getCtx s c).moveFirst e
    else { (getCtx s c).moveFirst e with hopPos := ((getCtx s c).hopPos + e.size) % 2 ^ (getCtx s c).hopLog2 } := by
  have hshadow : ∀ t : State, getCtx (shadowWrite t c) c = getCtx t c := fun t =>
    (congrArg (fun y : State => getCtx y c) (shadowWrite_frame t c) :)
  unfold moveFirst
  dsimp only
  by_cases hsize : e.size = 0
  · rw [if_neg (fun h => h.1 hsize), if_pos hsize, if_pos hsize, getCtx_setCtx]
  · rw [if_neg hsize, if_neg hsize]
    have henter : getCtx (enterHopper (setCtx s c ((getCtx s c).moveFirst e)) c e) c
        = { (getCtx s c).moveFirst e with hopPos := ((getCtx s c).hopPos + e.size) % 2 ^ (getCtx s c).hopLog2 } := by
      rw [getCtx_enterHopper, getCtx_hopperStore, getCtx_setCtx]
      rfl
    split
    · exact (hshadow _).trans henter
    · exact henter

/-- Where the last entry alone stands in the ring and has room, it moves, and then nothing is left to move. -/
theorem pumpAll_last {s : State} {c : Nat} {es : List Entry} {e : Entry} (hes : (getCtx s c).entries = es ++ [e])
    (hmoved : es.all Entry.moved = true) (he : e.moved = false)
    (hroom : ¬(e.size ≠ 0 ∧ 2 ^ (getCtx s c).hopLog2 < hopperBytes (getCtx s c) + e.size)) :
    pumpAll s c = moveFirst s c e
      ∧ (getCtx s c).moveFirst e = { getCtx s c with entries := es ++ [{ e with moved := true }], head := ((getCtx s c).head + e.size) % 65536 } := by
  have hfind : (getCtx s c).entries.find? (fun e => !e.moved) = some e := by
    rw [hes, List.find?_append, find?_unmoved hmoved]
    simp [he]
  have hupd : (getCtx s c).moveFirst e
      = { getCtx s c with entries := es ++ [{ e with moved := true }], head := ((getCtx s c).head + e.size) % 65536 } := by
    have hall : ∀ y ∈ es, (!y.moved) = false := fun y hy => by simpa using List.all_eq_true.1 hmoved y hy
    rw [Ctx.moveFirst, hes, updFirst_append hall (by simp [he])]
  refine ⟨(pump_moves hfind hroom _).trans (pump_none (find?_unmoved ?_) _), hupd⟩
  have hentries : (getCtx (moveFirst s c e) c).entries = es ++ [{ e with moved := true }] := by
    rw [getCtx_moveFirst, hupd]
    split <;> rfl
  rw [hentries, List.all_append, hmoved]
  rfl

/-! ## Received bytes (R63, R65) -/

/-- Less than a header waits. -/
theorem takeCharges_waits {s : State} {c : Nat} (h : (getCtx s c).partialBuf.length < 16) (n : Nat) : takeCharges s c n = s := by
  cases n with
  | zero => rfl
  | succ n =>
    unfold takeCharges
    exact if_pos h

/-- The status of a header that fails (R65). -/
def headerFault (x : Ctx) (c : Nat) : Nat :=
  if headerCtx x.partialBuf ≠ c then Status.contextMismatch
  else if (parseEntry x.partialBuf).cseq ≠ x.nextCseq then Status.chargeSequence else Status.chargeMalformed

theorem takeCharges_faults {s : State} {c : Nat} (hlen : 16 ≤ (getCtx s c).partialBuf.length) (hbad : headerCtx (getCtx s c).partialBuf ≠ c
      ∨ (parseEntry (getCtx s c).partialBuf).cseq ≠ (getCtx s c).nextCseq ∨ 4096 < headerLen (getCtx s c).partialBuf) (n : Nat) :
    takeCharges s c (n + 1) = intakeFault s c (headerFault (getCtx s c) c) (getCtx s c).partialBuf := by
  unfold takeCharges headerFault
  dsimp only
  rw [if_neg (Nat.not_lt.2 hlen)]
  split
  case isTrue => rfl
  case isFalse hctx =>
    split
    case isTrue => rfl
    case isFalse hcseq => exact if_pos ((hbad.resolve_left hctx).resolve_left hcseq)

/-- A whole charge with nothing behind it is taken. -/
theorem takeCharges_whole {s : State} {c : Nat} {e : Entry} (he : parseEntry (getCtx s c).partialBuf = e)
    (hlen : (getCtx s c).partialBuf.length = e.size) (hctx : headerCtx (getCtx s c).partialBuf = c) (hcseq : e.cseq = (getCtx s c).nextCseq)
    (hmax : headerLen (getCtx s c).partialBuf ≤ 4096) (n : Nat) :
    takeCharges s c (n + 1) = setCtx s c { getCtx s c with
      partialBuf := [], nextCseq := ((getCtx s c).nextCseq + 1) % 2 ^ 32, entries := (getCtx s c).entries ++ [e] } := by
  have hsize : 16 ≤ e.size := he ▸ Nat.le_add_right 16 _
  unfold takeCharges
  dsimp only
  rw [he, if_neg (by omega), if_neg (not_not.2 hctx), if_neg (not_not.2 hcseq), if_neg (by omega), if_neg (by omega),
    List.drop_eq_nil_of_le (by omega)]
  exact takeCharges_waits (by rw [getCtx_setCtx]; exact Nat.zero_lt_succ 15) n

/-! ## Faults (R65) -/

/-- The record entry of a failing check. -/
def faultEntry (status : Nat) (b : List Byte) : Entry :=
  { parseEntry ((b ++ List.replicate 16 0).take 16) with st := .finished, status := status, size := 0, params := [], reserved := false, notify := false }

theorem getCtx_intakeFault (s : State) (c status : Nat) (b : List Byte) : getCtx (intakeFault s c status b) c
    = { getCtx s c with st := .faulted, lastFault := status, partialBuf := [], entries := (getCtx s c).entries ++ [faultEntry status b] } :=
  getCtx_modCtx s c _

/-- A failing check makes the context FAULTED and takes no CSEQ. -/
theorem intakeFault_faults (s : State) (c status : Nat) (b : List Byte) :
    (getCtx (pumpAll (intakeFault s c status b) c) c).st = .faulted
      ∧ (getCtx (pumpAll (intakeFault s c status b) c) c).lastFault = status
      ∧ (getCtx (pumpAll (intakeFault s c status b) c) c).nextCseq = (getCtx s c).nextCseq := by
  obtain ⟨hst, hfault, hcseq, -⟩ := (pumped_pumpAll (intakeFault s c status b) c).fields
  rw [hst, hfault, hcseq, getCtx_intakeFault]
  exact ⟨rfl, rfl, rfl⟩

/-- With every earlier charge in the hopper, it touches the contexts alone. -/
theorem intakeFault_frame {s : State} {c : Nat} (status : Nat) (b : List Byte) (h : (getCtx s c).entries.all Entry.moved = true) :
    { pumpAll (intakeFault s c status b) c with ctxs := s.ctxs } = s := by
  have hentries : (getCtx (intakeFault s c status b) c).entries = (getCtx s c).entries ++ [faultEntry status b] := by rw [getCtx_intakeFault]
  obtain ⟨hpump, -⟩ := pumpAll_last hentries h rfl fun hn => hn.1 rfl
  rw [hpump]
  rfl

/-! ## INTAKE_WRITE -/

section
variable {s : State} {p : HostPort} {c off : Nat} {d : List Byte} (hhub : hubUp s = true) (hready : portReady s p = true)
  (hbridges : bridgesUp s = true) (hc : c < 1024) (horder : outOfOrder s p c off d = false)
include hhub hready hbridges hc horder

/-- What a write at a context's aperture does when it is in the ring's order. -/
theorem exec_intakeWrite : exec (.intakeWrite p c off d) s = .next (
    if (getCtx s c).st ≠ .opened ∨ (getCtx s c).owner ≠ p then discard s p
    else if off ≠ (getCtx s c).tail then pumpAll (intakeFault s c Status.intakeOffset d) c
    else if 65536 < ringBytes (getCtx s c) + d.length then pumpAll (intakeFault s c Status.intakeOverrun ((getCtx s c).partialBuf ++ d)) c
    else pumpAll (takeCharges (setCtx s c { getCtx s c with tail := ((getCtx s c).tail + d.length) % 65536, partialBuf := (getCtx s c).partialBuf ++ d })
      c (((getCtx s c).partialBuf.length + d.length) / 16 + 1)) c) := by
  have hin : ¬(!hubUp s || !portReady s p || decide (1024 ≤ c)) = true := by simp [hhub, hready, hc]
  change execIntakeWrite p c off d s = _
  unfold execIntakeWrite
  dsimp only
  rw [if_neg hin, hbridges, horder]
  rfl

variable (hst : (getCtx s c).st = .opened) (howner : (getCtx s c).owner = p)
include hst howner

theorem exec_intakeWrite_misplaced (hoff : off ≠ (getCtx s c).tail) :
    exec (.intakeWrite p c off d) s = .next (pumpAll (intakeFault s c Status.intakeOffset d) c) := by
  rw [exec_intakeWrite hhub hready hbridges hc horder, if_neg (by simp [hst, howner]), if_pos hoff]

/-- Bytes at the tail of a ring that holds no part of a charge. -/
theorem exec_intakeWrite_tail (hoff : off = (getCtx s c).tail) (hfit : ringBytes (getCtx s c) + d.length ≤ 65536)
    (hpart : (getCtx s c).partialBuf = []) : exec (.intakeWrite p c off d) s = .next (pumpAll (takeCharges
      (setCtx s c { getCtx s c with tail := ((getCtx s c).tail + d.length) % 65536, partialBuf := d }) c (d.length / 16 + 1)) c) := by
  rw [exec_intakeWrite hhub hready hbridges hc horder, if_neg (by simp [hst, howner]), if_neg (not_not.2 hoff), if_neg (Nat.not_lt.2 hfit), hpart,
    List.nil_append, List.length_nil, Nat.zero_add]

end

/-- A whole charge that is taken moves into the hopper. -/
theorem takenCharge_moves {s : State} {c tail : Nat} {d : List Byte} {e : Entry} (he : parseEntry d = e) (hlen : d.length = e.size)
    (hctx : headerCtx d = c) (hmax : headerLen d ≤ 4096) (hcseq : e.cseq = (getCtx s c).nextCseq) (hmoved : (getCtx s c).entries.all Entry.moved = true)
    (hpart : (getCtx s c).partialBuf = []) (hroom : hopperBytes (getCtx s c) + e.size ≤ 2 ^ (getCtx s c).hopLog2) (n : Nat) :
    let x := getCtx s c
    let t := pumpAll (takeCharges (setCtx s c { x with tail := tail, partialBuf := d }) c (n + 1)) c
    getCtx t c = { x with tail := tail, head := (x.head + e.size) % 65536, nextCseq := (x.nextCseq + 1) % 2 ^ 32
                          entries := x.entries ++ [{ e with moved := true }], hopPos := (x.hopPos + e.size) % 2 ^ x.hopLog2 }
      ∧ (∀ k, k ≠ c → getCtx t k = getCtx s k) ∧ OnlyHopper s t x
      ∧ { t with ctxs := s.ctxs, tel := s.tel, journal := s.journal, out := s.out, mem := s.mem, free := s.free } = s := by
  intro x t
  have hsize : ¬e.size = 0 := Nat.ne_of_gt (Nat.lt_of_lt_of_le (by decide) (he ▸ Nat.le_add_right 16 _ : 16 ≤ e.size))
  have hnot : e.moved = false := he ▸ rfl
  let y : Ctx := { x with tail := tail, partialBuf := [], nextCseq := (x.nextCseq + 1) % 2 ^ 32, entries := x.entries ++ [e] }
  have htake : takeCharges (setCtx s c { x with tail := tail, partialBuf := d }) c (n + 1) = setCtx s c y := by
    have hbuf : getCtx (setCtx s c { x with tail := tail, partialBuf := d }) c = { x with tail := tail, partialBuf := d } := getCtx_setCtx s c _
    refine (takeCharges_whole (e := e) ?_ ?_ ?_ ?_ ?_ n).trans ?_ <;> rw [hbuf]
    · exact he
    · exact hlen
    · exact hctx
    · exact hcseq
    · exact hmax
    · exact setCtx_setCtx s c _ _
  have hy : getCtx (setCtx s c y) c = y := getCtx_setCtx s c y
  have hbytes : hopperBytes y = hopperBytes x := by simp [hopperBytes, y, hnot]
  obtain ⟨hpump, hmove⟩ := pumpAll_last (s := setCtx s c y) (e := e) (congrArg Ctx.entries hy) hmoved hnot
    (by rw [hy, hbytes]; exact fun h => Nat.not_lt.2 hroom h.2)
  have ht : t = moveFirst (setCtx s c y) c e := (congrArg (pumpAll · c) htake).trans hpump
  have hp : Pumped c (setCtx s c y) t := ht ▸ pumped_moveFirst _ c e
  refine ⟨?_, fun k hk => (hp.others k hk).trans (getCtx_setCtx_ne s hk y), fun a ha => hp.hopper a (by rw [hy]; exact ha), ?_⟩
  · rw [ht, getCtx_moveFirst, if_neg hsize, hmove, hy]
    simp only [y, hpart, x]
  · exact congrArg (fun z : State => { z with ctxs := s.ctxs }) hp.frame

end Sys2Proof.Machine

open Sys2Proof Sys2Proof.Machine

/-- Settles O23: the write's branches, with what each leaves after the move into the hopper. -/
theorem intakeAcceptsWholeChargesInOrder : Obligations.IntakeAcceptsWholeChargesInOrder := by
  intro s p c off d x e hhub hready hbridges hc horder
  refine ⟨fun hforeign => ?_, fun hst howner => ⟨fun hoff => ?_, fun hoff hfit hmoved hpart => ?_⟩⟩
  · rw [exec_intakeWrite hhub hready hbridges hc horder, if_pos hforeign]
    rfl
  · obtain ⟨hfaulted, hstatus, hcseq⟩ := intakeFault_faults s c Status.intakeOffset d
    exact ⟨_, exec_intakeWrite_misplaced hhub hready hbridges hc horder hst howner hoff, hfaulted, hstatus, hcseq, intakeFault_frame _ d⟩
  · have hexec := exec_intakeWrite_tail hhub hready hbridges hc horder hst howner hoff hfit hpart
    have hbuf : getCtx (setCtx s c { x with tail := (x.tail + d.length) % 65536, partialBuf := d }) c
        = { x with tail := (x.tail + d.length) % 65536, partialBuf := d } := getCtx_setCtx s c _
    refine ⟨fun hshort => ?_, fun hlen hctx hmax hcseq hroom => ⟨_, hexec, takenCharge_moves rfl hlen hctx hmax hcseq hmoved hpart hroom _⟩,
      fun hlong hbad => ?_⟩
    · rw [hexec, takeCharges_waits (by rw [hbuf]; exact hshort), pumpAll_idle (by rw [hbuf]; exact hmoved)]
    · rw [takeCharges_faults (by rw [hbuf]; exact hlong) (by rw [hbuf]; exact hbad), hbuf] at hexec
      obtain ⟨hfaulted, hstatus, hcseq⟩ := intakeFault_faults (setCtx s c { x with tail := (x.tail + d.length) % 65536, partialBuf := d }) c
        (headerFault { x with tail := (x.tail + d.length) % 65536, partialBuf := d } c) d
      refine ⟨_, hexec, hfaulted, ?_, hstatus⟩
      rw [hcseq, hbuf]

end

section
/-! Dispatch, finish reports, retirement and the poll of a full ring (R67, R68, R76 to R80). -/

namespace Sys2Proof.Machine

open Sys2Proof.Claims

/-! ## Dispatch (R35, R67, R409) -/

/-- The next charge to dispatch is accepted and waits; every charge before it is dispatched or finished. -/
theorem nextQueued_spec {x : Ctx} {before : List Entry} {e : Entry} (h : nextQueued x = some (before, e)) :
    ∃ rest, x.entries = before ++ e :: rest ∧ (∀ b ∈ before, (!b.dispatched && b.st = .waiting) = false)
      ∧ (!e.dispatched && e.st = .waiting) = true ∧ e.moved = true := by
  unfold nextQueued at h
  rw [List.span_eq_takeWhile_dropWhile] at h
  have hsplit := List.takeWhile_append_dropWhile (p := fun e : Entry => e.dispatched || e.st ≠ .waiting) (l := x.entries)
  have hhead := List.head?_dropWhile_not (fun e : Entry => e.dispatched || e.st ≠ .waiting) x.entries
  rcases hdrop : x.entries.dropWhile (fun e => e.dispatched || e.st ≠ .waiting) with - | ⟨b, rest⟩
  · rw [hdrop] at h
    cases h
  · rw [hdrop] at h hsplit hhead
    simp only [Option.ite_none_right_eq_some, Option.some.injEq, Prod.mk.injEq] at h
    obtain ⟨hmoved, rfl, rfl⟩ := h
    refine ⟨rest, hsplit.symm, fun y hy => ?_, by simpa using hhead, hmoved⟩
    have hpass := List.mem_takeWhile_imp hy
    revert hpass
    cases y.dispatched <;> simp

theorem phaseTime_frame (s : State) (i : Nat) : { phaseTime s i with tel := s.tel } = s := (recorded_modPhase s _).frame

theorem joinSecure_frame (s : State) (c : Nat) (e : Entry) : { joinSecure s c e with sec := s.sec } = s := by
  unfold joinSecure
  split <;> rfl

theorem noteDispatch_frame (s : State) (c : Nat) (e : Entry) : { noteDispatch s c e with sec := s.sec, tel := s.tel } = s := by
  have hjoin := joinSecure_frame s c e
  unfold noteDispatch
  dsimp only
  split
  · have htime := phaseTime_frame (joinSecure s c e) 5
    have h := congrArg (fun y : State => { y with sec := s.sec, tel := s.tel }) htime
    exact h.trans (congrArg (fun y : State => { y with tel := s.tel }) hjoin)
  · exact congrArg (fun y : State => { y with tel := s.tel }) hjoin

theorem startWake_frame (s : State) (op : Nat) : { startWake s op with power := s.power } = s := by
  unfold startWake
  split <;> rfl

/-- What the dispatch of a charge leaves of its entry: its port, and the status of a refusal as its report. -/
def Entry.dispatchedBy (e : Entry) (port : HostPort) (status : Nat) : Entry :=
  { e with dispatched := true, port := port, report := if status = 0 then none else some (status, 0) }

/-- The state in which a charge is dispatched, before others move into the room that it leaves. -/
def dispatchNoted (s : State) (c : Nat) (e : Entry) (status : Nat) : State :=
  let t := setCtx s c (markDispatched (getCtx s c) (·.dispatchedBy (chargePort s c) status))
  if status = 0 then noteDispatch (startWake t e.opcode) c e else t

/-- CHARGE_DISPATCH of a charge that may go, with nothing lasting found. -/
theorem exec_chargeDispatch {s : State} {c : Nat} {before : List Entry} {e : Entry} (hnext : nextQueued (getCtx s c) = some (before, e))
    (hboot : bootGate s e.opcode = some 0) (hheld : held s c (getCtx s c) e = false) (hmay : mayDispatch (getCtx s c) before e = true) :
    exec (.chargeDispatch c {}) s = .next (pumpAll (dispatchNoted s c e (dispatchRefusal s (getCtx s c) e 0)) c) := by
  change execChargeDispatch c {} s = _
  unfold execChargeDispatch
  dsimp only
  rw [hnext]
  dsimp only
  rw [hboot]
  dsimp only
  rw [hheld, hmay]
  rfl

/-- Dispatch touches its context, and the accounts of security, power and telemetry. -/
theorem dispatchNoted_frame (s : State) (c : Nat) (e : Entry) (status : Nat) :
    { dispatchNoted s c e status with sec := s.sec, tel := s.tel, power := s.power }
      = setCtx s c (markDispatched (getCtx s c) (·.dispatchedBy (chargePort s c) status)) := by
  unfold dispatchNoted
  dsimp only
  split
  · generalize ht : setCtx s c _ = t
    have hpower : t.sec = s.sec ∧ t.tel = s.tel ∧ t.power = s.power := by subst ht; exact ⟨rfl, rfl, rfl⟩
    obtain ⟨hsec, htel, hpow⟩ := hpower
    rw [← hsec, ← htel, ← hpow]
    have hnote := noteDispatch_frame (startWake t e.opcode) c e
    have hwake := startWake_frame t e.opcode
    have hst : (startWake t e.opcode).sec = t.sec := (congrArg State.sec hwake :)
    have htt : (startWake t e.opcode).tel = t.tel := (congrArg State.tel hwake :)
    rw [hst, htt] at hnote
    exact (congrArg (fun y : State => { y with power := t.power }) hnote).trans hwake
  · rfl

theorem getCtx_dispatchNoted (s : State) (c : Nat) (e : Entry) (status : Nat) :
    getCtx (dispatchNoted s c e status) c = markDispatched (getCtx s c) (·.dispatchedBy (chargePort s c) status) := by
  have h : getCtx (dispatchNoted s c e status) c = getCtx (setCtx s c _) c :=
    (congrArg (fun y : State => getCtx y c) (dispatchNoted_frame s c e status) :)
  exact h.trans (getCtx_setCtx s c _)

/-- R409: the dispatch of a fabric charge in IDLE_LIT starts the wake. -/
theorem dispatchNoted_wakes {s : State} (c : Nat) {e : Entry} (hfabric : isFabric e.opcode = true) (hst : s.power.st = .idleLit) :
    (dispatchNoted s c e 0).power.wake = true := by
  unfold dispatchNoted
  dsimp only
  rw [if_pos rfl]
  generalize ht : setCtx s c _ = t
  have hpow : t.power = s.power := by subst ht; rfl
  have hnote : (noteDispatch (startWake t e.opcode) c e).power = (startWake t e.opcode).power :=
    (congrArg State.power (noteDispatch_frame (startWake t e.opcode) c e) :)
  rw [hnote, startWake, hpow, hfabric, hst]
  rfl

/-- A dispatched charge stands in its context with its report; its context's hopper region alone may differ in memory, and no core does. -/
theorem chargeDispatch_dispatches {s : State} {c : Nat} {before : List Entry} {e : Entry} (hnext : nextQueued (getCtx s c) = some (before, e))
    (hboot : bootGate s e.opcode = some 0) (hheld : held s c (getCtx s c) e = false) (hmay : mayDispatch (getCtx s c) before e = true) :
    ∃ t, exec (.chargeDispatch c {}) s = .next t
      ∧ e.dispatchedBy (chargePort s c) (dispatchRefusal s (getCtx s c) e 0) ∈ (getCtx t c).entries
      ∧ (dispatchRefusal s (getCtx s c) e 0 = 0 → isFabric e.opcode = true → s.power.st = .idleLit → t.power.wake = true)
      ∧ OnlyHopper s t (getCtx s c) ∧ t.cores = s.cores := by
  refine ⟨_, exec_chargeDispatch hnext hboot hheld hmay, ?_⟩
  generalize hstatus : dispatchRefusal s (getCtx s c) e 0 = status
  obtain ⟨rest, hentries, hbefore, hwaits, hmoved⟩ := nextQueued_spec hnext
  have hframe := dispatchNoted_frame s c e status
  have hmem : (dispatchNoted s c e status).mem = s.mem := (congrArg State.mem hframe :)
  have hcores : (dispatchNoted s c e status).cores = s.cores := (congrArg State.cores hframe :)
  have hctx := getCtx_dispatchNoted s c e status
  have hp := pumped_pumpAll (dispatchNoted s c e status) c
  have hpower : (pumpAll (dispatchNoted s c e status) c).power = (dispatchNoted s c e status).power := (congrArg State.power hp.frame :)
  refine ⟨hp.mem_moved ?_ hmoved, fun hzero hfabric hidle => ?_, fun a ha => ?_, ?_⟩
  · rw [hctx, markDispatched, hentries, updFirst_append hbefore hwaits]
    exact List.mem_append_right _ List.mem_cons_self
  · subst hzero
    rw [hpower]
    exact dispatchNoted_wakes c hfabric hidle
  · rw [hp.hopper a (by rw [hctx]; exact ha), hmem]
  · have hkeeps : (pumpAll (dispatchNoted s c e status) c).cores = (dispatchNoted s c e status).cores := (congrArg State.cores hp.frame :)
    exact hkeeps.trans hcores

/-! ## Finish reports (R68, R80) -/

/-- What the report of its executors makes of an entry. -/
def Entry.takeReport (e : Entry) : Entry :=
  match e.report with
  | some r => if e.st = .abortPending then { e with ended := true } else { e with st := .finished, status := r.1, result := r.2 }
  | none => e

theorem Entry.takeReport_waiting {e : Entry} {v r : Nat} (hreport : e.report = some (v, r)) (hst : e.st = .waiting) :
    e.takeReport = { e with st := .finished, status := v, result := r } := by
  unfold Entry.takeReport
  split
  case h_1 q hq =>
    obtain rfl : q = (v, r) := Option.some.inj (hq.symm.trans hreport)
    exact if_neg (by rw [hst]; decide)
  case h_2 hnone => exact absurd (hreport.symm.trans hnone) (Option.some_ne_none _)

theorem Entry.takeReport_pending {e : Entry} {v r : Nat} (hreport : e.report = some (v, r)) (hst : e.st = .abortPending) :
    e.takeReport = { e with ended := true } := by
  unfold Entry.takeReport
  split
  case h_1 => exact if_pos hst
  case h_2 hnone => exact absurd (hreport.symm.trans hnone) (Option.some_ne_none _)

/-- The first element that passes a test is there changed. -/
theorem mem_updFirst_of_find {α : Type} {p : α → Bool} (f : α → α) {l : List α} {x : α} (h : l.find? p = some x) : f x ∈ updFirst p f l := by
  induction l with
  | nil => simp at h
  | cons y r ih =>
    unfold updFirst
    rw [List.find?_cons] at h
    split at h
    case h_1 hy =>
      obtain rfl : y = x := by simpa using h
      rw [if_pos hy]
      exact List.mem_cons_self
    case h_2 hy =>
      rw [if_neg (by rw [hy]; exact Bool.false_ne_true)]
      exact List.mem_cons_of_mem _ (ih h)

theorem executorFinishReport_takes {s : State} {c : Nat} {e : Entry}
    (h : (getCtx s c).entries.find? (fun y => y.cseq = e.cseq && y.dispatched && y.st ≠ .finished && y.report.isSome) = some e) :
    ∃ t, exec (.executorFinishReport c e.cseq) s = .next t ∧ { t with ctxs := s.ctxs } = s ∧ e.takeReport ∈ (getCtx t c).entries := by
  refine ⟨_, rfl, rfl, ?_⟩
  rw [getCtx_modCtx]
  exact mem_updFirst_of_find Entry.takeReport h

/-! ## Retirement (R68, R76 to R78) -/

theorem journalRetire_frame (s : State) (c : Nat) (e : Entry) : { journalRetire s c e with journal := s.journal } = s := by
  unfold journalRetire
  dsimp only
  split
  case isTrue hc =>
    unfold modFor
    rw [if_pos hc]
  case isFalse =>
    split
    · split <;> rfl
    · rfl

theorem modPhase_frame (s : State) (f : PhaseRec → PhaseRec) : { modPhase s f with tel := s.tel } = s := (recorded_modPhase s f).frame

theorem phaseRetire_frame (s : State) (c : Nat) (e : Entry) : { phaseRetire s c e with tel := s.tel } = s := by
  unfold phaseRetire
  split
  · rfl
  · split
    · exact phaseTime_frame s 4
    · split
      · rfl
      · split
        · split
          · rfl
          · have h := modPhase_frame (phaseTime s 2) (fun r => { r with attempts := min 255 (r.attempts + 1) })
            exact (congrArg (fun y : State => { y with tel := s.tel }) h).trans (phaseTime_frame s 2)
        · rfl

/-- The state in which an entry's outcome stands in the journal and the phase record. -/
def retireNoted (s : State) (c : Nat) (e : Entry) : State := phaseRetire (journalRetire s c e) c e

theorem retireNoted_frame (s : State) (c : Nat) (e : Entry) : { retireNoted s c e with journal := s.journal, tel := s.tel } = s := by
  have hphase := phaseRetire_frame (journalRetire s c e) c e
  have hjournal := journalRetire_frame s c e
  have htel : (journalRetire s c e).tel = s.tel := (congrArg State.tel hjournal :)
  rw [htel] at hphase
  exact (congrArg (fun y : State => { y with journal := s.journal }) hphase).trans hjournal

/-- A finished entry leaves a record (R76): all but a quiet success, and those of a RUN. -/
def needsRecord (c : Nat) (e : Entry) : Bool := c ≠ replayCtx && !(e.quiet && e.status = 0)

/-- The state after a finished entry has left the retire stage. -/
def retiredEntry (s : State) (c : Nat) (e : Entry) (rest : List Entry) : State :=
  let t := setCtx (retireNoted s c e) c { getCtx s c with entries := rest, lastCseq := e.cseq }
  if needsRecord c e then writeRec t c (recOf s e) else t

/-- CHARGE_RETIRE of a finished entry at the front: it waits for room for its record. -/
theorem exec_chargeRetire {s : State} {c : Nat} {e : Entry} {rest : List Entry} (hst : (getCtx s c).st ≠ .orphaned) (hheld : (getCtx s c).held = [])
    (hentries : (getCtx s c).entries = e :: rest) (hfin : e.st = .finished) (hmoved : e.moved = true) (hsize : e.size ≠ 0)
    (hclose : closesBeforeTakeover (getCtx s c) e = false) : exec (.chargeRetire c) s = .next (
      if needsRecord c e && !(ringRoom (getCtx s c) && canMaster s (getCtx s c).owner) then s
      else pumpAll (retireEffect (retiredEntry s c e rest) c e) c) := by
  have hneed : (decide (c ≠ replayCtx) && !(e.quiet && decide (e.st = .finished) && decide (e.status = 0))) = needsRecord c e := by
    rw [needsRecord, hfin]
    simp
  have hready : ¬(!retirable e || !e.moved || closesBeforeTakeover (getCtx s c) e) = true := by simp [retirable, hfin, hmoved, hclose]
  have horph : decide ((getCtx s c).st = .orphaned) = false := decide_eq_false hst
  have hnot : decide ((getCtx s c).st ≠ .orphaned) = true := decide_eq_true hst
  have hsame : { e with status := (recOf s e).status, result := (recOf s e).result } = e := by
    have hne : ¬e.st = .abortPending := fun h => EntrySt.noConfusion (hfin.symm.trans h)
    simp only [recOf, if_neg hne]
  change execChargeRetire c s = _
  unfold execChargeRetire
  dsimp only
  rw [if_neg (fun h => h.2 hheld), hentries]
  dsimp only
  rw [if_neg hready, hneed, horph, hnot, hsame, if_neg hsize]
  simp only [Bool.and_false, Bool.false_and, Bool.and_true, Bool.false_eq_true, if_false]
  rfl

theorem getCtx_retiredEntry (s : State) (c : Nat) (e : Entry) (rest : List Entry) :
    ∃ n, getCtx (retiredEntry s c e rest) c = { getCtx s c with entries := rest, lastCseq := e.cseq, written := n } := by
  unfold retiredEntry
  dsimp only
  split
  · rw [getCtx_writeRec, getCtx_setCtx]
    exact ⟨_, rfl⟩
  · rw [getCtx_setCtx]
    exact ⟨_, rfl⟩

theorem retireEffect_none {e : Entry} (hclose : e.opcode ≠ 0x002) (hreset : e.opcode ≠ 0x004) (s : State) (c : Nat) : retireEffect s c e = s := by
  rw [retireEffect, if_neg hclose, if_neg hreset, ite_self]

section
variable {s : State} {c : Nat} {e : Entry} {rest : List Entry} (hc : c < 1024) (hst : (getCtx s c).st ≠ .orphaned)
  (hheld : (getCtx s c).held = []) (hentries : (getCtx s c).entries = e :: rest) (hrest : rest.all Entry.moved = true) (hfin : e.st = .finished)
  (hmoved : e.moved = true) (hsize : e.size ≠ 0) (hclose : e.opcode ≠ 0x002) (hreset : e.opcode ≠ 0x004)
include hst hheld hentries hfin hmoved hsize hclose

omit hst hheld hentries hfin hmoved hsize in
theorem closesBeforeTakeover_other (x : Ctx) : closesBeforeTakeover x e = false := by simp [closesBeforeTakeover, hclose]

include hc in
omit hst hheld hentries hfin hmoved hsize hclose in
theorem needsRecord_loud (hloud : e.quiet = false ∨ e.status ≠ 0) : needsRecord c e = true := by
  have hne : c ≠ replayCtx := Nat.ne_of_lt hc
  rcases hloud with h | h <;> simp [needsRecord, hne, h]

include hrest hreset in
/-- An entry that no context charge made retires alone. -/
theorem chargeRetire_retires (hroom : needsRecord c e = false ∨ ringRoom (getCtx s c) = true ∧ canMaster s (getCtx s c).owner = true) :
    exec (.chargeRetire c) s = .next (retiredEntry s c e rest) := by
  have hgo : ¬(needsRecord c e && !(ringRoom (getCtx s c) && canMaster s (getCtx s c).owner)) = true := by
    rcases hroom with h | ⟨hr, hm⟩
    · simp [h]
    · simp [hr, hm]
  obtain ⟨n, hctx⟩ := getCtx_retiredEntry s c e rest
  rw [exec_chargeRetire hst hheld hentries hfin hmoved hsize (closesBeforeTakeover_other hclose _), if_neg hgo, retireEffect_none hclose hreset,
    pumpAll_idle (by rw [hctx]; exact hrest)]

include hrest hreset in
/-- A quiet success leaves no record. -/
theorem chargeRetire_quiet (hquiet : e.quiet = true ∧ e.status = 0) : exec (.chargeRetire c) s
    = .next (setCtx (phaseRetire (journalRetire s c e) c e) c { getCtx s c with entries := rest, lastCseq := e.cseq }) := by
  have hneed : needsRecord c e = false := by simp [needsRecord, hquiet]
  rw [chargeRetire_retires hst hheld hentries hrest hfin hmoved hsize hclose hreset (.inl hneed), retiredEntry, hneed]
  rfl

include hc hrest hreset in
/-- Any other entry leaves its record at the next slot, and its message after it. -/
theorem chargeRetire_records (hloud : e.quiet = false ∨ e.status ≠ 0) (hroom : ringRoom (getCtx s c) = true)
    (hmaster : canMaster s (getCtx s c).owner = true) :
    let x := getCtx s c
    ∃ t o, exec (.chargeRetire c) s = .next t
      ∧ getCtx t c = { x with entries := rest, lastCseq := e.cseq, written := (x.written + 1) % 2 ^ 64 }
      ∧ t.out = o ++ recordWrite s c (recOf s e) :: s.out
      ∧ ∀ m ∈ o, m = .msix x.owner x.msixVec ∧ vectorDue x (recOf s e) = true := by
  intro x
  have hexec := chargeRetire_retires hst hheld hentries hrest hfin hmoved hsize hclose hreset (.inr ⟨hroom, hmaster⟩)
  rw [retiredEntry, needsRecord_loud hc hloud, if_pos rfl] at hexec
  generalize ht : setCtx (retireNoted s c e) c _ = t at hexec
  have hctx : getCtx t c = { x with entries := rest, lastCseq := e.cseq } := by rw [← ht, getCtx_setCtx]
  have hout : t.out = s.out := by
    rw [← ht]
    exact (congrArg State.out (retireNoted_frame s c e) :)
  obtain ⟨o, hwrite, hvector⟩ := writeRec_out t c (recOf s e)
  refine ⟨_, o, hexec, ?_, ?_, ?_⟩
  · rw [getCtx_writeRec, hctx]
  · rw [hwrite, hout, recordWrite, recordWrite, hctx]
  · rw [hctx] at hvector
    exact hvector

include hc in
/-- It waits while the ring has no room or the port cannot master. -/
theorem chargeRetire_waits (hloud : e.quiet = false ∨ e.status ≠ 0)
    (hfull : ¬(ringRoom (getCtx s c) = true ∧ canMaster s (getCtx s c).owner = true)) : exec (.chargeRetire c) s = .next s := by
  have hstop : (needsRecord c e && !(ringRoom (getCtx s c) && canMaster s (getCtx s c).owner)) = true := by
    rw [needsRecord_loud hc hloud, Bool.true_and, Bool.not_eq_true', ← Bool.not_eq_true, Bool.and_eq_true]
    exact hfull
  rw [exec_chargeRetire hst hheld hentries hfin hmoved hsize (closesBeforeTakeover_other hclose _), if_pos hstop]

end

end Sys2Proof.Machine

open Sys2Proof Sys2Proof.Machine

/-- Settles O24: a rule for each of the four commands. -/
theorem chargesRunFromDispatchToRecord : Obligations.ChargesRunFromDispatchToRecord := by
  intro s c x
  refine ⟨fun before e => chargeDispatch_dispatches, fun e v r hfind hreport => ?_,
    fun e rest hc hst hheld hentries hrest hfin hmoved hsize hclose hreset => ?_,
    fun v hst hfull hpoll hmaster => congrArg _ (if_pos ⟨.inl hst, hfull, hpoll, hmaster⟩)⟩
  · obtain ⟨t, hexec, hframe, hmem⟩ := executorFinishReport_takes hfind
    exact ⟨t, hexec, hframe, fun hwaits => Entry.takeReport_waiting hreport hwaits ▸ hmem,
      fun hpending => Entry.takeReport_pending hreport hpending ▸ hmem⟩
  · intro y
    refine ⟨chargeRetire_quiet hst hheld hentries hrest hfin hmoved hsize hclose hreset, fun hloud ⟨hroom, hmaster⟩ => ?_,
      chargeRetire_waits hc hst hheld hentries hfin hmoved hsize hclose⟩
    obtain ⟨t, o, hexec, hctx, hout, hvector⟩ :=
      chargeRetire_records hc hst hheld hentries hrest hfin hmoved hsize hclose hreset hloud hroom hmaster
    have hne : ¬e.st = .abortPending := fun h => EntrySt.noConfusion (hfin.symm.trans h)
    refine ⟨t, o, hexec, hctx, hout, fun m hm => ?_⟩
    obtain ⟨hmsg, hdue⟩ := hvector m hm
    simp only [vectorDue, recOf, if_neg hne, Bool.and_eq_true, Bool.or_eq_true, decide_eq_true_eq] at hdue
    exact ⟨hmsg, hdue⟩

end

section
/-! Flushes, aborts and their marks (R74, R80, R81, R108). -/

namespace Sys2Proof.Machine

open Sys2Proof.Claims

/-! ## Charges that act when they are accepted (R74) -/

/-- An accepted charge that is not dispatched and has not ended. -/
def Entry.waits (b : Entry) : Bool := b.moved && !b.dispatched && b.st = .waiting

/-- The outcome of a flushed charge. -/
def Entry.flushed (b : Entry) : Entry := { b with st := .finished, status := Status.chargeFlushed }

/-- The entry has the acceptance act of this charge still to do. -/
def Entry.actsFor (q op : Nat) (e : Entry) : Bool :=
  e.cseq = q && e.opcode = op && e.moved && !e.dispatched && !e.acted && e.st = .waiting

theorem accepted_spec {s : State} {c q op : Nat} {e : Entry} (h : accepted s c q op = some e) :
    e.actsFor q op = true ∧ ∃ before rest, (getCtx s c).entries = before ++ e :: rest ∧ (∀ b ∈ before, b.actsFor q op = false)
      ∧ posOf (getCtx s c) q op = before.length := by
  obtain ⟨hacts, before, rest, hentries, hbefore⟩ := List.find?_eq_some_iff_append.1 h
  have hnone : ∀ b ∈ before, b.actsFor q op = false := fun b hb => Bool.not_eq_true' _ ▸ hbefore b hb
  have hacts' : e.actsFor q op = true := hacts
  refine ⟨hacts', before, rest, hentries, hnone, ?_⟩
  have hpos : posOf (getCtx s c) q op = (getCtx s c).entries.findIdx (Entry.actsFor q op) := rfl
  have hidx : before.findIdx (Entry.actsFor q op) = before.length := List.findIdx_eq_length.2 hnone
  rw [hpos, hentries, List.findIdx_append, hidx, if_neg (Nat.lt_irrefl _), List.findIdx_cons, hacts']
  exact Nat.add_comm _ _ ▸ rfl

theorem setActed_eq {x : Ctx} {q op result : Nat} {before rest : List Entry} {e : Entry} (hentries : x.entries = before ++ e :: rest)
    (hbefore : ∀ b ∈ before, b.actsFor q op = false) (hacts : e.actsFor q op = true) :
    setActed x q op result = { x with entries := before ++ { e with acted := true, result := result } :: rest } := by
  have h : updFirst (Entry.actsFor q op) (fun e => { e with acted := true, result := result }) x.entries
      = before ++ { e with acted := true, result := result } :: rest := by rw [hentries, updFirst_append hbefore hacts]
  rw [← h]
  rfl

/-! ## Flushes (R74) -/

/-- An entry after a flush of those that pass a test. -/
def Entry.flushedBy (p : Entry → Bool) (b : Entry) : Entry := if b.waits && p b then b.flushed else b

/-- A flush of a whole leading part ends the charges that wait in it, and counts them. -/
theorem flushBefore_append (p : Entry → Bool) (before rest : List Entry) : flushBefore p before.length (before ++ rest)
    = (before.map (Entry.flushedBy p) ++ rest, before.countP (fun b => b.waits && p b)) := by
  induction before with
  | nil => simp [flushBefore]
  | cons b r ih =>
    have hstep : flushBefore p (r.length + 1) (b :: (r ++ rest)) = if b.waits && p b
        then (b.flushed :: (flushBefore p r.length (r ++ rest)).1, (flushBefore p r.length (r ++ rest)).2 + 1)
        else (b :: (flushBefore p r.length (r ++ rest)).1, (flushBefore p r.length (r ++ rest)).2) := rfl
    rw [List.length_cons, List.cons_append, hstep, ih, List.map_cons, Entry.flushedBy]
    by_cases hb : (b.waits && p b) = true
    · rw [if_pos hb, if_pos hb, List.countP_cons_of_pos (p := fun b => b.waits && p b) hb]
      rfl
    · rw [if_neg hb, if_neg hb, List.countP_cons_of_neg (p := fun b => b.waits && p b) hb]
      rfl

theorem flushedBy_waits {p : Entry → Bool} {b : Entry} (hb : b.waits = true) (hp : p b = true) : b.flushedBy p = b.flushed :=
  if_pos (by rw [hb, hp]; rfl)

/-- A flush gives no entry an act to do. -/
theorem actsFor_flushedBy (q op : Nat) (p : Entry → Bool) {b : Entry} (hb : b.actsFor q op = false) : (b.flushedBy p).actsFor q op = false := by
  unfold Entry.flushedBy
  split
  · simp [Entry.actsFor, Entry.flushed]
  · exact hb

/-- The marks that a flushing charge sends to the running fabric charges before it. -/
def abortMarks (before : List Entry) (q : Nat) (abort : Bool) : List (Nat × Nat) :=
  if abort then (before.filter (fun b => b.dispatched && b.st = .waiting && isFabric b.opcode)).map (fun b => (q, b.cseq)) else []

/-- The context after the acceptance act of a flush: `e` is the acting entry. -/
def Ctx.flushActed (x : Ctx) (before rest : List Entry) (e : Entry) (marks : List (Nat × Nat)) : Ctx :=
  { x with entries := before.map (Entry.flushedBy fun _ => true) ++ { e with acted := true, result := before.countP Entry.waits } :: rest
           marks := x.marks ++ marks }

theorem actFlush_eq {s : State} {c q op : Nat} {e : Entry} {before rest : List Entry} (abort : Bool) (hacts : e.actsFor q op = true)
    (hentries : (getCtx s c).entries = before ++ e :: rest) (hbefore : ∀ b ∈ before, b.actsFor q op = false)
    (hpos : posOf (getCtx s c) q op = before.length) :
    actFlush s c q op abort = pumpAll (setCtx s c ((getCtx s c).flushActed before rest e (abortMarks before q abort))) c := by
  have hflush : flushBefore (fun _ => true) before.length (getCtx s c).entries
      = (before.map (Entry.flushedBy fun _ => true) ++ e :: rest, before.countP Entry.waits) := by
    rw [hentries, flushBefore_append]
    simp only [Bool.and_true]
  have hmarks : (if abort then ((before.filter (fun e => e.dispatched && e.st = .waiting && abortable e.opcode)).map Entry.cseq)
      else []).map (fun t => (q, t)) = abortMarks before q abort := by
    cases abort
    · rfl
    · exact List.map_map
  have hacted : ∀ x : Ctx, x.entries = before.map (Entry.flushedBy fun _ => true) ++ e :: rest →
      setActed x q op (before.countP Entry.waits) = { x with
        entries := before.map (Entry.flushedBy fun _ => true) ++ { e with acted := true, result := before.countP Entry.waits } :: rest } := by
    refine fun x hx => setActed_eq hx (fun b hb => ?_) hacts
    obtain ⟨a, ha, rfl⟩ := List.mem_map.1 hb
    exact actsFor_flushedBy q op _ (hbefore a ha)
  unfold actFlush
  dsimp only
  rw [hpos, hflush, hacted _ rfl]
  have htake : (getCtx s c).entries.take before.length = before := by rw [hentries, List.take_left]
  rw [htake, hmarks]
  rfl

/-- The acceptance act of a flush: the charges before it that wait are flushed and counted, and marks are sent for those that run. -/
theorem actFlush_acts {s : State} {c q op : Nat} {e : Entry} (abort : Bool) (hacc : accepted s c q op = some e) :
    let x := getCtx s c
    let k := posOf x q op
    let t := actFlush s c q op abort
    (∀ (i : Nat) (b : Entry), i < k → x.entries[i]? = some b → b.waits = true → (getCtx t c).entries[i]? = some b.flushed)
      ∧ (getCtx t c).entries[k]? = some { e with acted := true, result := (x.entries.take k).countP Entry.waits }
      ∧ (getCtx t c).marks = x.marks ++ abortMarks (x.entries.take k) q abort := by
  obtain ⟨hacts, before, rest, hentries, hbefore, hpos⟩ := accepted_spec hacc
  have hmoved : e.moved = true := by
    simp only [Entry.actsFor, Bool.and_eq_true] at hacts
    exact hacts.1.1.1.2
  dsimp only
  rw [actFlush_eq abort hacts hentries hbefore hpos, hpos, hentries, List.take_left]
  generalize hy : (getCtx s c).flushActed before rest e (abortMarks before q abort) = y
  have hp : Pumped c (setCtx s c y) (pumpAll (setCtx s c y) c) := pumped_pumpAll _ c
  have hctx : getCtx (setCtx s c y) c = y := getCtx_setCtx s c y
  have hes : y.entries = before.map (Entry.flushedBy fun _ => true) ++ { e with acted := true, result := before.countP Entry.waits } :: rest := hy ▸ rfl
  obtain ⟨-, -, -, hmarks⟩ := hp.fields
  refine ⟨fun i b hi hb hwaits => hp.entry_moved ?_ ?_, hp.entry_moved ?_ hmoved, ?_⟩
  · rw [List.getElem?_append_left hi] at hb
    rw [hctx, hes, List.getElem?_append_left (by rw [List.length_map]; exact hi), List.getElem?_map, hb, Option.map_some, flushedBy_waits hwaits rfl]
  · simp only [Entry.waits, Bool.and_eq_true] at hwaits
    exact hwaits.1.1
  · rw [hctx, hes, List.getElem?_append_right (by rw [List.length_map]), List.length_map, Nat.sub_self]
    rfl
  · rw [hmarks, hctx, ← hy]
    rfl

/-! ## What the stop of a charge leaves of the retire stage (R81, R108) -/

/-- What the marks of a context find: the marks on their way, and the numbers and states of its entries. -/
def Ctx.stage (x : Ctx) : List (Nat × Nat) × List (Nat × EntrySt) := (x.marks, x.entries.map fun e => (e.cseq, e.st))

def SameStage (s t : State) : Prop := ∀ c, (getCtx t c).stage = (getCtx s c).stage

theorem SameStage.trans {s t u : State} (h : SameStage s t) (k : SameStage t u) : SameStage s u := fun c => (k c).trans (h c)

theorem sameStage_of_ctxs {s t : State} (h : t.ctxs = s.ctxs) : SameStage s t := fun c => by rw [getCtx, h]; rfl

theorem map_updFirst {α β : Type} {p : α → Bool} {f : α → α} {g : α → β} (h : ∀ x, g (f x) = g x) (l : List α) :
    (updFirst p f l).map g = l.map g := by
  induction l with
  | nil => rfl
  | cons x r ih =>
    unfold updFirst
    split
    · rw [List.map_cons, h, List.map_cons]
    · rw [List.map_cons, ih, List.map_cons]

theorem sameStage_modRunning (s : State) (c q : Nat) {f : Entry → Entry} (h : ∀ e, (f e).cseq = e.cseq ∧ (f e).st = e.st) :
    SameStage s (modRunning s c q f) := by
  intro k
  by_cases hk : k = c
  · subst hk
    rw [modRunning, getCtx_modCtx, Ctx.stage, Ctx.stage,
      map_updFirst (g := fun e : Entry => (e.cseq, e.st)) fun e => Prod.ext (h e).1 (h e).2]
  · have hctx : getCtx (modRunning s c q f) k = getCtx s k := getCtx_setCtx_ne s hk _
    rw [hctx]

theorem sameStage_report (s : State) (c q st r : Nat) : SameStage s (report s c q st r) := sameStage_modRunning s c q fun _ => ⟨rfl, rfl⟩

theorem sameStage_finishItems (s : State) (c q : Nat) : SameStage s (finishItems s c q) := by
  unfold finishItems
  split
  · split
    · split
      · exact sameStage_report s c q _ _
      · exact sameStage_of_ctxs rfl
    · exact sameStage_of_ctxs rfl
  · exact sameStage_of_ctxs rfl

theorem sameStage_removeItems (s : State) (c q : Nat) (ls : List Nat) : SameStage s (removeItems s c q ls) :=
  .trans (sameStage_modRunning s c q (f := fun e => { e with items := e.items.filter (fun l => !ls.contains l) }) fun _ => ⟨rfl, rfl⟩)
    (sameStage_finishItems _ c q)

theorem sameStage_stopCharge (s : State) (c q : Nat) : SameStage s (stopCharge s c q) := by
  unfold stopCharge dropQueued
  dsimp only
  split
  · exact sameStage_of_ctxs rfl
  · exact .trans (sameStage_of_ctxs rfl) (sameStage_removeItems _ c q _)

theorem sendEnds_ctxs (s : State) (k : Coll) (status : Nat) : (sendEnds s k status).ctxs = s.ctxs := by
  have hsend : ∀ (one : State → Nat × Nat → State), (∀ t d, (one t d).ctxs = t.ctxs) → ∀ (l : List (Nat × Nat)) (t : State),
      (l.foldl one t).ctxs = t.ctxs := fun one h l t => foldl_keeps (P := fun u : State => u.ctxs = t.ctxs) (fun u d hu => (h u d).trans hu) l rfl
  unfold sendEnds
  extract_lets g w n r one u
  have hone : ∀ t d, (one t d).ctxs = t.ctxs := fun t d => (sparesLinks_sendAfiup t _ _ _ _).ctxs
  split
  · rfl
  · split
    · exact hsend one hone _ s
    · rfl
    · have hu : u.ctxs = s.ctxs := by
        simp only [u]
        split
        · rfl
        · exact hsend one hone _ s
      split
      · exact (hsend one hone _ u).trans hu
      · exact hu

theorem spoilDst_ctxs (s : State) (k : Coll) : (spoilDst s k).ctxs = s.ctxs := by
  unfold spoilDst
  split
  · split <;> rfl
  · rfl

theorem sameStage_stopColl (s : State) (k : Coll) (status : Nat) : SameStage s (stopColl s k status) := by
  have hspoil : SameStage s (spoilDst s k) := sameStage_of_ctxs (spoilDst_ctxs s k)
  have hdrop : SameStage (spoilDst s k) { withdrawGroup (spoilDst s k) k.group with
      colls := (withdrawGroup (spoilDst s k) k.group).colls.filter (fun x => !(x.ctx = k.ctx && x.cseq = k.cseq)) } := sameStage_of_ctxs rfl
  refine .trans (hspoil.trans hdrop) (.trans (sameStage_modRunning _ k.ctx k.cseq fun e => ?_)
    (.trans (sameStage_stopCharge _ k.ctx k.cseq) (sameStage_finishItems _ k.ctx k.cseq)))
  split <;> exact ⟨rfl, rfl⟩

theorem sameStage_abortRunning (s : State) (c q : Nat) : SameStage s (abortRunning s c q) := by
  unfold abortRunning
  split
  · exact .trans (sameStage_of_ctxs (sendEnds_ctxs s _ _)) (sameStage_stopColl _ _ _)
  · exact sameStage_stopCharge s c q

/-- An entry's number and state are found again. -/
theorem SameStage.entry {s t : State} (h : SameStage s t) {c : Nat} {b : Entry} (hb : b ∈ (getCtx s c).entries) :
    ∃ b' ∈ (getCtx t c).entries, b'.cseq = b.cseq ∧ b'.st = b.st := by
  have hentries := congrArg Prod.snd (h c)
  have hmem : (b.cseq, b.st) ∈ (getCtx t c).entries.map fun e => (e.cseq, e.st) := by
    rw [show (getCtx t c).entries.map (fun e => (e.cseq, e.st)) = _ from hentries]
    exact List.mem_map_of_mem hb
  obtain ⟨b', hb', heq⟩ := List.mem_map.1 hmem
  exact ⟨b', hb', congrArg Prod.fst heq, congrArg Prod.snd heq⟩

theorem SameStage.marks {s t : State} (h : SameStage s t) (c : Nat) : (getCtx t c).marks = (getCtx s c).marks := congrArg Prod.fst (h c)

theorem Pumped.member {c : Nat} {s t : State} (h : Pumped c s t) {b : Entry} (hb : b ∈ (getCtx s c).entries) :
    ∃ b' ∈ (getCtx t c).entries, b'.cseq = b.cseq ∧ b'.st = b.st ∧ b'.status = b.status := by
  obtain ⟨i, hi⟩ := List.getElem?_of_mem hb
  obtain ⟨b', hb', hm⟩ := h.entry hi
  refine ⟨b', List.mem_of_getElem? hb', ?_⟩
  rcases hm with rfl | ⟨-, rfl⟩ <;> exact ⟨rfl, rfl, rfl⟩

/-! ## Abort marks (R80, R81) -/

/-- What a mark that finds its target makes of the target: a queued one is finished, a running one is ABORT_PENDING. -/
def markTarget (m : Nat × Nat) (k : Nat) (es : List Entry) : List Entry :=
  if k = 1 then updFirst (fun e => e.cseq = m.2 && !e.dispatched && e.st = .waiting)
    (fun e => { e with st := .finished, status := Status.chargeAborted }) es
  else if k = 2 then updFirst (fun e => e.cseq = m.2 && e.dispatched && e.st = .waiting) (fun e => { e with st := .abortPending }) es
  else es

/-- The abort that sent the mark counts what it found. -/
def markCounted (m : Nat × Nat) (k : Nat) (es : List Entry) : List Entry :=
  if k = 0 then es else updFirst (fun e => e.cseq = m.1 && e.acted && e.st = .waiting) (fun e => { e with result := e.result + 1 }) es

/-- The context after the first mark has reached the retire stage. -/
def Ctx.marked (x : Ctx) (m : Nat × Nat) (rest : List (Nat × Nat)) : Ctx :=
  { x with marks := rest, entries := markCounted m (markFinds x m) (markTarget m (markFinds x m) x.entries) }

theorem exec_abortMark {s : State} {c : Nat} {m : Nat × Nat} {rest : List (Nat × Nat)} (h : (getCtx s c).marks = m :: rest) :
    exec (.abortMark c) s = .next (pumpAll (if markFinds (getCtx s c) m = 2 then abortRunning (setCtx s c ((getCtx s c).marked m rest)) c m.2
      else setCtx s c ((getCtx s c).marked m rest)) c) := by
  change execAbortMark c s = _
  unfold execAbortMark
  dsimp only
  rw [h]
  rfl

theorem mem_markCounted {m : Nat × Nat} {k : Nat} {es : List Entry} {b : Entry} (h : b ∈ es) :
    ∃ b' ∈ markCounted m k es, b'.cseq = b.cseq ∧ b'.st = b.st ∧ b'.status = b.status := by
  unfold markCounted
  split
  · exact ⟨b, h, rfl, rfl, rfl⟩
  · rcases mem_updFirst (fun e => e.cseq = m.1 && e.acted && e.st = .waiting) (fun e => { e with result := e.result + 1 }) h with hb | hb
    · exact ⟨b, hb, rfl, rfl, rfl⟩
    · exact ⟨_, hb, rfl, rfl, rfl⟩

theorem markFinds_queued {x : Ctx} {m : Nat × Nat} (h : markFinds x m = 1) :
    ∃ b ∈ x.entries, b.cseq = m.2 ∧ b.dispatched = false ∧ b.st = .waiting := by
  unfold markFinds at h
  split at h
  case h_1 => cases h
  case h_2 e hfind =>
    have hcseq := List.find?_some hfind
    simp only [Bool.and_eq_true, decide_eq_true_eq] at hcseq
    split at h
    · cases h
    · split at h
      case isTrue hq =>
        simp only [Bool.and_eq_true, Bool.not_eq_true', decide_eq_true_eq] at hq
        exact ⟨e, List.mem_of_find?_eq_some hfind, hcseq.1.1, hq.1, hq.2⟩
      case isFalse => split at h <;> cases h

theorem markFinds_running {x : Ctx} {m : Nat × Nat} (h : markFinds x m = 2) :
    ∃ b ∈ x.entries, b.cseq = m.2 ∧ b.dispatched = true ∧ b.st = .waiting := by
  unfold markFinds at h
  split at h
  case h_1 => cases h
  case h_2 e hfind =>
    have hcseq := List.find?_some hfind
    simp only [Bool.and_eq_true, decide_eq_true_eq] at hcseq
    split at h
    · cases h
    · split at h
      · cases h
      · split at h
        case isTrue hr =>
          simp only [Bool.and_eq_true, decide_eq_true_eq] at hr
          exact ⟨e, List.mem_of_find?_eq_some hfind, hcseq.1.1, hr.1.1, hr.1.2⟩
        case isFalse => cases h

/-- A queued target ends as aborted. -/
theorem mem_marked_queued {x : Ctx} {m : Nat × Nat} (rest : List (Nat × Nat)) (h : markFinds x m = 1) :
    ∃ b ∈ (x.marked m rest).entries, b.cseq = m.2 ∧ b.st = .finished ∧ b.status = Status.chargeAborted := by
  obtain ⟨b, hb, hcseq, hdisp, hst⟩ := markFinds_queued h
  obtain ⟨y, -, hpass, hmem⟩ := exists_mem_updFirst (fun e => e.cseq = m.2 && !e.dispatched && e.st = .waiting)
    (fun e => { e with st := .finished, status := Status.chargeAborted }) hb (by simp [hcseq, hdisp, hst])
  have hy : y.cseq = m.2 := by
    simp only [Bool.and_eq_true, decide_eq_true_eq] at hpass
    exact hpass.1.1
  have htarget : { y with st := .finished, status := Status.chargeAborted } ∈ markTarget m (markFinds x m) x.entries := by
    rw [h]
    exact hmem
  obtain ⟨b', hb', hcseq', hst', hstatus'⟩ := mem_markCounted (m := m) (k := markFinds x m) htarget
  exact ⟨b', hb', hcseq'.trans hy, hst', hstatus'⟩

/-- A running target is ABORT_PENDING. -/
theorem mem_marked_running {x : Ctx} {m : Nat × Nat} (rest : List (Nat × Nat)) (h : markFinds x m = 2) :
    ∃ b ∈ (x.marked m rest).entries, b.cseq = m.2 ∧ b.st = .abortPending := by
  obtain ⟨b, hb, hcseq, hdisp, hst⟩ := markFinds_running h
  obtain ⟨y, -, hpass, hmem⟩ := exists_mem_updFirst (fun e => e.cseq = m.2 && e.dispatched && e.st = .waiting)
    (fun e => { e with st := .abortPending }) hb (by simp [hcseq, hdisp, hst])
  have hy : y.cseq = m.2 := by
    simp only [Bool.and_eq_true, decide_eq_true_eq] at hpass
    exact hpass.1.1
  have htarget : { y with st := .abortPending } ∈ markTarget m (markFinds x m) x.entries := by
    rw [h]
    exact hmem
  obtain ⟨b', hb', hcseq', hst', -⟩ := mem_markCounted (m := m) (k := markFinds x m) htarget
  exact ⟨b', hb', hcseq'.trans hy, hst'⟩

theorem abortMark_reaches {s : State} {c : Nat} {m : Nat × Nat} {rest : List (Nat × Nat)} (h : (getCtx s c).marks = m :: rest)
    (hmoved : (getCtx s c).entries.all Entry.moved = true) :
    let x := getCtx s c
    ∃ t, exec (.abortMark c) s = .next t ∧ (getCtx t c).marks = rest
      ∧ (markFinds x m = 0 → (getCtx t c).entries = x.entries)
      ∧ (markFinds x m = 1 → ∃ b ∈ (getCtx t c).entries, b.cseq = m.2 ∧ b.st = .finished ∧ b.status = Status.chargeAborted)
      ∧ (markFinds x m = 2 → ∃ b ∈ (getCtx t c).entries, b.cseq = m.2 ∧ b.st = .abortPending) := by
  intro x
  refine ⟨_, exec_abortMark h, ?_⟩
  have hset : getCtx (setCtx s c (x.marked m rest)) c = x.marked m rest := getCtx_setCtx s c _
  by_cases hk : markFinds x m = 2
  · rw [if_pos hk]
    have hstage := sameStage_abortRunning (setCtx s c (x.marked m rest)) c m.2
    have hp := pumped_pumpAll (abortRunning (setCtx s c (x.marked m rest)) c m.2) c
    obtain ⟨-, -, -, hmarks⟩ := hp.fields
    refine ⟨?_, fun hn => absurd (hk.symm.trans hn) (by decide), fun hn => absurd (hk.symm.trans hn) (by decide), fun _ => ?_⟩
    · rw [hmarks, hstage.marks, hset]
      rfl
    · obtain ⟨b, hb, hcseq, hst⟩ := mem_marked_running rest hk
      obtain ⟨b', hb', hcseq', hst'⟩ := hstage.entry (c := c) (by rw [hset]; exact hb)
      obtain ⟨b'', hb'', hcseq'', hst'', -⟩ := hp.member hb'
      exact ⟨b'', hb'', hcseq''.trans (hcseq'.trans hcseq), hst''.trans (hst'.trans hst)⟩
  · rw [if_neg hk]
    have hp := pumped_pumpAll (setCtx s c (x.marked m rest)) c
    obtain ⟨-, -, -, hmarks⟩ := hp.fields
    refine ⟨?_, fun hn => ?_, fun hn => ?_, fun hn => absurd hn hk⟩
    · rw [hmarks, hset]
      rfl
    · have hsame : (x.marked m rest).entries = x.entries := by
        rw [Ctx.marked, hn]
        rfl
      rw [pumpAll_idle (by rw [hset, hsame]; exact hmoved), hset, hsame]
    · obtain ⟨b, hb, hcseq, hst, hstatus⟩ := mem_marked_queued rest hn
      obtain ⟨b', hb', hcseq', hst', hstatus'⟩ := hp.member (by rw [hset]; exact hb)
      exact ⟨b', hb', hcseq'.trans hcseq, hst'.trans hst, hstatus'.trans hstatus⟩

/-! ## The charges -/

theorem exec_hopperFlush_acts {s : State} {c q : Nat} {e : Entry} (hacc : accepted s c q 0x005 = some e) (hres : e.reserved = false)
    (htail : tailZero e 0 = true) : exec (.hopperFlush c q) s = .next (actFlush s c q 0x005 false) := by
  change execHopperFlush c q s = _
  unfold execHopperFlush
  rw [hacc]
  dsimp only
  rw [hres, htail]
  rfl

theorem exec_hopperFlush_reports {s : State} {c q : Nat} {e : Entry} (hacc : accepted s c q 0x005 = none) (hrun : running s c q 0x005 = some e)
    (htail : tailZero e 0 = true) : exec (.hopperFlush c q) s = .next (report s c q 0 e.result) := by
  change execHopperFlush c q s = _
  unfold execHopperFlush
  rw [hacc]
  exact congrArg _ ((onCharge_running _ hrun).trans (if_pos htail))

theorem admitReset_none {s : State} {c q : Nat} (h : (getCtx s c).arrivals = []) : admitReset s c q = s := by
  have hfirst : firstArrival (getCtx s c) 0x004 = none := by rw [firstArrival, h]
  unfold admitReset
  dsimp only
  rw [hfirst]

/-- The parameters of CTX_RESET and CHARGE_ABORT: one 32-bit number. -/
theorem numberOnly {e : Entry} (hnum : pw e 0 < 2 ^ 32) (htail : tailZero e 8 = true) : (pw e 0 / 2 ^ 32 = 0 && tailZero e 8) = true := by
  rw [htail, Nat.div_eq_of_lt hnum]
  rfl

theorem exec_ctxReset_acts {s : State} {c q : Nat} {e : Entry} (harr : (getCtx s c).arrivals = []) (hacc : accepted s c q 0x004 = some e)
    (hres : e.reserved = false) (hnum : pw e 0 < 2 ^ 32) (htail : tailZero e 8 = true) :
    exec (.ctxReset c q) s = .next (actFlush s c q 0x004 true) := by
  change execCtxReset c q s = _
  unfold execCtxReset
  dsimp only
  rw [admitReset_none harr, hacc]
  dsimp only
  rw [hres, numberOnly hnum htail]
  rfl

theorem exec_ctxReset_reports {s : State} {c q : Nat} {e : Entry} (harr : (getCtx s c).arrivals = []) (hacc : accepted s c q 0x004 = none)
    (hrun : running s c q 0x004 = some e) (hnum : pw e 0 < 2 ^ 32) (htail : tailZero e 8 = true) :
    exec (.ctxReset c q) s = .next (report s c q 0 e.result) := by
  change execCtxReset c q s = _
  unfold execCtxReset
  dsimp only
  rw [admitReset_none harr, hacc]
  exact congrArg _ ((onCharge_running _ hrun).trans (if_pos (numberOnly hnum htail)))

theorem chargeAbort_marks {s : State} {c q : Nat} {e : Entry} (hacc : accepted s c q 0x006 = some e) (hres : e.reserved = false)
    (hnum : pw e 0 < 2 ^ 32) (htail : tailZero e 8 = true) :
    ∃ t, exec (.chargeAbort c q) s = .next t ∧ (getCtx t c).marks = (getCtx s c).marks ++ [(q, pw e 0)] ∧ { t with ctxs := s.ctxs } = s := by
  have hexec : exec (.chargeAbort c q) s = .next (setCtx s c { setActed (getCtx s c) q 0x006 0 with
      marks := (getCtx s c).marks ++ [(q, fld (pw e 0) 31 0)] }) := by
    change execChargeAbort c q s = _
    unfold execChargeAbort
    rw [hacc]
    dsimp only
    rw [hres, numberOnly hnum htail]
    rfl
  refine ⟨_, hexec, ?_, rfl⟩
  rw [getCtx_setCtx, fld, Nat.shiftRight_zero, Nat.mod_eq_of_lt hnum]

theorem exec_chargeAbort_reports {s : State} {c q : Nat} {e : Entry} (hacc : accepted s c q 0x006 = none) (hrun : running s c q 0x006 = some e)
    (hnum : pw e 0 < 2 ^ 32) (htail : tailZero e 8 = true) :
    exec (.chargeAbort c q) s = .next (if e.result = 0 then report s c q Status.nothingToAbort 0 else report s c q 0 1) := by
  change execChargeAbort c q s = _
  unfold execChargeAbort
  rw [hacc]
  refine congrArg _ ((onCharge_running _ hrun).trans (if_neg ?_))
  rw [numberOnly hnum htail]
  decide

end Sys2Proof.Machine

open Sys2Proof Sys2Proof.Machine

/-- Settles O25: the acceptance acts, the mark at the retire stage, and the reports of the dispatched charges. -/
theorem flushesAndAbortsActOnEarlierCharges : Obligations.FlushesAndAbortsActOnEarlierCharges := by
  intro s c q x waits
  refine ⟨fun op hop e harr hacc hres htail hnum => ?_, fun e => chargeAbort_marks, fun m rest hmarks hmoved => ?_,
    fun hacc e => exec_hopperFlush_reports hacc, fun hacc harr e hrun htail hnum => exec_ctxReset_reports harr hacc hrun hnum htail,
    fun hacc e hrun htail hnum => exec_chargeAbort_reports hacc hrun hnum htail, fun e hrun => congrArg _ (onCharge_running _ hrun)⟩
  · simp only [List.mem_cons, List.not_mem_nil, or_false] at hop
    rcases hop with rfl | rfl
    · exact ⟨_, exec_ctxReset_acts harr hacc hres (hnum rfl) htail, actFlush_acts true hacc⟩
    · exact ⟨_, exec_hopperFlush_acts hacc hres htail, actFlush_acts false hacc⟩
  · obtain ⟨t, hexec, hrest, hnothing, hqueued, hrunning⟩ := abortMark_reaches hmarks hmoved
    exact ⟨t, hexec, hrest, hnothing, hqueued, fun hk _ => hrunning hk⟩

end

section
/-! Contexts open, change hands and close (R59, R60, R72 to R74). -/

namespace Sys2Proof.Machine

open Sys2Proof.Claims

/-! ## Charges that arrive out of order (R59, R72) -/

theorem firstArrival_some {x : Ctx} {p : HostPort} {d : List Byte} {op : Nat} (harr : x.arrivals = [(p, d)]) (hop : (parseEntry d).opcode = op) :
    firstArrival x op = some (p, parseEntry d, d) := by
  rw [firstArrival, harr]
  exact if_pos hop

/-- The ring that an open or takeover charge names begins at a page (R72). -/
theorem openFieldsOk_page {e : Entry} {isOpen : Bool} (h : openFieldsOk e isOpen = true) : pw e 0 / 4096 * 4096 = pw e 0 := by
  simp only [openFieldsOk, Bool.and_eq_true, decide_eq_true_eq] at h
  exact Nat.div_mul_cancel (Nat.dvd_of_mod_eq_zero h.1.1.1.1.1.1.1.1.1.1.1.1.2)

theorem slot0_ctxs (s : State) (p : HostPort) (c : Nat) (e : Entry) (status result : Nat) : (slot0 s p c e status result).ctxs = s.ctxs := by
  unfold slot0
  split <;> rfl

theorem getCtx_slot0 (s : State) (p : HostPort) (c : Nat) (e : Entry) (status result k : Nat) :
    getCtx (slot0 s p c e status result) k = getCtx s k := by rw [getCtx, slot0_ctxs]; rfl

/-- The record of an open charge goes to slot 0 of the ring that it names. -/
theorem slot0_out {s : State} {p : HostPort} (c : Nat) {e : Entry} (status : Nat) {isOpen : Bool} (hmaster : canMaster s p = true)
    (hfields : openFieldsOk e isOpen = true) :
    (slot0 s p c e status 0).out = .hostWrite p (pw e 0) (recBytes c (openRec s e status) true) :: s.out := by
  rw [slot0, if_pos hmaster, openFieldsOk_page hfields]
  rfl

theorem mem_tput {β : Type} {t : Tab β} {i : Nat} {v : β} {e : Nat × β} (h : e ∈ tput t i v) : e = (i, v) ∨ e ∈ t := by
  induction t with
  | nil => exact .inl (List.mem_singleton.1 h)
  | cons a r ih =>
    obtain ⟨k, w⟩ := a
    unfold tput at h
    split at h
    · exact List.mem_cons.1 h
    · split at h
      · exact (List.mem_cons.1 h).imp_right (List.mem_cons_of_mem _)
      · rcases List.mem_cons.1 h with rfl | hr
        · exact .inr List.mem_cons_self
        · exact (ih hr).imp_right (List.mem_cons_of_mem _)

/-- A closed context adds no hopper region. -/
theorem inHopper_setCtx_closed {s : State} {a n : Nat} (c : Nat) {x : Ctx} (hx : x.st = .closed) (h : inHopper s a n = false) :
    inHopper (setCtx s c x) a n = false := by
  rw [inHopper, List.any_eq_false] at h ⊢
  intro e he
  rcases mem_tput he with rfl | hmem
  · simp [hx]
  · exact h e hmem

/-! ## CTX_OPEN (R60, R72) -/

/-- The checks of a CTX_OPEN (R72), of the state whose arrival has been taken. -/
def openStatus (s : State) (x : Ctx) (e : Entry) : Nat :=
  firstFail [(openFieldsOk e true, Status.fieldReserved), (x.st = .closed, Status.contextOwned),
    (pw e 0x18 % 2 ^ fld (pw e 0x20) 9 5 = 0 && !inHopper s (pw e 0x18) (2 ^ fld (pw e 0x20) 9 5), Status.hopperRegionInvalid),
    (inFast s (pw e 0x18) (2 ^ fld (pw e 0x20) 9 5), Status.addressUnpopulated)]

section
variable {s : State} {c : Nat} {p : HostPort} {d : List Byte} (harr : (getCtx s c).arrivals = [(p, d)])
include harr

theorem exec_ctxOpen (hop : (parseEntry d).opcode = 0x001) (hquiet : (parseEntry d).notify = false) :
    let e := parseEntry d
    let u := setCtx s c { getCtx s c with arrivals := [] }
    exec (.ctxOpen c) s = .next (if openStatus u (getCtx s c) e ≠ 0 then slot0 u p c e (openStatus u (getCtx s c) e) 0
      else setCtx (slot0 u p c e 0 0) c (openedCtx p e)) := by
  change execCtxOpen c s = _
  unfold execCtxOpen
  dsimp only
  rw [firstArrival_some harr hop]
  dsimp only
  have hnone : (bitOf (pw (parseEntry d) 0x20) 12 && (parseEntry d).notify) = false := by rw [hquiet, Bool.and_false]
  rw [hnone, harr]
  rfl

theorem ctxOpen_refused (hop : (parseEntry d).opcode = 0x001) (hfields : openFieldsOk (parseEntry d) true = true)
    (hquiet : (parseEntry d).notify = false) (hmaster : canMaster s p = true) (hst : (getCtx s c).st ≠ .closed) :
    ∃ t, exec (.ctxOpen c) s = .next t ∧ getCtx t c = { getCtx s c with arrivals := [] }
      ∧ t.out = .hostWrite p (pw (parseEntry d) 0) (recBytes c (openRec s (parseEntry d) Status.contextOwned) true) :: s.out := by
  have hstatus : ∀ u, openStatus u (getCtx s c) (parseEntry d) = Status.contextOwned := fun u => by
    rw [openStatus, firstFail_cons, if_pos hfields, firstFail_cons, if_neg (by simp [hst])]
  refine ⟨_, (exec_ctxOpen harr hop hquiet).trans (congrArg _ (if_pos (by rw [hstatus]; decide))), ?_, ?_⟩
  · rw [getCtx_slot0, getCtx_setCtx]
  · rw [hstatus]
    exact slot0_out c _ hmaster hfields

theorem ctxOpen_opens (hop : (parseEntry d).opcode = 0x001) (hfields : openFieldsOk (parseEntry d) true = true)
    (hquiet : (parseEntry d).notify = false) (hmaster : canMaster s p = true) (hst : (getCtx s c).st = .closed)
    (halign : pw (parseEntry d) 0x18 % 2 ^ fld (pw (parseEntry d) 0x20) 9 5 = 0)
    (hfree : inHopper s (pw (parseEntry d) 0x18) (2 ^ fld (pw (parseEntry d) 0x20) 9 5) = false)
    (hfast : inFast s (pw (parseEntry d) 0x18) (2 ^ fld (pw (parseEntry d) 0x20) 9 5) = true) :
    ∃ t, exec (.ctxOpen c) s = .next t ∧ getCtx t c = openedCtx p (parseEntry d)
      ∧ t.out = .hostWrite p (pw (parseEntry d) 0) (recBytes c (openRec s (parseEntry d) 0) true) :: s.out := by
  have hfree' := inHopper_setCtx_closed c (x := { getCtx s c with arrivals := [] }) hst hfree
  have hfast' : inFast (setCtx s c { getCtx s c with arrivals := [] }) (pw (parseEntry d) 0x18) (2 ^ fld (pw (parseEntry d) 0x20) 9 5) = true := hfast
  have hstatus : openStatus (setCtx s c { getCtx s c with arrivals := [] }) (getCtx s c) (parseEntry d) = 0 := by
    rw [openStatus, firstFail_cons, if_pos hfields, firstFail_cons, if_pos (decide_eq_true hst), firstFail_cons,
      if_pos (by rw [hfree', halign]; rfl), firstFail_cons, if_pos hfast', firstFail_nil]
  refine ⟨_, (exec_ctxOpen harr hop hquiet).trans (congrArg _ (if_neg (not_not.2 hstatus))), getCtx_setCtx _ c _, ?_⟩
  exact slot0_out (s := setCtx s c { getCtx s c with arrivals := [] }) c 0 hmaster hfields

/-! ## CTX_TAKEOVER (R60, R73) -/

theorem exec_ctxTakeover (hop : (parseEntry d).opcode = 0x003) (hfields : openFieldsOk (parseEntry d) false = true)
    (hst : (getCtx s c).st = .orphaned ∨ (getCtx s c).st = .faulted) (hnone : (getCtx s c).takeover = none) :
    exec (.ctxTakeover c) s = .next (setCtx s c { getCtx s c with arrivals := [], takeover := some (p, d) }) := by
  have hfree : (((getCtx s c).st = .orphaned || (getCtx s c).st = .faulted || ((getCtx s c).st = .opened && bitOf (pw (parseEntry d) 0x28) 32
      && (getCtx s c).forceAllowed)) && (getCtx s c).takeover.isNone) = true := by
    rcases hst with h | h <;> simp [h, hnone]
  change execCtxTakeover c s = _
  unfold execCtxTakeover
  dsimp only
  rw [firstArrival_some harr hop]
  dsimp only
  rw [hfree, hfields, harr, setCtx_setCtx]
  rfl

end

/-! ## The charge boundary (R73) -/

/-- A context whose charges all stand in the hopper, the next place there at `pos`. -/
def Ctx.accepted (x : Ctx) (pos : Nat) : Ctx := { x with entries := x.entries.map (fun e => { e with moved := true }), hopPos := pos }

/-- Charges accepted when a context changes hands or is reset stand in its hopper; nothing else of it differs but the place for the next. -/
theorem getCtx_acceptWaiting (s : State) (c : Nat) : ∃ pos, getCtx (acceptWaiting s c) c = (getCtx s c).accepted pos := by
  have hfold : ∀ es : List Entry, ∃ pos, getCtx (es.foldl (fun s e => enterHopper s c e) s) c = { getCtx s c with hopPos := pos } := by
    refine fun es => foldl_keeps (P := fun t => ∃ pos, getCtx t c = { getCtx s c with hopPos := pos }) (fun t e ⟨pos, ht⟩ => ?_) es ⟨_, rfl⟩
    rw [getCtx_enterHopper, getCtx_hopperStore, ht]
    exact ⟨_, rfl⟩
  obtain ⟨pos, hpos⟩ := hfold ((getCtx s c).entries.filter (fun e => !e.moved && e.size ≠ 0))
  refine ⟨pos, (getCtx_modCtx _ c _).trans ?_⟩
  rw [hpos]
  rfl

theorem writeHeld_none {s : State} {c : Nat} (h : (getCtx s c).held = []) (n : Nat) : writeHeld s c n = s := by
  cases n with
  | zero => rfl
  | succ n =>
    unfold writeHeld
    dsimp only
    rw [h]

theorem getCtx_dropRing (s : State) (c k : Nat) : getCtx (dropRing s c) k = getCtx s k := by
  unfold dropRing
  split
  · split <;> rfl
  · rfl

/-- The host-memory charges, which a takeover flushes (R73). -/
def hostCharge (e : Entry) : Bool := e.opcode = 0x110 || e.opcode = 0x111

/-- The context that a takeover hands to its new port. -/
def Ctx.takenOver (x : Ctx) (p : HostPort) (e : Entry) : Ctx :=
  { x with st := .opened, owner := p, ringBase := pw e 0, ringLog2 := fld (pw e 0x20) 4 0, consAddr := pw e 8, shadow := pw e 0x10
           msixEn := bitOf (pw e 0x20) 12, msixVec := fld (pw e 0x20) 47 32, tail := 0, head := 0, partialBuf := [], written := 1, consumed := 0
           pollTime := 0, takeover := none, entries := (flushBefore hostCharge x.entries.length x.entries).1 }

/-- TAKEOVER_APPLY with no held record. -/
theorem takeoverApply_hands {s : State} {c : Nat} {p : HostPort} {d : List Byte} (h : (getCtx s c).takeover = some (p, d))
    (hheld : (getCtx s c).held = []) : ∃ t pos, exec (.takeoverApply c) s = .next t
      ∧ getCtx t c = ((getCtx s c).accepted pos).takenOver p (parseEntry d) := by
  obtain ⟨pos, hpos⟩ := getCtx_acceptWaiting s c
  let e := parseEntry d
  let w := pw e 0x20
  let s1 := slot0 (acceptWaiting s c) p c e 0 ((getCtx s c).lastCseq * 2 ^ 32 + (getCtx s c).nextCseq)
  let s2 := setCtx s1 c ((getCtx s1 c).takenOver p e)
  let s3 := if bitOf w 12 && e.notify then raiseMsix s2 p (fld w 47 32) else s2
  have hexec : exec (.takeoverApply c) s = .next (writeHeld (dropRing s3 c) c 64) := by
    change execTakeoverApply c s = _
    unfold execTakeoverApply
    dsimp only
    rw [h]
    rfl
  have h1 : getCtx s1 c = (getCtx s c).accepted pos :=
    (getCtx_slot0 _ p c e 0 _ c).trans hpos
  have h3 : getCtx (dropRing s3 c) c = (getCtx s1 c).takenOver p e := by
    have hctxs : s3.ctxs = s2.ctxs := by
      simp only [s3]
      split
      · exact raiseMsix_ctxs _ _ _
      · rfl
    rw [getCtx_dropRing, getCtx, hctxs]
    exact getCtx_setCtx s1 c _
  have hnone : (getCtx (dropRing s3 c) c).held = [] := by
    rw [h3, h1]
    exact hheld
  rw [writeHeld_none hnone] at hexec
  exact ⟨_, pos, hexec, h3.trans (congrArg (Ctx.takenOver · p e) h1)⟩

/-- Every waiting host-memory charge is flushed at the boundary. -/
theorem takenOver_flushes {x : Ctx} (p : HostPort) (e : Entry) {pos i : Nat} {b : Entry} (hb : x.entries[i]? = some b)
    (hdisp : b.dispatched = false) (hst : b.st = .waiting) (hop : b.opcode = 0x110 ∨ b.opcode = 0x111) :
    (((x.accepted pos).takenOver p e).entries[i]?).map Entry.status = some Status.chargeFlushed := by
  have hflush := flushBefore_append hostCharge (x.entries.map (fun e => { e with moved := true })) []
  rw [List.append_nil, List.append_nil] at hflush
  have hwaits : ({ b with moved := true } : Entry).waits = true := by simp [Entry.waits, hdisp, hst]
  have hhost : hostCharge { b with moved := true } = true := by simpa [hostCharge] using hop
  rw [Ctx.takenOver, Ctx.accepted, hflush, List.getElem?_map, List.getElem?_map, hb, Option.map_some, Option.map_some, flushedBy_waits hwaits hhost]
  rfl

/-! ## Closure and reset at retirement (R60, R74) -/

section
variable {e : Entry} (hsize : e.size ≠ 0) (hfin : e.st = .finished) (hok : e.status = 0) {c : Nat} (hc : c < 1024)
include hsize hfin hok hc

theorem retireEffect_acts : ¬(e.size = 0 ∨ e.st = .abortPending ∨ e.status ≠ 0 ∨ c = replayCtx) := by
  have hne : c ≠ replayCtx := Nat.ne_of_lt hc
  rintro (h | h | h | h)
  · exact hsize h
  · exact EntrySt.noConfusion (hfin.symm.trans h)
  · exact h hok
  · exact hne h

theorem getCtx_retireEffect_close (hop : e.opcode = 0x002) (s : State) : getCtx (retireEffect s c e) c
    = { getCtx s c with st := .closed, entries := [], partialBuf := [], marks := [], held := [], takeover := none } := by
  rw [retireEffect, if_neg (retireEffect_acts hsize hfin hok hc), if_pos hop, getCtx_dropRing, getCtx_modCtx]
  split <;> rfl

theorem getCtx_retireEffect_reset (hop : e.opcode = 0x004) (s : State) : getCtx (retireEffect s c e) c
    = { getCtx s c with st := if (getCtx s c).st = .orphaned then .orphaned else .opened, tail := 0, head := 0, partialBuf := []
                        nextCseq := fld (pw e 0) 31 0, entries := (getCtx s c).entries.filter Entry.moved } := by
  rw [retireEffect, if_neg (retireEffect_acts hsize hfin hok hc), if_neg (by rw [hop]; decide), if_pos hop, getCtx_modCtx]

end

section
variable {s : State} {c : Nat} {b : Entry} (hc : c < 1024) (hst : (getCtx s c).st = .opened) (hheld : (getCtx s c).held = [])
  (htake : (getCtx s c).takeover = none) (hentries : (getCtx s c).entries = [b]) (hfin : b.st = .finished) (hmoved : b.moved = true)
  (hok : b.status = 0) (hsize : b.size ≠ 0) (hroom : ringRoom (getCtx s c) = true) (hmaster : canMaster s (getCtx s c).owner = true)
include hst hheld htake hentries hfin hmoved hsize hroom hmaster

omit hfin hmoved hheld hentries hsize hst htake in
theorem ring_ready : ¬(needsRecord c b && !(ringRoom (getCtx s c) && canMaster s (getCtx s c).owner)) = true := by simp [hroom, hmaster]

/-- The last charge of a context takes its effect when it retires. -/
theorem exec_chargeRetire_last : exec (.chargeRetire c) s = .next (pumpAll (retireEffect (retiredEntry s c b []) c b) c) := by
  have hclose : closesBeforeTakeover (getCtx s c) b = false := by simp [closesBeforeTakeover, htake]
  rw [exec_chargeRetire (by rw [hst]; decide) hheld hentries hfin hmoved hsize hclose, if_neg (ring_ready hroom hmaster)]

include hc hok

/-- R60: CTX_CLOSE closes the context at retirement. -/
theorem chargeRetire_closes (hop : b.opcode = 0x002) : ∃ t, exec (.chargeRetire c) s = .next t ∧ (getCtx t c).st = .closed
    ∧ (getCtx t c).entries = [] := by
  have hctx := getCtx_retireEffect_close hsize hfin hok hc hop (retiredEntry s c b [])
  refine ⟨_, exec_chargeRetire_last hst hheld htake hentries hfin hmoved hsize hroom hmaster, ?_⟩
  rw [pumpAll_idle (by rw [hctx]; rfl), hctx]
  exact ⟨rfl, rfl⟩

/-- R74: CTX_RESET empties the intake ring at retirement and sets NEXT_CSEQ. -/
theorem chargeRetire_resets (hop : b.opcode = 0x004) : ∃ t, exec (.chargeRetire c) s = .next t ∧ (getCtx t c).st = .opened
    ∧ (getCtx t c).tail = 0 ∧ (getCtx t c).head = 0 ∧ (getCtx t c).partialBuf = [] ∧ (getCtx t c).nextCseq = fld (pw b 0) 31 0 := by
  obtain ⟨n, hretired⟩ := getCtx_retiredEntry s c b []
  have hctx := getCtx_retireEffect_reset hsize hfin hok hc hop (retiredEntry s c b [])
  rw [hretired] at hctx
  refine ⟨_, exec_chargeRetire_last hst hheld htake hentries hfin hmoved hsize hroom hmaster, ?_⟩
  rw [pumpAll_idle (by rw [hctx]; rfl), hctx]
  exact ⟨if_neg (by rw [hst]; decide), rfl, rfl, rfl, rfl⟩

end

end Sys2Proof.Machine

open Sys2Proof Sys2Proof.Machine

/-- Settles O26: a rule for each context charge, at its arrival, its boundary, its dispatch or its retirement. -/
theorem contextsOpenChangeHandsAndClose : Obligations.ContextsOpenChangeHandsAndClose := by
  intro s c p d x e w
  refine ⟨fun harr hop hfields hquiet hmaster => ⟨ctxOpen_refused harr hop hfields hquiet hmaster, ctxOpen_opens harr hop hfields hquiet hmaster⟩,
    fun harr => exec_ctxTakeover harr, fun htake hheld => ?_,
    fun q e' hrun htail => congrArg _ ((onCharge_running _ hrun).trans (by rw [htail]; rfl)),
    fun b hc hst hheld htake hentries hfin hmoved hok hsize hroom hmaster =>
      ⟨chargeRetire_closes hc hst hheld htake hentries hfin hmoved hok hsize hroom hmaster,
        chargeRetire_resets hc hst hheld htake hentries hfin hmoved hok hsize hroom hmaster⟩⟩
  obtain ⟨t, pos, hexec, hctx⟩ := takeoverApply_hands htake hheld
  refine ⟨t, hexec, ?_⟩
  rw [hctx]
  exact ⟨rfl, rfl, rfl, rfl, rfl, rfl, rfl, rfl, rfl, fun i b hb hdisp hst hop => takenOver_flushes p e hb hdisp hst hop⟩

end

section
/-! Writes with nothing lasting, one after another: which bytes of device memory they set, and to what. -/

namespace Sys2Proof.Machine

open Sys2Proof.Claims

/-! ## Places -/

/-- A range lies below the windows, or in the populated part of one. -/
def OnePlace (a n : Nat) : Prop := a + n < winBase0 ∨ ∃ l o, inWindow a n = some (l, o)

theorem OnePlace.part {a n : Nat} (h : OnePlace a n) {k m : Nat} (hk : k + m ≤ n) : OnePlace (a + k) m := by
  rcases h with h | ⟨l, o, h⟩
  · exact .inl (by omega)
  · exact .inr ⟨l, o + k, inWindow_part h hk⟩

theorem onePlace_of_populated {s : State} {r : Nat × Nat} (h : populated s r = true) : OnePlace r.1 r.2 := by
  rw [populated, Bool.or_eq_true] at h
  rcases h with h | h
  · obtain ⟨w, hw⟩ := Option.isSome_iff_exists.1 h
    exact .inr ⟨w.1, w.2, hw⟩
  · exact .inl (inMem_below h)

theorem getElem?_readB (t : Tab Byte) (a : Nat) {n k : Nat} (hk : k < n) : (readB t a n)[k]? = some ((readB t (a + k) 1).headD 0) := by
  simp [readB, List.getElem?_range hk]

/-- A range of one place is read byte by byte. -/
theorem getElem?_bytesAt {s : State} {a n : Nat} (h : OnePlace a n) {k : Nat} (hk : k < n) : (bytesAt s a n)[k]? = some (byteAt s (a + k)) := by
  unfold byteAt bytesAt
  rcases h with h | ⟨l, o, h⟩
  · rw [inWindow_eq_none_of_lt (by omega), inWindow_eq_none_of_lt (by omega)]
    exact getElem?_readB _ a hk
  · rw [h, inWindow_part h (show k + 1 ≤ n by omega)]
    exact getElem?_readB _ o hk

theorem length_bytesAt (s : State) (a n : Nat) : (bytesAt s a n).length = n := by
  unfold bytesAt
  split <;> exact length_readB _ _ _

/-! ## Pieces -/

/-- The pieces of data stand side by side in its range, each with its bytes. -/
theorem pieces_spec {k : Nat} (hk : 0 < k) (fuel a : Nat) (d : List Byte) : ∀ p ∈ pieces k fuel a d, a ≤ p.1 ∧ p.1 + p.2.length ≤ a + d.length
    ∧ p.2.length ≤ k ∧ ∀ j < p.2.length, p.2[j]? = d[p.1 - a + j]? := by
  induction fuel generalizing a d with
  | zero => exact fun p hp => absurd hp List.not_mem_nil
  | succ fuel ih =>
    intro p hp
    have hmod : a % k < k := Nat.mod_lt a hk
    unfold pieces at hp
    split at hp
    · exact absurd hp List.not_mem_nil
    rcases List.mem_cons.1 hp with rfl | hrest
    · refine ⟨Nat.le_refl a, ?_, ?_, fun j hj => ?_⟩
      · simp only [List.length_take]; omega
      · simp only [List.length_take]; omega
      · dsimp only at hj ⊢
        rw [List.length_take] at hj
        rw [List.getElem?_take_of_lt (by omega), Nat.sub_self, Nat.zero_add]
    · have hnext : a / k * k + k = a + (k - a % k) := by have := Nat.div_add_mod' a k; omega
      obtain ⟨hfrom, hto, hlen, hbytes⟩ := ih _ _ p hrest
      rw [List.length_drop] at hto
      rw [hnext] at hfrom hto hbytes
      by_cases hd : d.length ≤ k - a % k
      · have hnil : p.2.length = 0 := by omega
        rw [List.drop_eq_nil_of_le hd] at hrest
        cases fuel <;> exact absurd hrest (by simp [pieces])
      refine ⟨by omega, by omega, hlen, fun j hj => ?_⟩
      rw [hbytes j hj, List.getElem?_drop]
      congr 1
      omega

/-- With enough fuel every byte of the range lies in a piece. -/
theorem pieces_cover {k : Nat} (hk : 0 < k) (fuel a : Nat) (d : List Byte) (hf : d.length + a % k ≤ k * fuel) {i : Nat} (hfrom : a ≤ i)
    (hto : i < a + d.length) : ∃ p ∈ pieces k fuel a d, p.1 ≤ i ∧ i < p.1 + p.2.length := by
  induction fuel generalizing a d with
  | zero => omega
  | succ fuel ih =>
    have hmod : a % k < k := Nat.mod_lt a hk
    have hnext : a / k * k + k = a + (k - a % k) := by have := Nat.div_add_mod' a k; omega
    have hne : d ≠ [] := fun h => by rw [h, List.length_nil] at hto; omega
    rw [pieces, if_neg hne]
    by_cases hi : i < a + (k - a % k)
    · exact ⟨_, List.mem_cons_self, hfrom, by rw [List.length_take]; omega⟩
    · have hzero : (a / k * k + k) % k = 0 := by simp
      have hstep : k * (fuel + 1) = k * fuel + k := Nat.mul_succ k fuel
      obtain ⟨p, hp, hin⟩ := ih (a / k * k + k) (d.drop (k - a % k)) (by rw [List.length_drop, hzero]; omega) (by omega)
        (by rw [List.length_drop]; omega)
      exact ⟨p, List.mem_cons_of_mem _ hp, hin⟩

/-! ## What a run of writes sets -/

/-- The bytes `i` with `C i` are set to `g i`; other bytes are as before, and so are the contexts. -/
structure Painted (g : Nat → Byte) (s t : State) (C : Nat → Prop) : Prop where
  ctxs : t.ctxs = s.ctxs
  clean : NoBad t
  inside : ∀ i, C i → byteAt t i = g i
  outside : ∀ i, ¬C i → byteAt t i = byteAt s i

/-- The range of `n` bytes at `a` covers the byte at `i`. -/
def Covers (a n i : Nat) : Prop := a ≤ i ∧ i < a + n

theorem Painted.refl {g : Nat → Byte} {s : State} (h : NoBad s) : Painted g s s (fun _ => False) :=
  ⟨rfl, h, fun _ hi => hi.elim, fun _ _ => rfl⟩

theorem Painted.congr {g : Nat → Byte} {s t : State} {C D : Nat → Prop} (h : Painted g s t C) (hCD : ∀ i, C i ↔ D i) : Painted g s t D :=
  ⟨h.ctxs, h.clean, fun i hi => h.inside i ((hCD i).2 hi), fun i hi => h.outside i (mt (hCD i).1 hi)⟩

theorem Painted.trans {g : Nat → Byte} {s t u : State} {C D : Nat → Prop} (h : Painted g s t C) (k : Painted g t u D) :
    Painted g s u (fun i => C i ∨ D i) where
  ctxs := k.ctxs.trans h.ctxs
  clean := k.clean
  inside i hi := by
    by_cases hD : D i
    · exact k.inside i hD
    · exact (k.outside i hD).trans (h.inside i (hi.resolve_right hD))
  outside i hi := (k.outside i (fun hD => hi (.inr hD))).trans (h.outside i (fun hC => hi (.inl hC)))

/-- A run of steps sets what its steps set, when each keeps a property `Good` of what it carries. -/
theorem foldl_paints {α β : Type} {g : Nat → Byte} {f : β → α → β} {state : β → State} {Good : β → Prop} {C : α → Nat → Prop} {items : List α}
    (hf : ∀ x ∈ items, ∀ y, Good y → NoBad (state y) → Good (f y x) ∧ Painted g (state y) (state (f y x)) (C x)) {y : β} (hgood : Good y)
    (hclean : NoBad (state y)) : Good (items.foldl f y) ∧ Painted g (state y) (state (items.foldl f y)) (fun i => ∃ x ∈ items, C x i) := by
  induction items generalizing y with
  | nil => exact ⟨hgood, (Painted.refl hclean).congr fun i => by simp⟩
  | cons x r ih =>
    obtain ⟨hgood', hpaint⟩ := hf x List.mem_cons_self y hgood hclean
    obtain ⟨hgood'', hrest⟩ := ih (fun z hz => hf z (List.mem_cons_of_mem _ hz)) hgood' hpaint.clean
    exact ⟨hgood'', (hpaint.trans hrest).congr fun i => by simp⟩

/-! ## One write -/

/-- A scratchpad write with nothing lasting changes the state of an access alone. -/
theorem writeSp_acc (l master : Nat) (x : Acc) (a : Nat) (d : List Byte) (h : NoBad x.s) :
    writeSp {} l master x a d = { x with s := (writeSp {} l master { s := x.s } a d).s } ∧ NoBad (writeSp {} l master x a d).s := by
  unfold writeSp
  generalize pieces 8 (d.length / 8 + 2) a d = ps
  induction ps generalizing x with
  | nil => exact ⟨rfl, h⟩
  | cons p r ih =>
    have hword : ∀ y : Acc, y.s = x.s → writeWord {} l master y p.1 p.2 = { y with s := modCore x.s l (fun c => putScratch c p.1 p.2) } :=
      fun y hy => by rw [writeWord_clean l master y _ _ (by rw [hy]; exact h.2 l), hy]
    have hclean : NoBad (modCore x.s l (fun c => putScratch c p.1 p.2)) := by
      refine ⟨h.1, fun k => ?_⟩
      by_cases hk : k = l
      · rw [hk, getCore_modCore]; exact h.2 l
      · rw [getCore_modCore_ne _ hk]; exact h.2 k
    rw [List.foldl_cons, List.foldl_cons, hword x rfl, hword { s := x.s } rfl]
    exact ih { x with s := modCore x.s l (fun c => putScratch c p.1 p.2) } hclean

theorem painted_of_deviceWritten {g : Nat → Byte} {s t : State} {a : Nat} {d : List Byte} (h : DeviceWritten s t a d)
    (hclean : NoBad t) (hd : ∀ k < d.length, d[k]? = some (g (a + k))) : Painted g s t (Covers a d.length) where
  ctxs := (congrArg State.ctxs h.frame :)
  clean := hclean
  inside i hi := by
    obtain ⟨hfrom, hto⟩ := hi
    have hone := h.inside (i - a) 1 (by omega)
    rw [Nat.add_sub_cancel' hfrom] at hone
    have hbyte := hd (i - a) (by omega)
    rw [Nat.add_sub_cancel' hfrom] at hbyte
    rw [byteAt, hone, List.headD_eq_head?_getD, List.head?_take, if_neg Nat.one_ne_zero, List.head?_drop, hbyte]
    rfl
  outside i hi := h.outside i (by unfold Covers at hi; omega)

/-- With nothing lasting, a write to one place sets its bytes, and an access carries nothing else away. -/
theorem writeAt_paints {g : Nat → Byte} (master subj : Nat) {x : Acc} {a : Nat} {d : List Byte} (hclean : NoBad x.s) (hplace : OnePlace a d.length)
    (hd : ∀ k < d.length, d[k]? = some (g (a + k))) : ∃ t, writeAt {} master subj x a d = { x with s := t } ∧ Painted g x.s t (Covers a d.length) := by
  unfold writeAt
  rcases hplace with hlt | ⟨l, o, hw⟩
  · rw [inWindow_eq_none_of_lt (by omega)]
    refine ⟨_, pieces_write subj _ x a d hclean.1 (by omega), ?_⟩
    exact painted_of_deviceWritten (deviceWritten_mem hlt) ⟨hclean.1, hclean.2⟩ hd
  · rw [hw]
    obtain ⟨hacc, hkept⟩ := writeSp_acc l master x o d hclean
    dsimp only
    refine ⟨_, hacc, ?_⟩
    rw [hacc] at hkept
    exact painted_of_deviceWritten (deviceWritten_window hw (writeSp_clean x.s l master o d (hclean.2 l))) hkept hd

/-- With nothing lasting, reads of any ranges find nothing. -/
theorem readAt_finds_nothing (master subj : Nat) {x : Acc} (rs : List (Nat × Nat)) (h : NoBad x.s) : readAt {} master subj x rs = x := by
  unfold readAt
  dsimp only
  rw [readUnits_clean subj x _ h.1]
  split
  · rfl
  · exact readWords_clean _ master x _ (h.2 _)

end Sys2Proof.Machine

end

section
/-! The bursts of memory charges (R228, R233, R235), the region checks before them, and the charges on them. -/

namespace Sys2Proof.Machine

open Sys2Proof.Claims

/-! ## Bursts -/

/-- The length of the burst at an offset. -/
def burstLen (src dst n o : Nat) : Nat := min (n - o) (min (4096 - (src + o) % 4096) (4096 - (dst + o) % 4096))

theorem burstsFrom_succ (src dst n fuel o : Nat) : burstsFrom src dst n (fuel + 1) o
    = if n ≤ o then [] else (o, burstLen src dst n o) :: burstsFrom src dst n fuel (o + burstLen src dst n o) := rfl

theorem burstsFrom_inside {src dst n fuel o : Nat} : ∀ b ∈ burstsFrom src dst n fuel o, b.1 + b.2 ≤ n := by
  induction fuel generalizing o with
  | zero => exact fun b hb => absurd hb List.not_mem_nil
  | succ fuel ih =>
    intro b hb
    rw [burstsFrom_succ] at hb
    split at hb
    · exact absurd hb List.not_mem_nil
    · rcases List.mem_cons.1 hb with rfl | hr
      · simp only [burstLen]; omega
      · exact ih b hr

/-- When a measure falls at every burst, as much fuel covers the rest of the range. -/
theorem burstsFrom_cover {src dst n : Nat} (left : Nat → Nat) (hleft : ∀ o < n, left (o + burstLen src dst n o) < left o) {fuel o : Nat}
    (hfuel : left o ≤ fuel) {i : Nat} (hfrom : o ≤ i) (hto : i < n) : ∃ b ∈ burstsFrom src dst n fuel o, Covers b.1 b.2 i := by
  induction fuel generalizing o with
  | zero => have := hleft o (by omega); omega
  | succ fuel ih =>
    rw [burstsFrom_succ, if_neg (by omega)]
    by_cases hi : i < o + burstLen src dst n o
    · exact ⟨_, List.mem_cons_self, hfrom, hi⟩
    · obtain ⟨b, hb, hcov⟩ := ih (o := o + burstLen src dst n o) (by have := hleft o (by omega); omega) (by omega)
      exact ⟨b, List.mem_cons_of_mem _ hb, hcov⟩

/-- Bursts left at an offset, at most: one at each 4 KiB boundary of either end, and the last. -/
def burstsLeft (src dst n o : Nat) : Nat :=
  if o < n then 1 + ((src + n) / 4096 - (src + o) / 4096) + ((dst + n) / 4096 - (dst + o) / 4096) else 0

theorem burstsLeft_falls {src dst n o : Nat} (h : o < n) : burstsLeft src dst n (o + burstLen src dst n o) < burstsLeft src dst n o := by
  unfold burstsLeft burstLen
  split <;> omega

/-- Cuts left of a transfer whose ends have the same boundaries. -/
def cutsLeft (h n o : Nat) : Nat := if o < n then 1 + ((h + n) / 4096 - (h + o) / 4096) else 0

theorem cutsLeft_falls {h n o : Nat} (ho : o < n) : cutsLeft h n (o + burstLen h h n o) < cutsLeft h n o := by
  unfold cutsLeft burstLen
  split <;> omega

/-- Bursts cut a transfer of `n` bytes from `a` to `b` when each lies in it. -/
def CutOf (a b n : Nat) (bs : List (Nat × Nat × Nat)) : Prop := ∀ x ∈ bs, ∃ o, x.1 = a + o ∧ x.2.1 = b + o ∧ o + x.2.2 ≤ n

/-- They cover the transfer. -/
def Full (n : Nat) (b : Nat) (bs : List (Nat × Nat × Nat)) : Prop := ∀ i < n, ∃ x ∈ bs, Covers x.2.1 x.2.2 (b + i)

theorem cutOf_burstsFrom (src dst a b n fuel : Nat) : CutOf a b n ((burstsFrom src dst n fuel 0).map (fun x => (a + x.1, b + x.1, x.2))) := by
  intro x hx
  obtain ⟨y, hy, rfl⟩ := List.mem_map.1 hx
  exact ⟨y.1, rfl, rfl, burstsFrom_inside y hy⟩

theorem full_map {n a b : Nat} {cs : List (Nat × Nat)} (h : ∀ i < n, ∃ c ∈ cs, Covers c.1 c.2 i) :
    Full n b (cs.map (fun c => (a + c.1, b + c.1, c.2))) := by
  intro i hi
  obtain ⟨c, hc, hfrom, hto⟩ := h i hi
  exact ⟨_, List.mem_map_of_mem hc, by unfold Covers; dsimp only; omega⟩

theorem full_bursts (src dst n : Nat) : Full n dst (bursts src dst n) :=
  full_map fun i hi => burstsFrom_cover (burstsLeft src dst n) (fun _ => burstsLeft_falls) (by unfold burstsLeft; split <;> omega) (Nat.zero_le i) hi

theorem full_hostCuts (h dev n : Nat) : Full n dev (hostCuts h dev n) :=
  full_map fun i hi => burstsFrom_cover (cutsLeft h n) (fun _ => cutsLeft_falls) (by unfold cutsLeft; split <;> omega) (Nat.zero_le i) hi

theorem mem_openSubset {α : Type} {s : State} {l : List α} {x : α} (h : x ∈ openSubset s l) : x ∈ l := by
  obtain ⟨e, he, rfl⟩ := List.mem_map.1 h
  exact List.fst_mem_of_mem_zipIdx (List.mem_filter.1 he).1

/-! ## Region checks -/

/-- A part of an open range is open. -/
theorem windowOpen_part {s : State} {a n k m : Nat} {kind : Kind} (hplace : OnePlace a n) (hopen : WindowOpen s a n kind) (hk : k + m ≤ n) :
    WindowOpen s (a + k) m kind := by
  intro l o master hw hlow hhigh
  rcases hplace with hlt | ⟨l', o', hw'⟩
  · rw [inWindow_eq_none_of_lt (by omega)] at hw
    exact absurd hw (by simp)
  · rw [inWindow_part hw' hk, Option.some.injEq, Prod.mk.injEq] at hw
    obtain ⟨rfl, rfl⟩ := hw
    have hfirst := hopen l' o' master hw' hlow hhigh
    simp only [firstRefused, List.findSome?_cons, List.findSome?_nil] at hfirst ⊢
    have hall : (unitsOf o' n).find? (fun u => !unitAllowed (getCore s l').regionL master kind (u / 64)) = none := by
      cases hf : (unitsOf o' n).find? (fun u => !unitAllowed (getCore s l').regionL master kind (u / 64)) with
      | none => rfl
      | some u => rw [hf] at hfirst; exact absurd hfirst (by simp)
    have hpart : (unitsOf (o' + k) m).find? (fun u => !unitAllowed (getCore s l').regionL master kind (u / 64)) = none :=
      List.find?_eq_none.2 fun u hu => List.find?_eq_none.1 hall u (unitsOf_part hk hu)
    rw [hpart]
    rfl

theorem checkRegion_open {s : State} {a n l o master : Nat} {kind : Kind} (hopen : WindowOpen s a n kind) (hw : inWindow a n = some (l, o))
    (hlow : 4 ≤ master) (hhigh : master ≤ 8) (tw : Nat) : checkRegion s l master kind [(o, n)] tw = (s, true) := by
  rw [checkRegion, hopen l o master hw hlow hhigh]

/-- The region check of one end of a burst, by the master of the core whose window it lies in. -/
def endRegion (q : State × Bool) (win : Bool) (kind : Kind) (master : Nat → Nat) (a n : Nat) : State × Bool :=
  if win then (match inWindow a n with
    | some (l, o) => checkRegion q.1 l (master l) kind [(o, n)] 0
    | none => q) else q

theorem endRegion_open {s : State} {win : Bool} {kind : Kind} {master : Nat → Nat} {a n : Nat} (hopen : win = true → WindowOpen s a n kind)
    (hmaster : ∀ l, 4 ≤ master l ∧ master l ≤ 8) : endRegion (s, true) win kind master a n = (s, true) := by
  unfold endRegion
  split
  case isTrue hwin =>
    split
    case h_1 l o hw => exact checkRegion_open (hopen hwin) hw (hmaster l).1 (hmaster l).2 0
    case h_2 => rfl
  case isFalse => rfl

theorem chargeRegions_eq (s : State) (bs : List (Nat × Nat × Nat)) (srcWin dstWin : Bool) (run : Nat) : chargeRegions s bs srcWin dstWin run
    = bs.zipIdx.foldl (fun q b =>
        if q.2 = false then q
        else
          let r := endRegion q srcWin .rd (fun _ => chargeMover s b.2) b.1.1 b.1.2.2
          endRegion r (r.2 && dstWin) .wr (fun l => if l = run then chargeMover s b.2 else 8) b.1.2.1 b.1.2.2) (s, true) := rfl

theorem chargeMover_range (s : State) (k : Nat) : 4 ≤ chargeMover s k ∧ chargeMover s k ≤ 8 := by
  unfold chargeMover
  omega

/-- The region checks pass when the ends in windows are open. -/
theorem chargeRegions_open {s : State} {bs : List (Nat × Nat × Nat)} {srcWin dstWin : Bool}
    (hsrc : srcWin = true → ∀ b ∈ bs, WindowOpen s b.1 b.2.2 .rd) (hdst : dstWin = true → ∀ b ∈ bs, WindowOpen s b.2.1 b.2.2 .wr) (run : Nat) :
    chargeRegions s bs srcWin dstWin run = (s, true) := by
  have hmem : ∀ z ∈ bs.zipIdx, z.1 ∈ bs := fun z hz => List.fst_mem_of_mem_zipIdx hz
  rw [chargeRegions_eq]
  generalize bs.zipIdx = zs at hmem ⊢
  induction zs with
  | nil => rfl
  | cons z r ih =>
    have hz := hmem z List.mem_cons_self
    rw [List.foldl_cons, if_neg (by simp), endRegion_open (fun hwin => hsrc hwin z.1 hz) (fun _ => chargeMover_range s z.2)]
    dsimp only
    rw [Bool.true_and, endRegion_open (fun hwin => hdst hwin z.1 hz) fun l => ?_]
    · exact ih fun y hy => hmem y (List.mem_cons_of_mem _ hy)
    · split
      · exact chargeMover_range s z.2
      · decide

end Sys2Proof.Machine

end

section
/-! COPY, FILL, HOST_READ and HOST_WRITE (R233 to R235). -/

namespace Sys2Proof.Machine

open Sys2Proof.Claims

/-! ## Writes of bursts -/

/-- The byte lies in the destination of a burst. -/
def CoveredBy (bs : List (Nat × Nat × Nat)) (i : Nat) : Prop := ∃ y ∈ bs, Covers y.2.1 y.2.2 i

theorem covers_pieces {a : Nat} {d : List Byte} {i : Nat} :
    (∃ p ∈ pieces 64 (d.length / 64 + 2) a d, Covers p.1 p.2.length i) ↔ Covers a d.length i := by
  constructor
  · rintro ⟨p, hp, hfrom, hto⟩
    obtain ⟨hlow, hhigh, -, -⟩ := pieces_spec (by decide) _ _ _ p hp
    exact ⟨by omega, by omega⟩
  · rintro ⟨hfrom, hto⟩
    exact pieces_cover (by decide) _ _ _ (by omega) hfrom hto

theorem covers_burstPieces (s : State) (y : Nat × Nat × Nat) {i : Nat} :
    (∃ p ∈ pieces 64 (y.2.2 / 64 + 2) y.2.1 (bytesAt s y.1 y.2.2), Covers p.1 p.2.length i) ↔ Covers y.2.1 y.2.2 i := by
  have h := covers_pieces (a := y.2.1) (d := bytesAt s y.1 y.2.2) (i := i)
  rwa [length_bytesAt] at h

/-- Bursts written one after another, each with its bytes. -/
theorem writeBursts_paints {g : Nat → Byte} (master subj : Nat) {x : Acc} {a b n : Nat} {bs : List (Nat × Nat × Nat)}
    {data : Nat × Nat × Nat → List Byte} (hclean : NoBad x.s) (hbad : x.bad = []) (hcut : CutOf a b n bs) (hplace : OnePlace b n)
    (hdata : ∀ y ∈ bs, (data y).length = y.2.2 ∧ ∀ k < y.2.2, (data y)[k]? = some (g (y.2.1 + k))) :
    (bs.foldl (fun x y => writeAt {} master subj x y.2.1 (data y)) x).bad = []
      ∧ Painted g x.s (bs.foldl (fun x y => writeAt {} master subj x y.2.1 (data y)) x).s (CoveredBy bs) := by
  refine foldl_paints (state := Acc.s) (Good := fun z => z.bad = []) (C := fun (y : Nat × Nat × Nat) => Covers y.2.1 y.2.2) (fun y hy z hgood hz => ?_) hbad hclean
  obtain ⟨hlen, hbytes⟩ := hdata y hy
  obtain ⟨o, -, hdst, hin⟩ := hcut y hy
  obtain ⟨t, hwrite, hpaint⟩ := writeAt_paints (g := g) master subj (a := y.2.1) (d := data y) hz (by rw [hlen, hdst]; exact hplace.part hin)
    (by rw [hlen]; exact hbytes)
  rw [hlen] at hpaint
  rw [hwrite]
  exact ⟨hgood, hpaint⟩

section
variable {s : State} {a b n : Nat} {y : Nat × Nat × Nat} (hsrc : OnePlace a n) (hdst : OnePlace b n)

/-- What a copy brings to a byte of its destination. -/
def copied (s : State) (a b i : Nat) : Byte := byteAt s (a + (i - b))

include hsrc hdst

/-- A piece of a copied burst lies in the destination, with the bytes of its place in the source. -/
theorem copyPiece_spec (hy : ∃ o, y.1 = a + o ∧ y.2.1 = b + o ∧ o + y.2.2 ≤ n) {p : Nat × List Byte} {fuel : Nat}
    (hp : p ∈ pieces 64 fuel y.2.1 (bytesAt s y.1 y.2.2)) : OnePlace p.1 p.2.length ∧ ∀ k < p.2.length, p.2[k]? = some (copied s a b (p.1 + k)) := by
  obtain ⟨o, hya, hyb, hin⟩ := hy
  obtain ⟨hlow, hhigh, -, hbytes⟩ := pieces_spec (by decide) _ _ _ p hp
  rw [length_bytesAt] at hhigh
  obtain ⟨j, hj⟩ := Nat.exists_eq_add_of_le (show b ≤ p.1 by omega)
  refine ⟨hj ▸ hdst.part (by omega), fun k hk => ?_⟩
  rw [hbytes k hk, getElem?_bytesAt (hya ▸ hsrc.part hin) (by omega), copied]
  congr 2
  omega

end

/-- Counters are not bytes of memory. -/
theorem Painted.bumpCore {g : Nat → Byte} {s t : State} {C : Nat → Prop} (h : Painted g s t C) (l i k : Nat) :
    Painted g s (bumpCore t l i k) C := ⟨h.ctxs, h.clean, h.inside, h.outside⟩

section
variable {x : Acc} {a b n : Nat} {bs : List (Nat × Nat × Nat)} (hclean : NoBad x.s) (hbad : x.bad = []) (hcut : CutOf a b n bs)
  (hsrc : OnePlace a n) (hdst : OnePlace b n)
include hclean hbad hcut hsrc hdst

theorem copyBursts_paints (master subj : Nat) : (copyBursts {} master subj x bs).bad = []
    ∧ Painted (copied x.s a b) x.s (copyBursts {} master subj x bs).s (CoveredBy bs) := by
  unfold copyBursts
  dsimp only
  rw [readAt_finds_nothing master subj _ hclean, hbad]
  refine foldl_paints (state := Acc.s) (Good := fun z => z.bad = []) (C := fun (y : Nat × Nat × Nat) => Covers y.2.1 y.2.2) (fun y hy z hgood hz => ?_) hbad hclean
  have hrow := foldl_paints (g := copied x.s a b) (state := Acc.s) (Good := fun z => z.bad = []) (C := fun p => Covers p.1 p.2.length)
    (items := pieces 64 ((bytesAt x.s y.1 y.2.2).length / 64 + 2) y.2.1 (bytesAt x.s y.1 y.2.2))
    (f := fun w p => if touchesBad [] (y.1 + (p.1 - y.2.1)) p.2.length then w else writeAt {} master subj w p.1 p.2)
    (fun p hp w hw hwclean => ?_) hgood hz
  · refine ⟨hrow.1, hrow.2.congr fun i => ?_⟩
    rw [covers_pieces, length_bytesAt]
  · obtain ⟨hplace, hbytes⟩ := copyPiece_spec hsrc hdst (hcut y hy) hp
    obtain ⟨t, hwrite, hpaint⟩ := writeAt_paints master subj hwclean hplace hbytes
    rw [if_neg (by simp [touchesBad]), hwrite]
    exact ⟨hw, hpaint⟩

theorem copyShots_paints (master l : Nat) : (copyShots {} master l x bs).1.bad = []
    ∧ (copyShots {} master l x bs).2 = false
    ∧ Painted (copied x.s a b) x.s (copyShots {} master l x bs).1.s (CoveredBy bs) := by
  unfold copyShots
  dsimp only
  rw [readAt_finds_nothing master noSubject _ hclean, hbad]
  rw [← and_assoc]
  refine (foldl_paints (g := copied x.s a b) (state := fun z : Acc × Bool => z.1.s) (Good := fun z => z.1.bad = [] ∧ z.2 = false)
    (C := fun (q : Nat × Nat × List Byte) => Covers q.2.1 q.2.2.length) (fun q hq z hgood hz => ?_) ⟨hbad, rfl⟩ hclean).imp_right fun h => h.congr fun i => ?_
  · obtain ⟨y, hy, hpiece⟩ := List.mem_flatMap.1 hq
    obtain ⟨p, hp, rfl⟩ := List.mem_map.1 hpiece
    obtain ⟨hplace, hbytes⟩ := copyPiece_spec hsrc hdst (hcut y hy) hp
    obtain ⟨t, hwrite, hpaint⟩ := writeAt_paints 8 noSubject (x := { z.1 with skip := false }) hz hplace hbytes
    dsimp only
    rw [if_neg (by simp [touchesBad]), hwrite]
    exact ⟨hgood, hpaint.bumpCore l 25 1⟩
  · constructor
    · rintro ⟨q, hq, hcov⟩
      obtain ⟨y, hy, hpiece⟩ := List.mem_flatMap.1 hq
      obtain ⟨p, hp, rfl⟩ := List.mem_map.1 hpiece
      exact ⟨y, hy, (covers_burstPieces x.s y).1 ⟨p, hp, hcov⟩⟩
    · rintro ⟨y, hy, hcov⟩
      obtain ⟨p, hp, hcov'⟩ := (covers_burstPieces x.s y).2 hcov
      exact ⟨_, List.mem_flatMap.2 ⟨y, hy, List.mem_map_of_mem hp⟩, hcov'⟩

end

end Sys2Proof.Machine

end

section
/-! COPY, FILL, HOST_READ and HOST_WRITE (R233 to R235): their checks, their bursts and what they report. -/

namespace Sys2Proof.Machine

open Sys2Proof.Claims

/-! ## Checks (R227, R233) -/

/-- A charge that passes its checks has ends of one place each, out of register space. -/
theorem memCheck_passes {s : State} {fields shape feature copy : Bool} {src dst : Option (Nat × Nat)}
    (h : memCheck s fields shape feature src dst copy = 0) : fields = true ∧ shape = true
      ∧ ∀ r ∈ src.toList ++ dst.toList, OnePlace r.1 r.2 ∧ overlaps r.1 r.2 regBase0 0x10000000 = false := by
  unfold memCheck at h
  dsimp only at h
  rw [firstFail_eq_zero _ (by simp [Status.fieldReserved, Status.featureAbsent, Status.moveDescInvalid, Status.moveTargetInvalid,
    Status.coreWithdrawn, Status.addressUnpopulated, Status.hopperRegionProtected, Status.moveOverlap])] at h
  simp only [List.mem_cons, forall_eq_or_imp, List.all_eq_true] at h
  obtain ⟨hfields, -, hshape, hallowed, -, hpop, -⟩ := h
  refine ⟨hfields, hshape, fun r hr => ⟨onePlace_of_populated (hpop r hr), ?_⟩⟩
  have hends := hallowed r hr
  rw [endAllowed, Bool.and_eq_true, Bool.not_eq_true'] at hends
  exact hends.1

/-! ## The bursts that move -/

theorem chargeBursts_spec (s : State) (e : Entry) (bs : List (Nat × Nat × Nat)) : ∃ k us, chargeBursts s e bs = ({ s with free := k }, us)
    ∧ (∀ y ∈ us, y ∈ bs) ∧ (e.st ≠ .abortPending → us = bs) := by
  unfold chargeBursts
  split
  case isTrue h =>
    refine ⟨_, _, rfl, fun y hy => ?_, fun hne => absurd h hne⟩
    split at hy
    · exact List.mem_of_mem_take hy
    · exact mem_openSubset hy
  case isFalse h => exact ⟨s.free, bs, rfl, fun _ hy => hy, fun _ => rfl⟩

/-- The status of a charge that nothing stopped but an abort. -/
def cleanStatus (e : Entry) : Nat := if e.st = .abortPending then Status.chargeAborted else 0

theorem cleanStatus_running {e : Entry} (h : e.st ≠ .abortPending) : cleanStatus e = 0 := if_neg h

theorem endMemory_clean {x : Acc} (h : x.bad = []) (c q : Nat) (e : Entry) :
    endMemory x c q (e.st = .abortPending) = report x.s c q (cleanStatus e) 0 := by
  unfold endMemory cleanStatus
  by_cases hst : e.st = .abortPending
  · simp [hst]
  · simp [hst, h]

/-- With its ends open, a charge does its work on the bursts that its abort leaves. -/
theorem runCharge_open {s : State} {src dst : Option (Nat × Nat)} {bs : List (Nat × Nat × Nat)}
    (hsrc : ∀ r, src = some r → ∀ y ∈ bs, WindowOpen s y.1 y.2.2 .rd) (hdst : ∀ r, dst = some r → ∀ y ∈ bs, WindowOpen s y.2.1 y.2.2 .wr)
    (c q : Nat) (e : Entry) (f : State → Nat → List (Nat × Nat × Nat) → Acc) : ∃ k us master, runCharge s c q e src dst bs f
      = endMemory (f { s with free := k } master us) c q (e.st = .abortPending) ∧ (∀ y ∈ us, y ∈ bs) ∧ (e.st ≠ .abortPending → us = bs) := by
  have hnone : (windowCores (none : Option (Nat × Nat)).toList != []) = false := rfl
  have hregions : ∀ run, chargeRegions s bs (windowCores src.toList != []) (windowCores dst.toList != []) run = (s, true) := by
    refine chargeRegions_open (fun hwin => ?_) (fun hwin => ?_)
    · cases src with
      | none => exact absurd (hnone.symm.trans hwin) (by decide)
      | some r => exact hsrc r rfl
    · cases dst with
      | none => exact absurd (hnone.symm.trans hwin) (by decide)
      | some r => exact hdst r rfl
  obtain ⟨k, us, hbursts, hsub, hall⟩ := chargeBursts_spec { s with free := s.free + bs.length + 1 } e bs
  refine ⟨k, us, chargeMover s bs.length, ?_, hsub, hall⟩
  unfold runCharge
  dsimp only
  rw [hregions, if_neg (by simp), hbursts]

theorem CutOf.sub {a b n : Nat} {bs us : List (Nat × Nat × Nat)} (h : CutOf a b n bs) (hsub : ∀ y ∈ us, y ∈ bs) : CutOf a b n us :=
  fun y hy => h y (hsub y hy)

theorem CutOf.srcOpen {s : State} {a b n : Nat} {bs : List (Nat × Nat × Nat)} (h : CutOf a b n bs) {k : Kind} (hplace : OnePlace a n)
    (hopen : WindowOpen s a n k) : ∀ y ∈ bs, WindowOpen s y.1 y.2.2 k := fun y hy => by
  obtain ⟨o, hsrc, -, hin⟩ := h y hy
  exact hsrc ▸ windowOpen_part hplace hopen hin

theorem CutOf.dstOpen {s : State} {a b n : Nat} {bs : List (Nat × Nat × Nat)} (h : CutOf a b n bs) {k : Kind} (hplace : OnePlace b n)
    (hopen : WindowOpen s b n k) : ∀ y ∈ bs, WindowOpen s y.2.1 y.2.2 k := fun y hy => by
  obtain ⟨o, -, hdst, hin⟩ := h y hy
  exact hdst ▸ windowOpen_part hplace hopen hin

/-! ## What a charge leaves -/

/-- A charge has set the `n` bytes at `b` to `g`, unless it was aborted, and no other byte, and reports its status. -/
structure Wrote (s t : State) (c q : Nat) (e : Entry) (g : Nat → Byte) (b n : Nat) : Prop where
  reports : Reports s t c q (cleanStatus e) 0
  inside : e.st ≠ .abortPending → ∀ i < n, byteAt t (b + i) = g (b + i)
  outside : ∀ i, i < b ∨ b + n ≤ i → byteAt t i = byteAt s i

theorem wrote_report {s u t : State} {c q : Nat} {e : Entry} {g : Nat → Byte} {a b n : Nat} {bs us : List (Nat × Nat × Nat)}
    (hctxs : u.ctxs = s.ctxs) (hbytes : ∀ i, byteAt u i = byteAt s i) (hpaint : Painted g u t (CoveredBy us)) (hcut : CutOf a b n bs)
    (hfull : Full n b bs) (hsub : ∀ y ∈ us, y ∈ bs) (hall : e.st ≠ .abortPending → us = bs) :
    Wrote s (report t c q (cleanStatus e) 0) c q e g b n where
  reports := report_ctxs (hpaint.ctxs.trans hctxs) c q _ 0
  inside hst i hi := by
    rw [hall hst] at hpaint
    exact hpaint.inside _ (hfull i hi)
  outside i hi := by
    refine (hpaint.outside i fun hcov => ?_).trans (hbytes i)
    obtain ⟨y, hy, hfrom, hto⟩ := hcov
    obtain ⟨o, -, hdst, hin⟩ := hcut y (hsub y hy)
    omega

/-! ## COPY (R233) -/

section
variable {s : State} {a b n : Nat} (hclean : NoBad s) (hsrc : OnePlace a n) (hdst : OnePlace b n) (hread : WindowOpen s a n .rd)
  (hwrite : WindowOpen s b n .wr) (c q : Nat) (e : Entry)
include hclean hsrc hdst hread hwrite

/-- A COPY by bursts of a mover. -/
theorem runCharge_copies : Wrote s (runCharge s c q e (some (a, n)) (some (b, n)) (bursts a b n) (fun s m bs => copyBursts {} m noSubject { s := s } bs))
    c q e (copied s a b) b n := by
  have hcut : CutOf a b n (bursts a b n) := cutOf_burstsFrom a b a b n _
  obtain ⟨k, us, master, hcharge, hsub, hall⟩ := runCharge_open (src := some (a, n)) (dst := some (b, n)) (fun _ _ => hcut.srcOpen hsrc hread)
    (fun _ _ => hcut.dstOpen hdst hwrite) c q e (fun s m bs => copyBursts {} m noSubject { s := s } bs)
  obtain ⟨hbad, hpaint⟩ := copyBursts_paints (x := { s := { s with free := k } }) ⟨hclean.1, hclean.2⟩ rfl (hcut.sub hsub) hsrc hdst master noSubject
  rw [hcharge, endMemory_clean hbad]
  exact wrote_report (u := { s with free := k }) rfl (fun _ => rfl) hpaint hcut (full_bursts a b n) hsub hall

/-- A COPY by shots to core `l`. -/
theorem copyByShots_copies (l : Nat) : Wrote s (copyByShots s c q l e {} a b n) c q e (copied s a b) b n := by
  have hcut : CutOf a b n (bursts a b n) := cutOf_burstsFrom a b a b n _
  obtain ⟨k, us, hbursts, hsub, hall⟩ := chargeBursts_spec { s with free := s.free + (bursts a b n).length + 1 } e (bursts a b n)
  obtain ⟨hbad, htaken, hpaint⟩ := copyShots_paints (x := { s := { s with free := k } }) ⟨hclean.1, hclean.2⟩ rfl (hcut.sub hsub) hsrc hdst
    (chargeMover s (bursts a b n).length) l
  unfold copyByShots
  dsimp only
  rw [chargeRegions_open (fun _ => hcut.srcOpen hsrc hread) (fun _ => hcut.dstOpen hdst hwrite), if_neg (by simp), hbursts, endShots,
    if_neg (by simp [htaken]), endMemory_clean hbad]
  exact wrote_report (u := { s with free := k }) rfl (fun _ => rfl) hpaint hcut (full_bursts a b n) hsub hall

end

section
variable {s : State} {c q : Nat} {e : Entry} (hruns : fabricRuns s = true) (hrun : running s c q 0x100 = some e) (ha : pw e 0 < 2 ^ 44) (hb : pw e 8 < 2 ^ 44)
  (hcheck : memCheck s (pw e 0x10 < 2 ^ 40 && tailZero e 0x18) (pw e 0x10 ≠ 0) true (some (pw e 0, pw e 0x10)) (some (pw e 8, pw e 0x10)) true = 0)
  (hmovers : moversRun s [(pw e 0, pw e 0x10), (pw e 8, pw e 0x10)] = true)
include hruns hrun ha hb hcheck hmovers

/-- What a COPY that passes its checks does: shots between two cores, bursts of a mover otherwise. -/
theorem exec_copy : exec (.copy c q {}) s = .next (match shotTarget (pw e 0) (pw e 8) (pw e 0x10) with
    | some l => if rebinding s l then s else copyByShots s c q l e {} (pw e 0) (pw e 8) (pw e 0x10)
    | none => runCharge s c q e (some (pw e 0, pw e 0x10)) (some (pw e 8, pw e 0x10)) (bursts (pw e 0) (pw e 8) (pw e 0x10))
        (fun s m bs => copyBursts {} m noSubject { s := s } bs)) := by
  obtain ⟨-, -, hends⟩ := memCheck_passes hcheck
  have hsrc := (hends (pw e 0, pw e 0x10) (by simp)).2
  have hdst := (hends (pw e 8, pw e 0x10) (by simp)).2
  have hfields : (pw e 0 < 2 ^ 44 && pw e 8 < 2 ^ 44 && pw e 0x10 < 2 ^ 40 && tailZero e 0x18) = (pw e 0x10 < 2 ^ 40 && tailZero e 0x18) := by
    rw [decide_eq_true ha, decide_eq_true hb, Bool.true_and, Bool.true_and]
  change execCopy c q {} s = _
  unfold execCopy fabricCharge
  dsimp only at hsrc hdst ⊢
  rw [if_pos hruns, onCharge_running _ hrun, hfields, hsrc, hdst, hcheck, hmovers, Bool.or_self, Bool.and_false, if_neg (by decide), if_neg (by decide),
    if_neg (by decide)]
  rfl

theorem copy_copies (hclean : NoBad s) (hread : WindowOpen s (pw e 0) (pw e 0x10) .rd) (hwrite : WindowOpen s (pw e 8) (pw e 0x10) .wr)
    (hbinding : ∀ l, shotTarget (pw e 0) (pw e 8) (pw e 0x10) = some l → rebinding s l = false) :
    ∃ t, exec (.copy c q {}) s = .next t ∧ Wrote s t c q e (copied s (pw e 0) (pw e 8)) (pw e 8) (pw e 0x10) := by
  obtain ⟨-, -, hends⟩ := memCheck_passes hcheck
  have hsrc : OnePlace (pw e 0) (pw e 0x10) := (hends (pw e 0, pw e 0x10) (by simp)).1
  have hdst : OnePlace (pw e 8) (pw e 0x10) := (hends (pw e 8, pw e 0x10) (by simp)).1
  rw [exec_copy hruns hrun ha hb hcheck hmovers]
  refine ⟨_, rfl, ?_⟩
  split
  case h_1 l hl =>
    rw [hbinding l hl]
    exact copyByShots_copies hclean hsrc hdst hread hwrite c q e l
  case h_2 => exact runCharge_copies hclean hsrc hdst hread hwrite c q e

end

/-! ## FILL (R233) -/

theorem fillBytes_spec (pattern a n : Nat) : (fillBytes pattern a n).length = n ∧ ∀ k < n, (fillBytes pattern a n)[k]? = some (fillByte pattern (a + k)) := by
  refine ⟨by simp [fillBytes], fun k hk => ?_⟩
  rw [fillBytes, List.getElem?_map, List.getElem?_range hk]
  rfl

section
variable {s : State} {c q : Nat} {e : Entry} (hruns : fabricRuns s = true) (hrun : running s c q 0x101 = some e) (ha : pw e 0 < 2 ^ 44)
  (hn : pw e 8 < 2 ^ 40) (htail : tailZero e 0x18 = true) (hcheck : memCheck s true (pw e 8 ≠ 0) true none (some (pw e 0, pw e 8)) false = 0)
  (hmovers : moversRun s [(pw e 0, pw e 8)] = true)
include hruns hrun ha hn htail hcheck hmovers

theorem exec_fill : exec (.fill c q {}) s = .next (runCharge s c q e none (some (pw e 0, pw e 8)) (bursts (pw e 0) (pw e 0) (pw e 8))
      (fun s m bs => fillBursts {} m noSubject (pw e 0x10) { s := s } bs)) := by
  change execFill c q {} s = _
  unfold execFill fabricCharge
  dsimp only
  rw [if_pos hruns, onCharge_running _ hrun, decide_eq_true ha, decide_eq_true hn, htail, Bool.and_self, Bool.and_self, hcheck, hmovers,
    if_neg (by decide), if_neg (by decide)]

theorem fill_fills (hclean : NoBad s) (hwrite : WindowOpen s (pw e 0) (pw e 8) .wr) :
    ∃ t, exec (.fill c q {}) s = .next t ∧ Wrote s t c q e (fillByte (pw e 0x10)) (pw e 0) (pw e 8) := by
  obtain ⟨-, -, hends⟩ := memCheck_passes hcheck
  have hdst : OnePlace (pw e 0) (pw e 8) := (hends (pw e 0, pw e 8) (by simp)).1
  have hcut : CutOf (pw e 0) (pw e 0) (pw e 8) (bursts (pw e 0) (pw e 0) (pw e 8)) := cutOf_burstsFrom _ _ _ _ _ _
  obtain ⟨k, us, master, hcharge, hsub, hall⟩ := runCharge_open (src := none) (dst := some (pw e 0, pw e 8)) (fun _ h => nomatch h)
    (fun _ _ => hcut.dstOpen hdst hwrite) c q e (fun s m bs => fillBursts {} m noSubject (pw e 0x10) { s := s } bs)
  obtain ⟨hbad, hpaint⟩ := writeBursts_paints (g := fillByte (pw e 0x10)) (x := { s := { s with free := k } }) master noSubject
    (data := fun y => fillBytes (pw e 0x10) y.2.1 y.2.2) ⟨hclean.1, hclean.2⟩ rfl (hcut.sub hsub) hdst (fun y _ => fillBytes_spec _ _ _)
  refine ⟨_, exec_fill hruns hrun ha hn htail hcheck hmovers, ?_⟩
  rw [hcharge, endMemory_clean (by exact hbad)]
  exact wrote_report (u := { s with free := k }) rfl (fun _ => rfl) hpaint hcut (full_bursts _ _ _) hsub hall

end

end Sys2Proof.Machine

end

section
/-! HOST_READ and HOST_WRITE (R49, R71, R235). -/

namespace Sys2Proof.Machine

open Sys2Proof.Claims

/-! ## HOST_READ -/

theorem getElem?_slice (d : List Byte) (o : Nat) {n k : Nat} (hk : k < n) : (slice d o n)[k]? = some (d.getD (o + k) 0) := by
  rw [slice, List.getD_eq_getElem?_getD]
  by_cases h : k < ((d.drop o).take n).length
  · rw [List.getElem?_append_left h, List.getElem?_take_of_lt hk, List.getElem?_drop]
    rw [List.length_take, List.length_drop] at h
    rw [List.getElem?_eq_getElem (by omega)]
    rfl
  · rw [List.getElem?_append_right (by omega), List.getElem?_replicate]
    rw [List.length_take, List.length_drop] at h ⊢
    rw [if_pos (by omega), List.getElem?_eq_none (by omega)]
    rfl

theorem journalHost_frame (s : State) (c q : Nat) (d : List Byte) : { journalHost s c q d with journal := s.journal } = s := by
  unfold journalHost modFor
  split
  · rfl
  · split
    · exact modJournal_frame s _
    · rfl

/-- A byte of device memory is one of memory or of a core. -/
theorem byteAt_congr {s t : State} (hmem : t.mem = s.mem) (hcores : t.cores = s.cores) (i : Nat) : byteAt t i = byteAt s i := by
  unfold byteAt bytesAt memB spB getCore
  rw [hmem, hcores]

/-- What a host read brings to a byte of its destination. -/
def brought (data : List Byte) (b i : Nat) : Byte := data.getD (i - b) 0

section
variable {s : State} {c q : Nat} {e : Entry} (hruns : fabricRuns s = true) (hb : pw e 8 < 2 ^ 44)
  (hrun : running s c q 0x110 = some e)
  (hcheck : memCheck s (pw e 0x10 < 2 ^ 40 && tailZero e 0x18) (pw e 0x10 ≠ 0) true none (some (pw e 8, pw e 0x10)) false = 0)
  (hmovers : moversRun s [(pw e 8, pw e 0x10)] = true)
include hruns hb hrun hcheck hmovers

theorem exec_hostRead (data : List Byte) : exec (.hostRead c q data {}) s = .next (if canMaster s e.port then
    runCharge s c q e none (some (pw e 8, pw e 0x10)) (hostCuts (pw e 0) (pw e 8) (pw e 0x10)) (fun s m bs =>
      putBursts {} m noSubject (fun a k => slice data (a - pw e 0) k) { s := journalHost s c q (slice data 0 (pw e 0x10)) } bs)
    else report s c q Status.hostPortLost 0) := by
  change execHostRead c q data {} s = _
  unfold execHostRead fabricCharge
  dsimp only
  rw [if_pos hruns, onCharge_running _ hrun, decide_eq_true hb, Bool.true_and, hcheck, hmovers, if_neg (by decide)]
  cases canMaster s e.port <;> rfl

theorem hostRead_reads (hclean : NoBad s) (hwrite : WindowOpen s (pw e 8) (pw e 0x10) .wr) (hmaster : canMaster s e.port = true) (data : List Byte) :
    ∃ t, exec (.hostRead c q data {}) s = .next t ∧ Wrote s t c q e (brought data (pw e 8)) (pw e 8) (pw e 0x10) := by
  obtain ⟨-, -, hends⟩ := memCheck_passes hcheck
  have hdst : OnePlace (pw e 8) (pw e 0x10) := (hends (pw e 8, pw e 0x10) (by simp)).1
  have hcut : CutOf (pw e 0) (pw e 8) (pw e 0x10) (hostCuts (pw e 0) (pw e 8) (pw e 0x10)) := cutOf_burstsFrom _ _ _ _ _ _
  obtain ⟨k, us, master, hcharge, hsub, hall⟩ := runCharge_open (src := none) (dst := some (pw e 8, pw e 0x10)) (fun _ h => nomatch h)
    (fun _ _ => hcut.dstOpen hdst hwrite) c q e (fun s m bs =>
      putBursts {} m noSubject (fun a k => slice data (a - pw e 0) k) { s := journalHost s c q (slice data 0 (pw e 0x10)) } bs)
  let u := journalHost { s with free := k } c q (slice data 0 (pw e 0x10))
  have hframe : { u with journal := s.journal } = { s with free := k } := journalHost_frame { s with free := k } c q _
  have hcores : u.cores = s.cores := (congrArg State.cores hframe :)
  have hclean' : NoBad u := ⟨((congrArg State.poison hframe :)).trans hclean.1, fun l => by rw [getCore, hcores]; exact hclean.2 l⟩
  obtain ⟨hbad, hpaint⟩ := writeBursts_paints (g := brought data (pw e 8)) (x := { s := u }) master noSubject
    (data := fun y => slice data (y.1 - pw e 0) y.2.2) hclean' rfl (hcut.sub hsub) hdst fun y hy => by
      obtain ⟨o, hhost, hdev, -⟩ := hcut y (hsub y hy)
      refine ⟨slice_length _ _ _, fun j hj => ?_⟩
      rw [getElem?_slice _ _ hj, brought, hhost, hdev]
      congr 2
      omega
  refine ⟨_, (exec_hostRead hruns hb hrun hcheck hmovers data).trans (congrArg _ (if_pos hmaster)), ?_⟩
  rw [hcharge, endMemory_clean (by exact hbad)]
  exact wrote_report (u := u) (congrArg State.ctxs hframe :) (byteAt_congr (congrArg State.mem hframe :) hcores) hpaint hcut (full_hostCuts _ _ _) hsub hall

end

/-! ## HOST_WRITE -/

/-- The writes of one burst to host memory (R49, R235). -/
def hostPieces (s : State) (p : HostPort) (a : Nat) (d : List Byte) : List Output :=
  (pieces (getPort s p).cfg.mps (d.length / (getPort s p).cfg.mps + 2) a d).map (fun q => .hostWrite p q.1 q.2)

theorem foldl_emit {α : Type} (f : α → Output) (l : List α) (s : State) :
    l.foldl (fun s x => emit s (f x)) s = { s with out := (l.map f).reverse ++ s.out } := by
  induction l generalizing s with
  | nil => rfl
  | cons x r ih =>
    rw [List.foldl_cons, ih, List.map_cons, List.reverse_cons, List.append_assoc]
    rfl

theorem hostPut_eq (s : State) (p : HostPort) (a : Nat) (d : List Byte) :
    hostPut s p a d = { s with out := (hostPieces s p a d).reverse ++ s.out } := foldl_emit _ _ s

/-- With nothing lasting, the bursts of a host write are sent in order. -/
theorem hostBursts_sends (master subj : Nat) (p : HostPort) {x : Acc} (bs : List (Nat × Nat × Nat)) (hclean : NoBad x.s) (hbad : x.bad = []) :
    hostBursts {} master subj p x bs
      = { x with s := { x.s with out := (bs.flatMap (fun y => hostPieces x.s p y.2.1 (bytesAt x.s y.1 y.2.2))).reverse ++ x.s.out } } := by
  unfold hostBursts
  dsimp only
  rw [readAt_finds_nothing master subj _ hclean, hbad]
  have hfold : ∀ (s : State) (bs : List (Nat × Nat × Nat)), (getPort s p = getPort x.s p) → bs.foldl (fun s y =>
      (goodPieces y.1 (bytesAt x.s y.1 y.2.2) []).foldl (fun s q => hostPut s p (y.2.1 + q.1) q.2) s) s
        = { s with out := (bs.flatMap (fun y => hostPieces x.s p y.2.1 (bytesAt x.s y.1 y.2.2))).reverse ++ s.out } := by
    intro s bs hport
    induction bs generalizing s with
    | nil => rfl
    | cons y r ih =>
      have hone : (goodPieces y.1 (bytesAt x.s y.1 y.2.2) []).foldl (fun s q => hostPut s p (y.2.1 + q.1) q.2) s
          = { s with out := (hostPieces x.s p y.2.1 (bytesAt x.s y.1 y.2.2)).reverse ++ s.out } := by
        rw [goodPieces, if_pos rfl, List.foldl_cons, List.foldl_nil, hostPut_eq, hostPieces, hport]
        rfl
      rw [List.foldl_cons, hone, ih, List.flatMap_cons, List.reverse_append, List.append_assoc]
      cases p <;> exact hport
  rw [hfold x.s bs rfl]

/-- A write of a burst lies in the burst, and is no longer than the port's maximum payload. -/
theorem hostPieces_inside {s : State} {p : HostPort} {a : Nat} {d : List Byte} (hmps : 0 < (getPort s p).cfg.mps) {o : Output}
    (ho : o ∈ hostPieces s p a d) :
    ∃ a0 d0, o = .hostWrite p a0 d0 ∧ a ≤ a0 ∧ a0 + d0.length ≤ a + d.length ∧ d0.length ≤ (getPort s p).cfg.mps := by
  obtain ⟨q, hq, rfl⟩ := List.mem_map.1 ho
  obtain ⟨hlow, hhigh, hlen, -⟩ := pieces_spec hmps _ _ _ q hq
  exact ⟨q.1, q.2, rfl, hlow, hhigh, hlen⟩

/-- Every byte of a burst is written. -/
theorem hostPieces_byte {s : State} {p : HostPort} {a : Nat} {d : List Byte} (hmps : 0 < (getPort s p).cfg.mps) {k : Nat} {b : Byte}
    (hb : d[k]? = some b) : HostByte (hostPieces s p a d) p (a + k) b := by
  have hk : k < d.length := (List.getElem?_eq_some_iff.1 hb).1
  have hfuel : d.length + a % (getPort s p).cfg.mps ≤ (getPort s p).cfg.mps * (d.length / (getPort s p).cfg.mps + 2) := by
    have hmod := Nat.mod_lt a hmps
    have hdiv := Nat.div_add_mod d.length (getPort s p).cfg.mps
    have hrest := Nat.mod_lt d.length hmps
    rw [Nat.mul_add]
    omega
  obtain ⟨q, hq, hfrom, hto⟩ := pieces_cover hmps _ a d hfuel (Nat.le_add_right a k) (by omega)
  obtain ⟨hlow, -, -, hbytes⟩ := pieces_spec hmps _ _ _ q hq
  refine ⟨q.1, q.2, List.mem_map_of_mem hq, hfrom, ?_⟩
  rw [hbytes _ (by omega), ← hb]
  congr 1
  omega

section
variable {s : State} {c q : Nat} {e : Entry} (hruns : fabricRuns s = true) (hb : pw e 8 < 2 ^ 44) (hrun : running s c q 0x111 = some e)
  (hcheck : memCheck s (pw e 0x10 < 2 ^ 40 && tailZero e 0x18) (pw e 0x10 ≠ 0) true (some (pw e 8, pw e 0x10)) none false = 0)
  (hmovers : moversRun s [(pw e 8, pw e 0x10)] = true)
include hruns hb hrun hcheck hmovers

theorem exec_hostWrite : exec (.hostWrite c q {}) s = .next (if canMaster s e.port then
    runCharge s c q e (some (pw e 8, pw e 0x10)) none ((hostCuts (pw e 0) (pw e 8) (pw e 0x10)).map (fun b => (b.2.1, b.1, b.2.2)))
      (fun s m bs => hostBursts {} m noSubject e.port { s := s } bs)
    else report s c q Status.hostPortLost 0) := by
  change execHostWrite c q {} s = _
  unfold execHostWrite fabricCharge
  dsimp only
  rw [if_pos hruns, onCharge_running _ hrun, decide_eq_true hb, Bool.true_and, hcheck, hmovers, if_neg (by decide)]
  cases canMaster s e.port <;> rfl

theorem hostWrite_writes (hclean : NoBad s) (hread : WindowOpen s (pw e 8) (pw e 0x10) .rd) (hmaster : canMaster s e.port = true)
    (hst : e.st ≠ .abortPending) (hmps : 0 < (getPort s e.port).cfg.mps) :
    ∃ t new, exec (.hostWrite c q {}) s = .next t ∧ Reports s t c q 0 0 ∧ t.out = new ++ s.out ∧ t.mem = s.mem ∧ t.cores = s.cores
      ∧ (∀ i < pw e 0x10, HostByte new e.port (pw e 0 + i) (byteAt s (pw e 8 + i)))
      ∧ ∀ o ∈ new, ∃ a0 d, o = .hostWrite e.port a0 d ∧ pw e 0 ≤ a0 ∧ a0 + d.length ≤ pw e 0 + pw e 0x10
          ∧ d.length ≤ (getPort s e.port).cfg.mps := by
  obtain ⟨-, -, hends⟩ := memCheck_passes hcheck
  have hsrc : OnePlace (pw e 8) (pw e 0x10) := (hends (pw e 8, pw e 0x10) (by simp)).1
  let bs := (hostCuts (pw e 0) (pw e 8) (pw e 0x10)).map (fun b => (b.2.1, b.1, b.2.2))
  have hcut : CutOf (pw e 8) (pw e 0) (pw e 0x10) bs := fun y hy => by
    obtain ⟨z, hz, rfl⟩ := List.mem_map.1 hy
    obtain ⟨o, hhost, hdev, hin⟩ := cutOf_burstsFrom (pw e 0) (pw e 0) (pw e 0) (pw e 8) (pw e 0x10) _ z hz
    exact ⟨o, hdev, hhost, hin⟩
  obtain ⟨k, us, master, hcharge, -, hall⟩ := runCharge_open (src := some (pw e 8, pw e 0x10)) (dst := none) (fun _ _ => hcut.srcOpen hsrc hread)
    (fun _ h => nomatch h) c q e (fun s m bs => hostBursts {} m noSubject e.port { s := s } bs)
  have hport : getPort { s with free := k } e.port = getPort s e.port := by cases e.port <;> rfl
  have hsends := hostBursts_sends master noSubject e.port (x := { s := { s with free := k } }) bs ⟨hclean.1, hclean.2⟩ rfl
  rw [hall hst, hsends, endMemory_clean rfl, cleanStatus_running hst] at hcharge
  refine ⟨_, _, (exec_hostWrite hruns hb hrun hcheck hmovers).trans (congrArg _ ((if_pos hmaster).trans hcharge)), ?_, rfl, rfl, rfl, fun i hi => ?_,
    fun o ho => ?_⟩
  · exact report_ctxs rfl c q 0 0
  · obtain ⟨z, hz, hfrom, hto⟩ := full_hostCuts (pw e 0) (pw e 8) (pw e 0x10) i hi
    obtain ⟨o, hhost, hdev, hin⟩ := cutOf_burstsFrom (pw e 0) (pw e 0) (pw e 0) (pw e 8) (pw e 0x10) _ z hz
    obtain ⟨j, hj⟩ := Nat.exists_eq_add_of_le (show o ≤ i by omega)
    have hbyte : (bytesAt s z.2.1 z.2.2)[j]? = some (byteAt s (z.2.1 + j)) :=
      getElem?_bytesAt (hdev ▸ hsrc.part hin) (by omega)
    obtain ⟨a0, d0, hmem, hin0, hat⟩ := hostPieces_byte (s := { s with free := k }) (p := e.port) (a := z.1) (by rw [hport]; exact hmps) hbyte
    rw [hj, ← Nat.add_assoc, ← Nat.add_assoc, ← hhost, ← hdev]
    exact ⟨a0, d0, List.mem_reverse.2 (List.mem_flatMap.2 ⟨_, List.mem_map_of_mem hz, hmem⟩), hin0, hat⟩
  · obtain ⟨y, hy, hpiece⟩ := List.mem_flatMap.1 (List.mem_reverse.1 ho)
    obtain ⟨a0, d0, rfl, hlow, hhigh, hlen⟩ := hostPieces_inside (by rw [hport]; exact hmps) hpiece
    obtain ⟨j, -, hhost, hin⟩ := hcut y hy
    rw [length_bytesAt] at hhigh
    exact ⟨a0, d0, rfl, by omega, by omega, hport ▸ hlen⟩

end

end Sys2Proof.Machine

end

section
/-! GATHER (R236, R237) with nothing lasting: every element lands once, from its row of the table or as zeros. -/

namespace Sys2Proof.Machine

open Sys2Proof.Claims

/-! ## The elements of a gather -/

/-- A gather whose table and index list lie in memory, apart from its elements, and whose elements lie in one place each. -/
structure GatherReady (g : GatherJob) : Prop where
  size : 0 < g.size ∧ g.size ≤ g.pitch
  table : g.table + g.rows * g.size < winBase0
  index : g.index + 4 * g.count < winBase0
  place : ∀ i < g.count, OnePlace (g.dst + i * g.pitch) g.size
  offTable : g.dst + gatherSpan g ≤ g.table ∨ g.table + g.rows * g.size ≤ g.dst
  offIndex : g.dst + gatherSpan g ≤ g.index ∨ g.index + 4 * g.count ≤ g.dst

/-- Index `i` of the list. -/
def indexAt (s : State) (g : GatherJob) (i : Nat) : Nat := leNat (memB s (g.index + 4 * i) 4)

/-- What a gather brings to byte `k` of element `i`. -/
def gathered (s : State) (g : GatherJob) (i k : Nat) : Byte :=
  if indexAt s g i < g.rows then byteAt s (g.table + indexAt s g i * g.size + k) else 0

/-- What it brings to a byte of its destination. -/
def gatheredByte (s : State) (g : GatherJob) (a : Nat) : Byte := gathered s g ((a - g.dst) / g.pitch) ((a - g.dst) % g.pitch)

/-- The byte lies in one of the elements. -/
def InElems (g : GatherJob) (is : List Nat) (a : Nat) : Prop := ∃ i ∈ is, Covers (g.dst + i * g.pitch) g.size a

/-- A gather has brought these elements, counted those beyond the table, and met nothing lasting. -/
structure Gathered (s : State) (g : GatherJob) (y : GatherAcc) (is : List Nat) : Prop where
  found : y.x.bad = []
  clean : y.bad = []
  out : y.out = is.countP (fun i => g.rows ≤ indexAt s g i)
  painted : Painted (gatheredByte s g) s y.x.s (InElems g is)

theorem elem_inside {g : GatherJob} {i : Nat} (hi : i < g.count) : g.dst + i * g.pitch + g.size ≤ g.dst + gatherSpan g := by
  have hmul : i * g.pitch ≤ (g.count - 1) * g.pitch := Nat.mul_le_mul_right _ (by omega)
  unfold gatherSpan
  omega

/-- A range that is read as before, byte by byte, is read as before. -/
theorem bytesAt_congr {s t : State} {a n : Nat} (hplace : OnePlace a n) (hbytes : ∀ k < n, byteAt t (a + k) = byteAt s (a + k)) :
    bytesAt t a n = bytesAt s a n := by
  refine List.ext_getElem? fun k => ?_
  by_cases hk : k < n
  · rw [getElem?_bytesAt hplace hk, getElem?_bytesAt hplace hk, hbytes k hk]
  · rw [List.getElem?_eq_none (by rw [length_bytesAt]; omega), List.getElem?_eq_none (by rw [length_bytesAt]; omega)]

section
variable {s : State} {g : GatherJob} (h : GatherReady g)
include h

theorem gatheredByte_elem {k : Nat} (hk : k < g.size) (i : Nat) : gatheredByte s g (g.dst + i * g.pitch + k) = gathered s g i k := by
  obtain ⟨-, hpitch⟩ := h.size
  have hoff : g.dst + i * g.pitch + k - g.dst = k + g.pitch * i := by rw [Nat.mul_comm]; omega
  rw [gatheredByte, hoff, Nat.add_mul_div_left _ _ (by omega), Nat.add_mul_mod_self_left, Nat.div_eq_of_lt (by omega), Nat.mod_eq_of_lt (by omega),
    Nat.zero_add]

section
variable {y : GatherAcc} {is : List Nat} (hy : Gathered s g y is) (his : ∀ i ∈ is, i < g.count)
include hy his

omit h in
/-- Bytes apart from the destination are still as they were. -/
theorem Gathered.apart {a n : Nat} (hplace : OnePlace a n) (hapart : g.dst + gatherSpan g ≤ a ∨ a + n ≤ g.dst) :
    bytesAt y.x.s a n = bytesAt s a n := by
  refine bytesAt_congr hplace fun k hk => hy.painted.outside _ fun ⟨i, hi, hfrom, hto⟩ => ?_
  have hin := elem_inside (his i hi)
  omega

theorem Gathered.index {i : Nat} (hi : i < g.count) : leNat (bytesAt y.x.s (g.index + 4 * i) 4) = indexAt s g i := by
  have hindex := h.index
  have hoff := h.offIndex
  rw [hy.apart his (.inl (by omega)) (by omega), bytesAt, inWindow_eq_none_of_lt (by omega)]
  rfl

/-- What an element brings. -/
theorem Gathered.row {i : Nat} (hrow : indexAt s g i < g.rows) {k : Nat} (hk : k < g.size) :
    (bytesAt y.x.s (g.table + indexAt s g i * g.size) g.size)[k]? = some (gathered s g i k) := by
  have htable := h.table
  have hoff := h.offTable
  have hmul : (indexAt s g i + 1) * g.size ≤ g.rows * g.size := Nat.mul_le_mul_right _ hrow
  rw [Nat.add_mul, Nat.one_mul] at hmul
  have hplace : OnePlace (g.table + indexAt s g i * g.size) g.size := .inl (by omega)
  rw [hy.apart his hplace (by omega), getElem?_bytesAt hplace hk, gathered, if_pos hrow]

/-- One more element lands. -/
theorem Gathered.elem {i : Nat} (hi : i < g.count) (master subj : Nat) : Gathered s g (gatherElem {} master subj g [] y i) (is ++ [i]) := by
  have hnone : ∀ a n, touchesBad [] a n = false := fun _ _ => rfl
  let d := if indexAt s g i < g.rows then bytesAt y.x.s (g.table + indexAt s g i * g.size) g.size else List.replicate g.size 0
  have hlen : d.length = g.size := by
    simp only [d]
    split
    · exact length_bytesAt _ _ _
    · exact List.length_replicate
  have hd : ∀ k < d.length, d[k]? = some (gatheredByte s g (g.dst + i * g.pitch + k)) := fun k hk => by
    rw [hlen] at hk
    rw [gatheredByte_elem h hk]
    simp only [d]
    split
    case isTrue hrow => exact hy.row h his hrow hk
    case isFalse hrow => rw [gathered, if_neg hrow, List.getElem?_replicate, if_pos hk]
  obtain ⟨t, hwrite, hpaint⟩ := writeAt_paints master subj hy.painted.clean (hlen.symm ▸ h.place i hi) hd
  have helem : gatherElem {} master subj g [] y i = { x := { y.x with s := t }, bad := y.bad, out := y.out + (if indexAt s g i < g.rows then 0 else 1) } := by
    unfold gatherElem
    dsimp only
    rw [hy.index h his hi, hnone, hnone, if_neg (by decide), if_neg (by simp), hwrite, if_pos rfl]
  rw [helem]
  refine ⟨hy.found, hy.clean, ?_, (hy.painted.trans hpaint).congr fun a => ?_⟩
  · rw [List.countP_append, ← hy.out, List.countP_singleton]
    by_cases hrow : indexAt s g i < g.rows
    · simp [hrow]
    · simp [hrow, Nat.le_of_not_lt hrow]
  · rw [hlen]
    simp [InElems, or_and_right, exists_or]

end

/-- Any run of elements lands. -/
theorem Gathered.elems (master subj : Nat) {y : GatherAcc} {is : List Nat} (hy : Gathered s g y is) (his : ∀ i ∈ is, i < g.count) {js : List Nat}
    (hjs : ∀ j ∈ js, j < g.count) : Gathered s g (js.foldl (gatherElem {} master subj g []) y) (is ++ js) := by
  induction js generalizing y is with
  | nil => rwa [List.append_nil]
  | cons j r ih =>
    have hj := hjs j List.mem_cons_self
    have hnext := ih (hy.elem h his hj master subj) (fun i hi => (List.mem_append.1 hi).elim (his i) fun hi => List.mem_singleton.1 hi ▸ hj)
      (fun i hi => hjs i (List.mem_cons_of_mem _ hi))
    rwa [List.append_assoc] at hnext

end

/-! ## Windows -/

/-- The elements of window `w`. -/
def windowElems (n w : Nat) : List Nat := (List.range (min 4096 (n - 4096 * w))).map (fun i => 4096 * w + i)

theorem windowElems_lt {n w i : Nat} (h : i ∈ windowElems n w) : i < n := by
  obtain ⟨j, hj, rfl⟩ := List.mem_map.1 h
  have := List.mem_range.1 hj
  omega

/-- The windows hold the elements in order, each once. -/
theorem flatMap_windowElems (n m : Nat) : (List.range m).flatMap (windowElems n) = List.range (min n (4096 * m)) := by
  induction m with
  | zero => simp
  | succ m ih =>
    rw [List.range_succ, List.flatMap_append, ih, List.flatMap_cons, List.flatMap_nil, List.append_nil, windowElems]
    by_cases hm : 4096 * m ≤ n
    · rw [Nat.min_eq_right hm, ← List.range_add]
      congr 1
      omega
    · rw [Nat.sub_eq_zero_of_le (by omega), Nat.min_zero, List.range_zero, List.map_nil, List.append_nil]
      congr 1
      omega

theorem windowsOf_elems (g : GatherJob) : (windowsOf g).flatMap (windowElems g.count) = List.range g.count := by
  rw [windowsOf, flatMap_windowElems]
  congr 1
  unfold cdiv
  omega

/-- With nothing lasting, a window is its elements in order. -/
theorem gatherWindow_clean (master subj : Nat) (g : GatherJob) {y : GatherAcc} (hbad : y.x.bad = []) (hclean : NoBad y.x.s) (w : Nat) :
    gatherWindow {} master subj g y w = (windowElems g.count w).foldl (gatherElem {} master subj g []) y := by
  unfold gatherWindow
  dsimp only
  rw [readAt_finds_nothing master subj _ hclean, readUnits_clean subj y.x _ hclean.1, hbad]
  rfl

theorem Gathered.windows {s : State} {g : GatherJob} (h : GatherReady g) (master subj : Nat) {y : GatherAcc} {is : List Nat}
    (hy : Gathered s g y is) (his : ∀ i ∈ is, i < g.count) (ws : List Nat) :
    Gathered s g (gatherWindows {} master subj g ws y) (is ++ ws.flatMap (windowElems g.count)) := by
  induction ws generalizing y is with
  | nil => rwa [List.flatMap_nil, List.append_nil]
  | cons w r ih =>
    have hnext := ih (hy.elems h master subj his (js := windowElems g.count w) fun _ => windowElems_lt)
      (fun i hi => (List.mem_append.1 hi).elim (his i) windowElems_lt)
    rw [gatherWindows, if_pos hy.clean, gatherWindow_clean master subj g hy.found hy.painted.clean, List.flatMap_cons, ← List.append_assoc]
    exact hnext

/-- A whole gather. -/
theorem gathered_all {s : State} {g : GatherJob} (h : GatherReady g) (hclean : NoBad s) (master subj : Nat) :
    Gathered s g (gatherWindows {} master subj g (windowsOf g) { x := { s := s } }) (List.range g.count) := by
  have hnone : Gathered s g { x := { s := s } } [] := ⟨rfl, rfl, rfl, (Painted.refl hclean).congr fun a => by simp [InElems]⟩
  have hall := hnone.windows h master subj (fun i hi => absurd hi List.not_mem_nil) (windowsOf g)
  rwa [List.nil_append, windowsOf_elems] at hall

end Sys2Proof.Machine

end

section
/-! GATHER: its ends and its report (R236, R237); the memory charges together (R233 to R237). -/

namespace Sys2Proof.Machine

open Sys2Proof.Claims

/-! ## The ends of a gather -/

/-- Elements that meet nothing from `b` on end there. -/
theorem elems_below {g : GatherJob} {b n : Nat} (hpitch : 0 < g.pitch) (h : g.meets b n = false)
    (hbelow : ∀ i < g.count, g.dst + i * g.pitch < b + n) {i : Nat} (hi : i < g.count) : g.dst + i * g.pitch + g.size ≤ b := by
  unfold GatherJob.meets at h
  dsimp only at h
  by_cases hfirst : b < g.dst + g.size
  · rw [if_pos hfirst] at h
    have hzero := hbelow 0 (by omega)
    simp only [Nat.zero_mul, Nat.add_zero] at hzero h
    simp [show 0 < g.count by omega, hzero] at h
  · rw [if_neg hfirst] at h
    have hlast : i ≤ (b - g.dst - g.size) / g.pitch := by
      by_contra hlt
      have hin : (b - g.dst - g.size) / g.pitch + 1 < g.count := by omega
      simp [hin, hbelow _ hin] at h
    have := (Nat.le_div_iff_mul_le hpitch).1 hlast
    omega

/-- Populated deep memory ends below the windows. -/
theorem deepEnd_below (s : State) : deepBase + deepBytes s < winBase0 :=
  inMem_below (s := s) (a := deepBase + deepBytes s) (n := 0) (by simp [inMem, inDeep])

theorem gatherShape_spec {g : GatherJob} (h : gatherShape g = true) : 1 ≤ g.count ∧ 1 ≤ g.rows ∧ g.size ≤ g.pitch := by
  simp only [gatherShape, Bool.and_eq_true, decide_eq_true_eq] at h
  obtain ⟨⟨⟨⟨-, hcount⟩, hrows⟩, -⟩, hsize⟩ := h
  exact ⟨hcount, hrows, hsize⟩

theorem gatherEnds_spec {s : State} {g : GatherJob} (h : gatherEnds s g = 0) : inFast s g.table (g.rows * g.size) = true
    ∧ inMem s g.index (4 * g.count) = true
    ∧ ((inWindow g.dst (gatherSpan g)).isSome = true ∨ g.meets (deepBase + deepBytes s) (2 ^ 64 * 2 ^ 64) = false) := by
  unfold gatherEnds at h
  dsimp only at h
  rw [firstFail_eq_zero _ (by simp [Status.moveTargetInvalid, Status.coreWithdrawn, Status.addressUnpopulated, Status.hopperRegionProtected])] at h
  simp only [List.mem_cons, forall_eq_or_imp, Bool.and_eq_true, Bool.or_eq_true, Bool.not_eq_true', Bool.or_eq_false_iff] at h
  obtain ⟨⟨⟨⟨htable, -⟩, -⟩, -⟩, -, ⟨hindex, hout⟩, -⟩ := h
  exact ⟨htable, hindex, hout.imp_right And.right⟩

theorem overlaps_false {a n b m : Nat} (h : overlaps a n b m = false) (hn : n ≠ 0) (hm : m ≠ 0) : a + n ≤ b ∨ b + m ≤ a := by
  simp only [overlaps, Bool.and_eq_false_iff, decide_eq_false_iff_not, not_not] at h
  omega

theorem gatherReady {s : State} {g : GatherJob} (hsize : 0 < g.size) (hshape : gatherShape g = true) (hends : gatherEnds s g = 0)
    (hindex : overlaps g.dst (gatherSpan g) g.index (4 * g.count) = false)
    (htable : overlaps g.dst (gatherSpan g) g.table (g.rows * g.size) = false)
    (hfar : ∀ i < g.count, g.dst + i * g.pitch < 2 ^ 64 * 2 ^ 64) : GatherReady g := by
  obtain ⟨hcount, hrows, hpitch⟩ := gatherShape_spec hshape
  obtain ⟨hfast, hlist, hout⟩ := gatherEnds_spec hends
  have hspan : gatherSpan g ≠ 0 := by unfold gatherSpan; omega
  have hmem : inMem s g.table (g.rows * g.size) = true := by rw [inMem, hfast, Bool.true_or]
  have hlen : g.rows * g.size ≠ 0 := Nat.mul_ne_zero (by omega) (by omega)
  refine ⟨⟨hsize, hpitch⟩, inMem_below hmem, inMem_below hlist, fun i hi => ?_, overlaps_false htable hspan hlen,
    overlaps_false hindex hspan (by omega)⟩
  rcases hout with hwin | habove
  · obtain ⟨w, hw⟩ := Option.isSome_iff_exists.1 hwin
    have hplace : OnePlace g.dst (gatherSpan g) := .inr ⟨w.1, w.2, hw⟩
    exact hplace.part (by have := elem_inside hi; omega)
  · have hbelow := elems_below (by omega) habove (fun j hj => Nat.lt_of_lt_of_le (hfar j hj) (Nat.le_add_left _ _)) hi
    exact .inl (by have := deepEnd_below s; omega)

theorem fld_lt (w hi lo : Nat) : fld w hi lo < 2 ^ (hi + 1 - lo) := Nat.mod_lt _ (Nat.two_pow_pos _)

theorem gatherOf_far (e : Entry) (hdst : (gatherOf e).dst < 2 ^ 44) : ∀ i < (gatherOf e).count, (gatherOf e).dst + i * (gatherOf e).pitch < 2 ^ 64 * 2 ^ 64 := by
  intro i hi
  have hcount : (gatherOf e).count < 2 ^ 32 := fld_lt (pw e 0x18) 31 0
  have hpitch : (gatherOf e).pitch < 2 ^ 32 := fld_lt (pw e 0x20) 31 0
  have hmul : i * (gatherOf e).pitch ≤ 2 ^ 32 * 2 ^ 32 := Nat.mul_le_mul (by omega) (by omega)
  omega

theorem gatherOf_size (e : Entry) : 0 < (gatherOf e).size := by
  unfold gatherOf
  dsimp only
  split <;> decide

/-! ## GATHER -/

section
variable {s : State} {c q : Nat} {e : Entry} (hruns : fabricRuns s = true) (hrun : running s c q 0x120 = some e) (hst : e.st ≠ .abortPending)
  (hl8 : isL8 s = true) (htable : (gatherOf e).table < 2 ^ 44) (hindex : (gatherOf e).index < 2 ^ 44) (hdst : (gatherOf e).dst < 2 ^ 44)
  (hreserved : fld (pw e 0x20) 63 33 = 0) (htail : tailZero e 0x28 = true) (hshape : gatherShape (gatherOf e) = true)
  (hends : gatherEnds s (gatherOf e) = 0) (hopen : WindowOpen s (gatherOf e).dst (gatherSpan (gatherOf e)) .wr)
  (hmovers : moversRun s [((gatherOf e).table, (gatherOf e).rows * (gatherOf e).size), ((gatherOf e).index, 4 * (gatherOf e).count),
    ((gatherOf e).dst, gatherSpan (gatherOf e))] = true)
include hruns hrun hst hl8 htable hindex hdst hreserved htail hshape hends hopen hmovers

theorem exec_gather : exec (.gather c q {}) s
    = .next (gatherReport (gatherWindows {} 8 noSubject (gatherOf e) (windowsOf (gatherOf e)) { x := { s := s } }) c q false) := by
  have hstatus : firstFail [((gatherOf e).table < 2 ^ 44 && (gatherOf e).index < 2 ^ 44 && (gatherOf e).dst < 2 ^ 44 && fld (pw e 0x20) 63 33 = 0
      && tailZero e 0x28, Status.fieldReserved), (isL8 s, Status.featureAbsent), (gatherShape (gatherOf e), Status.moveDescInvalid),
      (gatherEnds s (gatherOf e) = 0, gatherEnds s (gatherOf e))] = 0 := by
    rw [decide_eq_true htable, decide_eq_true hindex, decide_eq_true hdst, decide_eq_true hreserved, htail, hl8, hshape, decide_eq_true hends]
    rfl
  change execGather c q {} s = _
  unfold execGather fabricCharge
  dsimp only
  rw [if_pos hruns, onCharge_running _ hrun, hstatus, hmovers, decide_eq_false hst, if_neg (by decide), if_neg (by decide)]
  cases hw : inWindow (gatherOf e).dst (gatherSpan (gatherOf e)) with
  | none => rfl
  | some w =>
    obtain ⟨l, o⟩ := w
    have hregion : checkRegion s l 8 .wr [(o, gatherSpan (gatherOf e))] 0 = (s, true) := checkRegion_open hopen hw (by decide) (by decide) 0
    dsimp only
    simp only [hregion]
    rfl

theorem gather_gathers (hclean : NoBad s)
    (hoffIndex : overlaps (gatherOf e).dst (gatherSpan (gatherOf e)) (gatherOf e).index (4 * (gatherOf e).count) = false)
    (hoffTable : overlaps (gatherOf e).dst (gatherSpan (gatherOf e)) (gatherOf e).table ((gatherOf e).rows * (gatherOf e).size) = false) :
    let g := gatherOf e
    let far := (List.range g.count).countP (fun i => g.rows ≤ indexAt s g i)
    ∃ t, exec (.gather c q {}) s = .next t ∧ Reports s t c q (if far = 0 then 0 else Status.gatherIndexRange) far
      ∧ (∀ i < g.count, ∀ k < g.size, byteAt t (g.dst + i * g.pitch + k) = gathered s g i k)
      ∧ ∀ a, ¬InRows g.dst g.pitch g.count g.size a → byteAt t a = byteAt s a := by
  intro g far
  have hready : GatherReady g := gatherReady (gatherOf_size e) hshape hends hoffIndex hoffTable (gatherOf_far e hdst)
  obtain ⟨-, hbad, hout, hpaint⟩ := gathered_all hready hclean 8 noSubject
  generalize hy : gatherWindows {} 8 noSubject g (windowsOf g) { x := { s := s } } = y at hbad hout hpaint
  have hreport : gatherReport y c q false = report y.x.s c q (if far = 0 then 0 else Status.gatherIndexRange) far := by
    unfold gatherReport
    rw [if_neg (by decide), if_neg (not_not.2 hbad), hout]
    change (if far ≠ 0 then _ else _) = _
    by_cases hfar : far = 0
    · rw [if_neg (not_not.2 hfar), if_pos hfar, hfar]
    · rw [if_pos hfar, if_neg hfar]
  have hexec : exec (.gather c q {}) s = .next (gatherReport (gatherWindows {} 8 noSubject g (windowsOf g) { x := { s := s } }) c q false) :=
    exec_gather hruns hrun hst hl8 htable hindex hdst hreserved htail hshape hends hopen hmovers
  rw [hy, hreport] at hexec
  refine ⟨_, hexec, ?_, ?_, ?_⟩
  · exact report_ctxs hpaint.ctxs c q _ _
  · intro i hi k hk
    exact (hpaint.inside _ ⟨i, List.mem_range.2 hi, by omega, by omega⟩).trans (gatheredByte_elem hready hk i)
  · intro a ha
    exact hpaint.outside a fun ⟨i, hi, hfrom, hto⟩ => ha ⟨i, List.mem_range.1 hi, hfrom, hto⟩

end

end Sys2Proof.Machine

open Sys2Proof Sys2Proof.Machine Sys2Proof.Claims

/-- Settles O29: each charge writes its bursts one after another, each byte of its destination once, and nothing lasting stops it. -/
theorem memoryChargesMoveTheirBytes : Obligations.MemoryChargesMoveTheirBytes := by
  intro s c q e hruns hclean a b n Out fine
  refine ⟨fun hrun ha hb hcheck hmovers hread hwrite hbinding => ?_, fun hrun hst ha hb htail hcheck hmovers hwrite => ?_,
    fun data hrun hst hb hcheck hmovers hwrite => ?_, fun hrun hst hb hcheck hmovers hread hmps => ?_,
    fun hrun hst hl8 htable hindex hdst hreserved htail hshape hends hopen hoffIndex hoffTable hmovers =>
      gather_gathers hruns hrun hst hl8 htable hindex hdst hreserved htail hshape hends hopen hmovers hclean hoffIndex hoffTable⟩
  · obtain ⟨t, hexec, hwrote⟩ := copy_copies hruns hrun ha hb hcheck hmovers hclean hread hwrite hbinding
    refine ⟨t, hexec, hwrote.reports, fun hst i hi => (hwrote.inside hst i hi).trans ?_, hwrote.outside⟩
    rw [copied, Nat.add_sub_cancel_left]
  · obtain ⟨t, hexec, hwrote⟩ := fill_fills hruns hrun ha hb htail hcheck hmovers hclean hwrite
    refine ⟨t, hexec, cleanStatus_running hst ▸ hwrote.reports, fun i hi => (hwrote.inside hst i hi).trans ?_, hwrote.outside⟩
    rw [fillByte, Nat.shiftRight_eq_div_pow]
  · split
    case isTrue hmaster =>
      obtain ⟨t, hexec, hwrote⟩ := hostRead_reads hruns hb hrun hcheck hmovers hclean hwrite hmaster data
      refine ⟨t, hexec, cleanStatus_running hst ▸ hwrote.reports, fun i hi => (hwrote.inside hst i hi).trans ?_, hwrote.outside⟩
      rw [brought, Nat.add_sub_cancel_left]
    case isFalse hmaster => rw [exec_hostRead hruns hb hrun hcheck hmovers data, if_neg hmaster]
  · split
    case isTrue hmaster => exact hostWrite_writes hruns hb hrun hcheck hmovers hclean hread hmaster hst hmps
    case isFalse hmaster => rw [exec_hostWrite hruns hb hrun hcheck hmovers, if_neg hmaster]

end

section
/-! The rows of R90 that write one register or one predicate, and those that set the program counter. -/

namespace Sys2Proof.Machine

open Sys2Proof.Claims

/-! ## Operands of an issued word -/

/-- The marks of a breakpoint aside, an issued word finds its core as it was. -/
theorem opA_issued (s : State) (l w : Nat) (r : Run) : opA (getCore (Issued s l r) l) w = opA (getCore s l) w := by
  rw [getCore_issued]
  rfl

theorem opB_issued (s : State) (l w : Nat) (r : Run) : opB (getCore (Issued s l r) l) w = opB (getCore s l) w := by
  rw [getCore_issued]
  rfl

theorem pReg_issued (s : State) (l : Nat) (r : Run) (i : Nat) : pReg (getCore (Issued s l r) l) i = pReg (getCore s l) i := by
  rw [getCore_issued]
  rfl

theorem gReg_issued (s : State) (l : Nat) (r : Run) (i : Nat) : gReg (getCore (Issued s l r) l) i = gReg (getCore s l) i := by
  rw [getCore_issued]
  rfl

theorem pc_issued (s : State) (l : Nat) (r : Run) : (getCore (Issued s l r) l).pc = (getCore s l).pc := by rw [getCore_issued]

theorem simm_target_issued (s : State) (l w : Nat) (r : Run) : target (getCore (Issued s l r) l) w = target (getCore s l) w := by
  rw [target, pc_issued, target]

/-! ## Results to a general register -/

theorem putG_eq (x : Core) (i : Nat) (v : Word64) : putG x i v = { x with g := (putG x i v).g } := by unfold putG; split <;> rfl

/-- The core of an issued word after a result to g[DST]. -/
theorem getCore_putDst_issued (s : State) (l : Nat) (r : Run) (w : Nat) (v : Word64) : getCore (putDst (Issued s l r) l w v) l
    = { getCore s l with bpSkip := false, haltedAt := false, g := (putG (getCore (Issued s l r) l) (iDst w) v).g, pc := (getCore s l).pc + 1
                         run := (getCore s l).run.map fun r => { r with holding := false, waiting := false } } := by
  rw [putDst, getCore_next, getCore_modCore, putG_eq, getCore_issued]

/-- R90: a command brings `v` to g[DST] and changes nothing else but the program counter. -/
def BringsToDst (s : State) (l w : Nat) (r : Run) (i : Instr) (v : Nat) : Prop :=
  ∃ t, exec i s = .next t ∧ Completes s t l r ((getCore s l).pc + 1) ∧ SameButRegs (getCore s l) (getCore t l)
    ∧ GetsG (getCore t l) (iDst w) v ∧ SameG (getCore s l) (getCore t l) (iDst w) ∧ (getCore t l).p = (getCore s l).p

theorem getsG_putDst (s : State) (l w : Nat) (v : Word64) : GetsG (getCore (putDst s l w v) l) (iDst w) v.toNat := by
  rw [GetsG, gReg_putDst, gReg_putG, apply_ite BitVec.toNat]
  rfl

theorem bringsToDst_putDst {s : State} {l : Nat} {r : Run} {i : Instr} (w : Nat) {v : Word64} {n : Nat} (hrun : (getCore s l).run = some r)
    (hexec : exec i s = .next (putDst (Issued s l r) l w v)) (hv : v.toNat = n) : BringsToDst s l w r i n := by
  refine ⟨_, hexec, completes_putDst w v hrun, ?_, hv ▸ getsG_putDst _ l w v, sameG_putDst s l r w v, ?_⟩
  · rw [SameButRegs, getCore_putDst_issued]
  · rw [getCore_putDst_issued]

/-- An operation on A and B brings its value to g[DST]. -/
theorem bringsToDst_alu {s : State} {l w op : Nat} {r : Run} {i : Instr} {f : Word64 → Word64 → Word64} {n : Nat} (h : Issues s l w r)
    (hop : iOp w = op) (hexec : exec i s = alu l op f s) (hf : (f (opA (getCore s l) w) (opB (getCore s l) w)).toNat = n) :
    BringsToDst s l w r i n := by
  refine bringsToDst_putDst w (seqReady_run h.1) (hexec.trans (congrArg _ (issue_acts _ h hop))) ?_
  rw [← hf, opA_issued, opB_issued]

/-! ## The values of R90 -/

theorem sext_toNat (a : Word64) : sext 64 a.toNat = a.toInt := by rw [← toInt_ofNat, BitVec.ofNat_toNat, BitVec.setWidth_eq]

theorem toNat_sub_word (a b : Word64) : (a - b).toNat = (a.toNat + 2 ^ 64 - b.toNat) % 2 ^ 64 := by
  have := b.isLt
  rw [BitVec.toNat_sub]
  omega

theorem toNat_mulhu (a b : Word64) : (BitVec.ofNat 64 (a.toNat * b.toNat / 2 ^ 64)).toNat = a.toNat * b.toNat / 2 ^ 64 := by
  have hlt : a.toNat * b.toNat < 2 ^ 64 * 2 ^ 64 := Nat.mul_lt_mul'' a.isLt b.isLt
  rw [BitVec.toNat_ofNat, Nat.mod_eq_of_lt (Nat.div_lt_of_lt_mul hlt)]

theorem toNat_shl (a b : Word64) : (a <<< shAmt b).toNat = a.toNat * 2 ^ (b.toNat % 64) % 2 ^ 64 := by
  rw [BitVec.toNat_shiftLeft, Nat.shiftLeft_eq, shAmt]

theorem toNat_shr (a b : Word64) : (a >>> shAmt b).toNat = a.toNat / 2 ^ (b.toNat % 64) := by
  rw [BitVec.toNat_ushiftRight, Nat.shiftRight_eq_div_pow, shAmt]

theorem toNat_sar (a b : Word64) : (a.sshiftRight (shAmt b)).toNat = (sext 64 a.toNat / 2 ^ (b.toNat % 64) % 2 ^ 64).toNat := by
  rw [BitVec.sshiftRight, BitVec.toNat_ofInt, Int.shiftRight_eq_div_pow, sext_toNat]
  rfl

theorem cmpLt_eq (a b : Word64) : cmpLt a b = decide (sext 64 a.toNat < sext 64 b.toNat) := by rw [sext_toNat, sext_toNat]; rfl

theorem toNat_min (a b : Word64) : (if cmpLt b a then b else a).toNat = if sext 64 b.toNat < sext 64 a.toNat then b.toNat else a.toNat := by
  rw [apply_ite BitVec.toNat, cmpLt_eq]
  simp only [decide_eq_true_eq]

theorem toNat_max (a b : Word64) : (if cmpLt a b then b else a).toNat = if sext 64 a.toNat < sext 64 b.toNat then b.toNat else a.toNat := by
  rw [apply_ite BitVec.toNat, cmpLt_eq]
  simp only [decide_eq_true_eq]

theorem iImm_lt (w : Nat) : iImm w < 2 ^ 32 := Nat.mod_lt _ (by decide)

/-- The low half of A beneath an immediate. -/
theorem toNat_sethi (a : Word64) {n : Nat} (hn : n < 2 ^ 32) :
    ((a &&& 0x00000000FFFFFFFF#64) ||| BitVec.ofNat 64 (n * 2 ^ 32)).toNat = a.toNat % 2 ^ 32 + n * 2 ^ 32 := by
  have hlow : a.toNat &&& 0xFFFFFFFF = a.toNat % 2 ^ 32 := Nat.and_two_pow_sub_one_eq_mod a.toNat 32
  have hor := Nat.two_pow_add_eq_or_of_lt (Nat.mod_lt a.toNat (Nat.two_pow_pos 32)) n
  rw [BitVec.toNat_or, BitVec.toNat_and, BitVec.toNat_ofNat, BitVec.toNat_ofNat, Nat.mod_eq_of_lt (a := n * 2 ^ 32) (by omega)]
  rw [Nat.or_comm, Nat.mul_comm n, show (0xFFFFFFFF : Nat) % 2 ^ 64 = 0xFFFFFFFF from rfl, hlow, ← hor, Nat.add_comm]

theorem salfelArithmeticWritesOneRegister : SalfelArithmeticWritesOneRegister := by
  intro s l w r h row hrow hop
  change BringsToDst s l w r (row.2.1 l) (row.2.2 w (opA (getCore s l) w).toNat (opB (getCore s l) w).toNat)
  simp only [aluRows, List.mem_cons, List.not_mem_nil, or_false] at hrow
  rcases hrow with rfl | rfl | rfl | rfl | rfl | rfl | rfl | rfl | rfl | rfl | rfl | rfl | rfl <;> dsimp only at hop ⊢
  · exact bringsToDst_alu (f := (· + ·)) h hop rfl (BitVec.toNat_add _ _)
  · exact bringsToDst_alu (f := (· - ·)) h hop rfl (toNat_sub_word _ _)
  · exact bringsToDst_alu (f := (· * ·)) h hop rfl (BitVec.toNat_mul _ _)
  · exact bringsToDst_alu (f := fun a b => BitVec.ofNat 64 (a.toNat * b.toNat / 2 ^ 64)) h hop rfl (toNat_mulhu _ _)
  · exact bringsToDst_alu (f := (· &&& ·)) h hop rfl (BitVec.toNat_and _ _)
  · exact bringsToDst_alu (f := (· ||| ·)) h hop rfl (BitVec.toNat_or _ _)
  · exact bringsToDst_alu (f := (· ^^^ ·)) h hop rfl (BitVec.toNat_xor _ _)
  · exact bringsToDst_alu (f := fun a b => a <<< shAmt b) h hop rfl (toNat_shl _ _)
  · exact bringsToDst_alu (f := fun a b => a >>> shAmt b) h hop rfl (toNat_shr _ _)
  · exact bringsToDst_alu (f := fun a b => a.sshiftRight (shAmt b)) h hop rfl (toNat_sar _ _)
  · exact bringsToDst_alu (f := fun a b => if cmpLt b a then b else a) h hop rfl (toNat_min _ _)
  · exact bringsToDst_alu (f := fun a b => if cmpLt a b then b else a) h hop rfl (toNat_max _ _)
  · refine bringsToDst_putDst w (seqReady_run h.1) (congrArg _ (issue_acts _ h hop)) ?_
    rw [toNat_sethi _ (iImm_lt w), opA_issued]

/-! ## Results to a predicate -/

theorem bitOf_eq_testBit (n i : Nat) : bitOf n i = n.testBit i := by
  rw [bitOf, Nat.testBit_eq_decide_div_mod_eq, Nat.shiftRight_eq_div_pow]

/-- The number below 2^`n` whose bits are `b`. -/
def ofBits (b : Nat → Bool) (n : Nat) : Nat := (List.range n).foldl (fun a k => a + if b k then 2 ^ k else 0) 0

theorem ofBits_succ (b : Nat → Bool) (n : Nat) : ofBits b (n + 1) = ofBits b n + if b n then 2 ^ n else 0 := by
  rw [ofBits, List.range_succ, List.foldl_append]
  rfl

theorem ofBits_lt (b : Nat → Bool) (n : Nat) : ofBits b n < 2 ^ n := by
  induction n with
  | zero => exact Nat.one_pos
  | succ n ih =>
    rw [ofBits_succ, Nat.pow_succ]
    split <;> omega

theorem testBit_ofBits (b : Nat → Bool) {n i : Nat} (h : i < n) : (ofBits b n).testBit i = b i := by
  induction n with
  | zero => exact absurd h (Nat.not_lt_zero i)
  | succ n ih =>
    have hlow : (ofBits b n).testBit n = false := Nat.testBit_lt_two_pow (ofBits_lt b n)
    rw [ofBits_succ]
    rcases Nat.lt_succ_iff_lt_or_eq.1 h with hlt | rfl
    · cases b n with
      | false => exact ih hlt
      | true => rw [if_pos rfl, Nat.add_comm, Nat.testBit_two_pow_add_gt hlt, ih hlt]
    · cases hb : b i with
      | false => exact hlow
      | true => rw [if_pos rfl, Nat.add_comm, Nat.testBit_two_pow_add_eq, hlow, Bool.not_false]

theorem setPBit_eq (p : Word16) {j : Nat} (hj : j ≠ 0) (b : Bool) :
    setPBit p j b = BitVec.ofNat 16 (ofBits (fun k => if k = j then b else bitOf p.toNat k) 16) := if_neg hj

/-- A predicate that is written reads its new value, every other one its old one; p0 reads true. -/
theorem pReg_putP (x : Core) (j : Nat) (b : Bool) {i : Nat} (hi : i < 16) :
    pReg (putP x j b) i = if i ≠ 0 ∧ i = j then b else pReg x i := by
  by_cases hj : j = 0
  · subst hj
    rw [if_neg fun h => h.1 h.2, putP, setPBit, if_pos rfl]
  · by_cases h0 : i = 0
    · simp [pReg, h0]
    · have hbit : bitOf (setPBit x.p j b).toNat i = if i = j then b else bitOf x.p.toNat i := by
        rw [setPBit_eq _ hj, BitVec.toNat_ofNat, Nat.mod_eq_of_lt (ofBits_lt _ 16), bitOf_eq_testBit, testBit_ofBits _ hi]
      simp [pReg, putP, h0, hbit]

/-- R90: a command writes `b` to p[DST] and changes nothing else but the program counter. -/
def WritesPredicate (s : State) (l w : Nat) (r : Run) (i : Instr) (b : Bool) : Prop :=
  ∃ t, exec i s = .next t ∧ Completes s t l r ((getCore s l).pc + 1) ∧ SameButRegs (getCore s l) (getCore t l)
    ∧ (∀ j, gReg (getCore t l) j = gReg (getCore s l) j)
    ∧ ∀ k < 16, pReg (getCore t l) k = if k ≠ 0 ∧ k = iDst w % 16 then b else pReg (getCore s l) k

theorem writesPredicate_putPred {s : State} {l : Nat} {r : Run} {i : Instr} (w : Nat) (b : Bool) (hrun : (getCore s l).run = some r)
    (hexec : exec i s = .next (putPred (Issued s l r) l w b)) : WritesPredicate s l w r i b := by
  have hcore : getCore (putPred (Issued s l r) l w b) l = { putP (getCore (Issued s l r) l) (iDst w % 16) b with
      pc := (getCore (Issued s l r) l).pc + 1, run := (getCore (Issued s l r) l).run.map fun r => { r with holding := false, waiting := false } } := by
    rw [putPred, getCore_next, getCore_modCore]
    rfl
  refine ⟨_, hexec, ((acted_issued hrun).modCore (f := fun x => putP x (iDst w % 16) b) (fun _ => rfl) fun _ => rfl).completes, ?_,
    fun j => ?_, fun k hk => ?_⟩
  · rw [SameButRegs, hcore, getCore_issued]
    rfl
  · rw [hcore]
    exact gReg_issued s l r j
  · rw [hcore]
    change pReg (putP (getCore (Issued s l r) l) (iDst w % 16) b) k = _
    rw [pReg_putP _ _ _ hk, pReg_issued]

/-- A compare of A and B writes its outcome. -/
theorem writesPredicate_compare {s : State} {l w op : Nat} {r : Run} {i : Instr} {f : Word64 → Word64 → Bool} (h : Issues s l w r)
    (hop : iOp w = op) (hexec : exec i s = compare l op f s) :
    WritesPredicate s l w r i (f (opA (getCore s l) w) (opB (getCore s l) w)) := by
  rw [← opA_issued s l w r, ← opB_issued s l w r]
  exact writesPredicate_putPred w _ (seqReady_run h.1) (hexec.trans (congrArg _ (issue_acts _ h hop)))

theorem psetOp_fields (n : Nat) (a b : Bool) : psetOp (fld n 9 8) a b
    = if n / 256 % 4 = 0 then a && b else if n / 256 % 4 = 1 then a || b else if n / 256 % 4 = 2 then xor a b else !a := by
  have hkind : fld n 9 8 = n / 256 % 4 := congrArg (· % 4) (Nat.shiftRight_eq_div_pow n 8)
  rw [psetOp, hkind]

theorem pset_sources (n : Nat) : fld n 3 0 = n % 16 ∧ fld n 7 4 = n / 16 % 16 := ⟨rfl, congrArg (· % 16) (Nat.shiftRight_eq_div_pow n 4)⟩

theorem salfelComparesWriteOnePredicate : SalfelComparesWriteOnePredicate := by
  intro s l w r h row hrow hop
  simp only [cmpRows, List.mem_cons, List.not_mem_nil, or_false] at hrow
  rcases hrow with rfl | rfl | rfl | rfl
  · have hcmp := writesPredicate_compare (i := .cmpeq l) (f := cmpEq) h hop rfl
    rwa [cmpEq, decide_eq_decide.2 BitVec.toNat_inj.symm] at hcmp
  · exact writesPredicate_compare (i := .cmplt l) (f := cmpLt) h hop rfl
  · exact writesPredicate_compare (i := .cmpltu l) (f := cmpLtu) h hop rfl
  · have hpset := writesPredicate_putPred (i := .pset l) w _ (seqReady_run h.1) (congrArg _ (issue_acts _ h hop))
    rw [psetOp_fields, (pset_sources _).1, (pset_sources _).2, pReg_issued, pReg_issued] at hpset
    exact hpset

end Sys2Proof.Machine
/-- Settles O7: each row by the one register or predicate that its command writes. -/
theorem salfelResultsGoToOneDestination : Obligations.SalfelResultsGoToOneDestination :=
  ⟨Sys2Proof.Machine.salfelArithmeticWritesOneRegister, Sys2Proof.Machine.salfelComparesWriteOnePredicate⟩

end

section
/-! What the end of a launch leaves to its core (R97, R107, R108). -/

namespace Sys2Proof.Machine

open Sys2Proof.Claims

/-! ## The end of an item -/

/-- The entry of a charge is no part of a core. -/
theorem getCore_finishItems (s : State) (c q k : Nat) : getCore (finishItems s c q) k = getCore s k := by
  unfold finishItems
  (repeat' split) <;> rfl

theorem getCore_removeItems (s : State) (c q : Nat) (ls : List Nat) (k : Nat) : getCore (removeItems s c q ls) k = getCore s k :=
  getCore_finishItems _ c q k

theorem getCore_endItem (s : State) (l : Nat) : getCore (endItem s l) l = { getCore s l with run := none } := by
  unfold endItem
  split
  case h_1 r hr => rw [getCore_removeItems, getCore_modCore]
  case h_2 hr => rw [← hr]

theorem getCore_endItem_ne (s : State) {l k : Nat} (h : k ≠ l) : getCore (endItem s l) k = getCore s k := by
  unfold endItem
  split
  · rw [getCore_removeItems, getCore_modCore_ne s h]
  · rfl

/-- A launch that has halted or has been stopped ends on its core once the engines are idle. -/
theorem settleCore_ends {s : State} {l : Nat} {r : Run} (hrun : (getCore s l).run = some r) (hkind : r.item.kind = .launch)
    (hover : r.halted = true ∨ r.stopped = true) (hidle : enginesIdle (getCore s l) = true) :
    getCore (settleCore s l) l = { getCore s l with run := none } := by
  unfold settleCore
  simp only [hrun, hkind, hover, hidle, and_self, if_true]
  rw [getCore_endItem]
  split <;> rfl

/-- Any other launch goes on. -/
theorem settleCore_stays {s : State} {l : Nat} {r : Run} (hrun : (getCore s l).run = some r)
    (h : ¬((r.halted = true ∨ r.stopped = true) ∧ enginesIdle (getCore s l) = true)) : settleCore s l = s := by
  unfold settleCore
  simp only [hrun]
  exact if_neg fun hends => h hends.2

theorem getCore_settleCore (s : State) (l : Nat) :
    getCore (settleCore s l) l = getCore s l ∨ getCore (settleCore s l) l = { getCore s l with run := none } := by
  unfold settleCore
  dsimp only
  split
  case h_1 r hr =>
    split
    · refine .inr ((getCore_endItem _ l).trans ?_)
      split <;> rfl
    · exact .inl rfl
  case h_2 => exact .inl rfl

/-! ## What a program sees of its core -/

/-- Registers, program counter, scratchpad and launch are as they were. -/
structure SameProgram (x y : Core) : Prop where
  g       : y.g = x.g
  p       : y.p = x.p
  pc      : y.pc = x.pc
  scratch : y.scratch = x.scratch
  run     : y.run = x.run

theorem SameProgram.trans {x y z : Core} (h : SameProgram x y) (k : SameProgram y z) : SameProgram x z :=
  ⟨k.g.trans h.g, k.p.trans h.p, k.pc.trans h.pc, k.scratch.trans h.scratch, k.run.trans h.run⟩

/-! ## Grants that return (R412, R413) -/

/-- A grant that returns changes the reservoir of its core, and the grants that engines hold. -/
theorem returnGrant_cases (s : State) (l w : Nat) : ∃ u, u = modCore s l (fun x => { x with reservoir := x.reservoir + min w (8 - x.reservoir) })
    ∧ (returnGrant s l w = u ∨ ∃ code, returnGrant s l w = rescale u code) :=
  ⟨_, rfl, settleRail_cases _⟩

theorem sameProgram_returnGrant (s : State) (l w : Nat) : SameProgram (getCore s l) (getCore (returnGrant s l w) l) := by
  obtain ⟨u, rfl, h | ⟨code, h⟩⟩ := returnGrant_cases s l w
  · rw [h, getCore_modCore]
    exact ⟨rfl, rfl, rfl, rfl, rfl⟩
  · rw [h, getCore_rescale, getCore_modCore]
    exact ⟨rfl, rfl, rfl, rfl, rfl⟩

theorem enginesIdle_rescaled (code : Nat) (x : Core) : enginesIdle (x.rescaled code) = enginesIdle x := by
  rw [enginesIdle, Core.rescaled, List.all_map]
  refine congrArg x.engines.all (funext fun g => ?_)
  cases hj : g.2.job <;> cases ha : g.2.ahead <;> simp [Engine.jobs, hj, ha]

theorem enginesIdle_returnGrant (s : State) (l w : Nat) : enginesIdle (getCore (returnGrant s l w) l) = enginesIdle (getCore s l) := by
  obtain ⟨u, rfl, h | ⟨code, h⟩⟩ := returnGrant_cases s l w
  · rw [h, getCore_modCore]
    rfl
  · rw [h, getCore_rescale, enginesIdle_rescaled, getCore_modCore]
    rfl

/-! ## Descriptors that have not started (R108) -/

/-- A core without the descriptors that have not started; their movers have left the queues of its risers. -/
def Core.discarded (x : Core) : Core :=
  let movers := (x.engines.filter (fun g => 3 ≤ g.1 && (g.2.started g.1).job.isNone)).map (fun g => g.1 - 3)
  dropBreaches { x with
    engines := x.engines.map (fun g => (g.1, g.2.started g.1))
    cells := x.cells.map (fun c => if (getEngine x c.1).ahead.any Job.preload then (c.1, { c.2 with shadow := none }) else c)
    risers := x.risers.map (fun r => (r.1, { r.2 with queue := r.2.queue.filter (fun w => !movers.contains w) })) }

/-- Discarding leaves such a core, to which the grants of the discarded descriptors may return. -/
theorem discardUnstarted_cases (s : State) (l : Nat) : ∃ u, getCore u l = (getCore s l).discarded
    ∧ (discardUnstarted s l = u ∨ ∃ w, discardUnstarted s l = returnGrant u l w) := by
  let v := setCore s l (getCore s l).discarded
  refine ⟨{ v with power := { v.power with waiting := v.power.waiting.filter (fun w => w.1 ≠ l) } }, getCore_setCore s l _, ?_⟩
  unfold discardUnstarted
  by_cases hheld : ((getCore s l).engines.map (fun g => g.2.heldW - (g.2.started g.1).heldW)).sum = 0
  · exact .inl (if_pos hheld)
  · exact .inr ⟨_, if_neg hheld⟩

theorem sameProgram_discardUnstarted (s : State) (l : Nat) : SameProgram (getCore s l) (getCore (discardUnstarted s l) l) := by
  obtain ⟨u, hu, h⟩ := discardUnstarted_cases s l
  have hdiscarded : SameProgram (getCore s l) (getCore u l) := by
    rw [hu]
    exact ⟨rfl, rfl, rfl, rfl, rfl⟩
  rcases h with h | ⟨w, h⟩
  · rw [h]
    exact hdiscarded
  · rw [h]
    exact hdiscarded.trans (sameProgram_returnGrant u l w)

/-- The engines are idle after discarding when no descriptor of theirs runs. -/
theorem enginesIdle_discardUnstarted (s : State) (l : Nat) :
    enginesIdle (getCore (discardUnstarted s l) l) = enginesIdle (getCore s l).discarded := by
  obtain ⟨u, hu, h | ⟨w, h⟩⟩ := discardUnstarted_cases s l
  · rw [h, hu]
  · rw [h, enginesIdle_returnGrant, hu]

/-! ## Stops (R108) -/

theorem getCore_dropQueued (s : State) (c q l : Nat) :
    getCore (dropQueued s c q) l = getCore s l ∨ getCore (dropQueued s c q) l = (getCore s l).without c q := by
  unfold dropQueued
  extract_lets ls t
  have ht : getCore t l = (getCore s l).without c q := getCore_mapCores (Core.without · c q) rfl rfl l
  split
  · exact .inl rfl
  · exact .inr ((getCore_removeItems t c q ls l).trans ht)

/-- A stop that a charge gives tells a core to stop what it runs of it. -/
theorem sameProgram_stopCharge (s : State) (c q l : Nat) : SameProgram ((getCore s l).told c q) (getCore (stopCharge s c q) l) := by
  obtain ⟨t, ht, hstop⟩ : ∃ t, getCore t l = (getCore s l).told c q ∧ stopCharge s c q = dropQueued t c q :=
    ⟨_, getCore_mapCores (Core.told · c q) rfl rfl l, rfl⟩
  rw [hstop, ← ht]
  rcases getCore_dropQueued t c q l with h | h
  · rw [h]
    exact ⟨rfl, rfl, rfl, rfl, rfl⟩
  · rw [h]
    exact ⟨rfl, rfl, rfl, rfl, rfl⟩

/-- R108: a trap leaves its core at its program counter, with its launch stopped or ended. -/
theorem trap_stops {s : State} {l : Nat} {r : Run} (status pc code valA : Nat) (own : Bool) (hrun : (getCore s l).run = some r)
    (hgoes : r.stopped = false) : let t := trap s l status pc code valA own
    (getCore t l).pc = (getCore s l).pc ∧ ∀ q, (getCore t l).run = some q → q.stopped = true := by
  unfold trap
  rw [hrun]
  simp -zeta only [hgoes, Bool.false_eq_true, if_false]
  extract_lets u1 u2 u3 u4 u5 u6
  have h1 : getCore u1 l = getCore s l := by
    unfold u1
    split
    · rfl
    · exact (recorded_raiseEv s _ _ _ _ _ _).sparesPorts.getCore l
  have h2 : getCore u2 l = getCore s l := h1
  have h3 : (getCore u3 l).pc = (getCore u2 l).pc := by
    unfold u3
    rw [leaveRisers, getCore_modCore]
  have h4 : getCore u4 l = { getCore u3 l with run := (getCore u3 l).run.map fun r => { r with stopped := true, holding := false, waiting := false } } :=
    getCore_modCore u3 l _
  have h5 : SameProgram (getCore u4 l) (getCore u5 l) := sameProgram_discardUnstarted u4 l
  have h6 : SameProgram ((getCore u5 l).told r.item.ctx r.item.cseq) (getCore u6 l) := sameProgram_stopCharge u5 _ _ l
  clear_value u1 u2 u3 u4 u5 u6
  have hpc : (getCore u6 l).pc = (getCore s l).pc := by
    rw [h6.pc, Core.told, h5.pc, h4, h3, h2]
  have hstopped : ∀ q, (getCore u6 l).run = some q → q.stopped = true := by
    intro q hq
    rw [h6.run, Core.told, h5.run, h4, Option.map_map] at hq
    obtain ⟨q', -, rfl⟩ := Option.map_eq_some_iff.1 hq
    dsimp only [Function.comp]
    split <;> rfl
  rcases getCore_settleCore u6 l with h | h
  · rw [h]
    exact ⟨hpc, hstopped⟩
  · rw [h]
    exact ⟨hpc, nofun⟩

end Sys2Proof.Machine
end

section
/-! Control transfer, and the end of a launch's instructions (R90, R91, R107, R108). -/

namespace Sys2Proof.Machine

open Sys2Proof.Claims

/-! ## Targets -/

theorem getCore_goto (s : State) (l n : Nat) : getCore (goto s l n) l
    = { getCore s l with pc := n, run := (getCore s l).run.map fun r => { r with holding := false, waiting := false } } := by
  rw [goto, modRun, getCore_modCore, getCore_modCore]

theorem Acted.goes {s u : State} {l : Nat} {r : Run} (h : Acted s u l r) (n : Nat) : Completes s (goto u l n) l r n := by
  refine ⟨?_, ?_, h.tel, h.frame, fun k hk => ?_⟩
  · rw [getCore_goto]
  · rw [getCore_goto, h.run]
    rfl
  · exact ((getCore_modCore_ne _ hk _).trans (getCore_modCore_ne u hk _)).trans (h.others k hk)

/-- R91: a target below 32,768 is an instruction index. -/
theorem target_index {x : Core} {w n : Nat} (hn : n < 32768) (h : (x.pc : Int) + iSimm w = n) :
    targetOk (target x w) = true ∧ (target x w).toNat = n := by
  rw [target, h, targetOk]
  exact ⟨by simp; omega, Int.toNat_natCast n⟩

/-- An instruction that goes to an index keeps every register. -/
theorem goto_issued {s : State} {l n : Nat} {r : Run} {i : Instr} (hrun : (getCore s l).run = some r)
    (hexec : exec i s = .next (goto (Issued s l r) l n)) :
    ∃ t, exec i s = .next t ∧ Completes s t l r n ∧ SameButRegs (getCore s l) (getCore t l) ∧ SameGP (getCore s l) (getCore t l) := by
  refine ⟨_, hexec, (acted_issued hrun).goes n, ?_, fun j => ?_, ?_⟩
  · rw [SameButRegs, getCore_goto, getCore_issued]
  · rw [getCore_goto]
    exact gReg_issued s l r j
  · rw [getCore_goto, getCore_issued]

/-- One that also writes a general register keeps every other. -/
theorem goto_putG {s : State} {l n : Nat} {r : Run} {i : Instr} (j : Nat) (v : Word64) (hrun : (getCore s l).run = some r)
    (hexec : exec i s = .next (goto (modCore (Issued s l r) l fun x => putG x j v) l n)) :
    ∃ t, exec i s = .next t ∧ Completes s t l r n ∧ SameButRegs (getCore s l) (getCore t l)
      ∧ gReg (getCore t l) j = (if j = 0 then 0 else v) ∧ SameG (getCore s l) (getCore t l) j ∧ (getCore t l).p = (getCore s l).p := by
  have hreg : ∀ k, gReg (getCore (goto (modCore (Issued s l r) l fun x => putG x j v) l n) l) k = gReg (putG (getCore (Issued s l r) l) j v) k := by
    intro k
    rw [getCore_goto, getCore_modCore]
    rfl
  refine ⟨_, hexec, ((acted_issued hrun).modCore (fun x => putG_pc x j v) fun x => putG_run x j v).goes n, ?_, ?_, fun k hk => ?_, ?_⟩
  · rw [SameButRegs, getCore_goto, getCore_modCore, putG_eq, getCore_issued]
  · rw [hreg, gReg_putG]
  · rw [hreg, gReg_putG_ne _ _ hk, gReg_issued]
  · rw [getCore_goto, getCore_modCore, putG_eq, getCore_issued]

/-! ## NOP, BR, CALL, JMP and LOOP -/

section

variable {s : State} {l w : Nat} {r : Run} (h : Issues s l w r)

include h

theorem exec_nop (hop : iOp w = 0x00) : exec (.salfelNop l) s = .next (goto (Issued s l r) l ((getCore s l).pc + 1)) := by
  rw [← pc_issued s l r]
  exact congrArg _ (issue_acts _ h hop)

theorem exec_br {n : Nat} (hop : iOp w = 0x20) (hn : n < 32768) (ht : ((getCore s l).pc : Int) + iSimm w = n) :
    exec (.br l) s = .next (goto (Issued s l r) l n) := by
  obtain ⟨hok, hto⟩ := target_index hn ht
  refine congrArg _ ((issue_acts _ h hop).trans ?_)
  simp only [simm_target_issued, hok, hto, if_true]

theorem exec_call {n : Nat} (hop : iOp w = 0x21) (hn : n < 32768) (ht : ((getCore s l).pc : Int) + iSimm w = n) :
    exec (.call l) s = .next (goto (modCore (Issued s l r) l fun x => putG x 63 (BitVec.ofNat 64 ((getCore s l).pc + 1))) l n) := by
  obtain ⟨hok, hto⟩ := target_index hn ht
  refine congrArg _ ((issue_acts _ h hop).trans ?_)
  simp only [simm_target_issued, hok, hto, if_true, modCore, pc_issued]

theorem exec_jmp (hop : iOp w = 0x22) (ha : (opA (getCore s l) w).toNat < 32768) :
    exec (.jmp l) s = .next (goto (Issued s l r) l (opA (getCore s l) w).toNat) := by
  refine congrArg _ ((issue_acts _ h hop).trans ?_)
  simp only [opA_issued, ha, if_true]

/-- The computed difference decides, with DST = g0 too (the model's choice, log 89). -/
theorem exec_loop_taken {n : Nat} (hop : iOp w = 0x23) (hn : n < 32768) (ht : ((getCore s l).pc : Int) + iSimm w = n)
    (hv : gReg (getCore s l) (iDst w) - 1 ≠ 0) :
    exec (.loop l) s = .next (goto (modCore (Issued s l r) l fun x => putG x (iDst w) (gReg (getCore s l) (iDst w) - 1)) l n) := by
  obtain ⟨hok, hto⟩ := target_index hn ht
  refine congrArg _ ((issue_acts _ h hop).trans ?_)
  simp only [loopTaken, gReg_issued, decide_eq_true hv, simm_target_issued, hok, hto, if_true, Bool.true_eq_false, if_false]

theorem exec_loop_ends (hop : iOp w = 0x23) (hv : gReg (getCore s l) (iDst w) - 1 = 0) :
    exec (.loop l) s = .next (putDst (Issued s l r) l w 0) := by
  refine congrArg _ ((issue_acts _ h hop).trans ?_)
  simp only [loopTaken, gReg_issued, hv, ne_eq, not_true_eq_false, decide_false, if_true]

end

theorem getsG_of_gReg {x : Core} {j : Nat} {v : Word64} (h : gReg x j = if j = 0 then 0 else v) : GetsG x j v.toNat := by
  rw [GetsG, h, apply_ite BitVec.toNat]
  rfl

theorem salfelControlTransferSetsTheProgramCounter : SalfelControlTransferSetsTheProgramCounter := by
  intro s l w r h x v
  have hrun := seqReady_run h.1
  refine ⟨fun hop => goto_issued hrun (exec_nop h hop), fun n hn ht => ⟨fun hop => goto_issued hrun (exec_br h hop hn ht),
    fun hop => goto_putG 63 _ hrun (exec_call h hop hn ht), fun hop hv => ?_⟩, fun hop ha => goto_issued hrun (exec_jmp h hop ha), fun hop hv => ?_⟩
  · obtain ⟨t, hexec, hdone, hsame, hreg, hrest⟩ := goto_putG (iDst w) _ hrun (exec_loop_taken h hop hn ht hv)
    exact ⟨t, hexec, hdone, hsame, getsG_of_gReg hreg, hrest⟩
  · exact bringsToDst_putDst w hrun (exec_loop_ends h hop hv) rfl

/-! ## HALT and TRAP -/

theorem seqReady_spec {s : State} {l : Nat} {r : Run} (h : seqReady s l = some r) :
    r.item.kind = .launch ∧ r.halted = false ∧ r.stopped = false ∧ r.waiting = false ∧ coreRuns s l = true := by
  unfold seqReady at h
  split at h
  case h_1 q hq =>
    split at h
    case isTrue hready =>
      cases h
      exact hready
    case isFalse => simp at h
  case h_2 => simp at h

/-- The core of a launch whose program has ended, before the end of its item. -/
theorem exec_halt {s : State} {l w : Nat} {r : Run} (h : Issues s l w r) (hop : iOp w = 0x24) : ∃ u, exec (.halt l) s = .next (settleCore u l)
    ∧ getCore u l = { getCore s l with bpSkip := false, haltedAt := false, run := some { r with halted := true, holding := false, g1 := gReg (getCore s l) 1 } } := by
  refine ⟨_, congrArg _ (issue_acts _ h hop), ?_⟩
  rw [modRun, getCore_modCore, gReg_issued, getCore_issued, seqReady_run h.1]
  rfl

theorem salfelHaltAndTrapEndTheLaunch : SalfelHaltAndTrapEndTheLaunch := by
  intro s l w r h x
  have hrun := seqReady_run h.1
  obtain ⟨hkind, -, hgoes, -, -⟩ := seqReady_spec h.1
  refine ⟨fun hop hbusy => ?_, fun hop hidle => ?_, fun hop => ?_⟩
  · obtain ⟨u, hexec, hu⟩ := exec_halt h hop
    have hstays : settleCore u l = u := by
      refine settleCore_stays (by rw [hu]) fun hends => ?_
      rw [hu] at hends
      exact Bool.noConfusion (hbusy.symm.trans hends.2)
    rw [hstays] at hexec
    exact ⟨u, hexec, by rw [hu], by rw [hu]⟩
  · obtain ⟨u, hexec, hu⟩ := exec_halt h hop
    have hends : getCore (settleCore u l) l = { getCore u l with run := none } := by
      refine settleCore_ends (r := { r with halted := true, holding := false, g1 := gReg x 1 }) (by rw [hu]) hkind (.inl rfl) ?_
      rw [hu]
      exact hidle
    refine ⟨_, hexec, ?_, by rw [hends]⟩
    rw [hends, hu]
  · have hexec : exec (.trap l) s = .next (trap (Issued s l r) l Status.salfelTrap x.pc (iImm w % 2 ^ 16) 0 false) := by
      refine congrArg _ ((issue_acts _ h hop).trans ?_)
      rw [pc_issued]
    obtain ⟨hpc, hstopped⟩ := trap_stops Status.salfelTrap x.pc (iImm w % 2 ^ 16) 0 false (acted_issued hrun).run hgoes
    exact ⟨hexec, _, hexec, hpc.trans (pc_issued s l r), hstopped⟩

end Sys2Proof.Machine

/-- Settles O8: NOP and the transfers by the index that they go to, HALT by the end of its item, TRAP by the stop of its launch. -/
theorem salfelControlFlow : Obligations.SalfelControlFlow :=
  ⟨Sys2Proof.Machine.salfelControlTransferSetsTheProgramCounter, Sys2Proof.Machine.salfelHaltAndTrapEndTheLaunch⟩

end

section
/-! Lasting words that a read finds under their device address (R200): `WordsGood` speaks of the findings that name a word by its
scratchpad address, and a finding may name it by its device address too; then the instruction traps. -/

namespace Sys2Proof.Machine

open Sys2Proof.Claims

/-- A module in ACTIVE whose core 0 runs a launch and stands before the word `w`; general register 1 holds the last entry's address, runner 31 is
a ring of two entries at 0x40, one of them taken. -/
def beforeWord (w : Nat) : State :=
  { power := { st := .active }
    cores := [(0, { run := some { item := { kind := .launch, ctx := 1, cseq := 2 } }, instr := [(0, BitVec.ofNat 64 w)], g := [(1, 0x5FFFC0)]
                    runners := [(31, { cfg := 0x8010000000000001, enabled := true, wp := 1 })] })] }

/-- The words of core 0 that a read finds lasting, each named by its device address. -/
def lostWord (a : Nat) : Finds := { sp := [(winAddr 0 a, true)] }

/-- The program counter of core 0 after a command. -/
def pcAfter (i : Instr) (s : State) : Option Nat :=
  match exec i s with
  | .next t => some (getCore t 0).pc
  | _ => none

theorem pcAfter_next {i : Instr} {s t : State} (h : exec i s = .next t) : pcAfter i s = some (getCore t 0).pc := by
  rw [pcAfter, h]

/-- LD g5, [0]: operation 0x30, DST 5, form 1. -/
def ldWord : Nat := 0x30 * 2 ^ 52 + 5 * 2 ^ 46 + 2 ^ 32

/-- AADD g5, [0], g2: operation 0x32. -/
def aaddWord : Nat := 0x32 * 2 ^ 52 + 5 * 2 ^ 46 + 2 * 2 ^ 34 + 2 ^ 32

/-- POP of runner 31 to the 64 bytes at g1, with the outcome to g3: operation 0x51. -/
def popWord : Nat := 0x51 * 2 ^ 52 + 3 * 2 ^ 46 + 2 ^ 40 + 2 ^ 32 + 31

theorem ld_traps : pcAfter (.ld 0 (lostWord 0)) (beforeWord ldWord) = some 0 := by decide

theorem aadd_traps : pcAfter (.aadd 0 (lostWord 0)) (beforeWord aaddWord) = some 0 := by decide

theorem pop_traps : pcAfter (.pop 0 false (lostWord 0x40)) (beforeWord popWord) = some 0 := by decide

end Sys2Proof.Machine

open Sys2Proof Sys2Proof.Machine Sys2Proof.Claims

/-- Refutes O1: LD of word 0, found lasting under its device address, meets `WordsGood` and traps at its own program counter. -/
theorem not_salfelLoadAndStoreMoveOneWord : ¬ Obligations.SalfelLoadAndStoreMoveOneWord := by
  intro h
  obtain ⟨hload, -⟩ := h (beforeWord ldWord) 0 ldWord { item := { kind := .launch, ctx := 1, cseq := 2 } } (lostWord 0) (by unfold Issues; decide)
  obtain ⟨t, hexec, hpc, -⟩ := hload (by decide) (by unfold Allowed; decide) (by unfold WordsGood; decide)
  have htraps := (pcAfter_next hexec).symm.trans ld_traps
  rw [hpc] at htraps
  exact absurd htraps (by decide)

/-- Refutes O2: AADD to word 0, found lasting under its device address, meets `WordsGood` and traps at its own program counter. -/
theorem not_salfelAtomicsReturnTheOldWord : ¬ Obligations.SalfelAtomicsReturnTheOldWord := by
  intro h
  obtain ⟨t, hexec, hpc, -⟩ := h (beforeWord aaddWord) 0 aaddWord { item := { kind := .launch, ctx := 1, cseq := 2 } } (lostWord 0)
    (by unfold Issues; decide) (by unfold Allowed; decide) (by unfold WordsGood; decide) _ List.mem_cons_self (by decide)
  have htraps := (pcAfter_next hexec).symm.trans aadd_traps
  rw [hpc] at htraps
  exact absurd htraps (by decide)

/-- Refutes O4: POP of a ring entry whose first word is found lasting under its device address meets `WordsGood` and traps at its own
program counter. -/
theorem not_salfelRunnerInstructionsAreFirstInFirstOut : ¬ Obligations.SalfelRunnerInstructionsAreFirstInFirstOut := by
  intro h
  obtain ⟨-, hpop⟩ := h (beforeWord popWord) 0 popWord { item := { kind := .launch, ctx := 1, cseq := 2 } } (lostWord 0x40)
    (by unfold Issues; decide) (by decide)
  obtain ⟨-, htakes⟩ := hpop (by decide) (by decide) _ List.mem_cons_self (by decide)
  obtain ⟨t, hexec, ⟨hpc, -⟩, -⟩ := htakes (by decide) (by unfold Allowed; decide) (fun _ => by unfold WordsGood; decide)
    (by unfold WordsGood; decide) (by decide)
  have htraps := (pcAfter_next hexec).symm.trans pop_traps
  rw [hpc] at htraps
  exact absurd htraps (by decide)

end

section
/-! Dispatch to the engines (R90, R93, R95, R96). -/

namespace Sys2Proof.Machine

open Sys2Proof.Claims

/-! ## Queues of engines -/

theorem getEngine_setEngine (x : Core) (e : Nat) (g : Engine) : getEngine (setEngine x e g) e = g := tget_tput_same _ _ _ _

theorem getEngine_setEngine_ne (x : Core) {e k : Nat} (h : k ≠ e) (g : Engine) : getEngine (setEngine x e g) k = getEngine x k :=
  tget_tput_ne _ _ h _

/-- An engine with a descriptor leaves its queue as it is. -/
theorem startHead_busy {s : State} {l e : Nat} (f : Finds) (h : (getEngine (getCore s l) e).jobs ≠ []) : startHead f s l e = s := by
  unfold startHead
  dsimp only
  split
  case h_1 hjobs _ => exact absurd hjobs h
  case h_2 => rfl

/-- An address of a descriptor that is in the scratchpad and aligned passes the checks of R91. -/
theorem addressed_ok {s : State} {l a align : Nat} (f : State → State) (hlt : a < spSize) (halign : a % align = 0) :
    addressed s l a align f = f s := by
  have hok : addrStatus a align = 0 := by simp [addrStatus, firstFail, hlt, halign]
  rw [addressed, hok]
  rfl

/-! ## ARR, VEC and MOV -/

/-- The issued state with a descriptor behind the others of its engine's queue. -/
def queued (s : State) (l e : Nat) (r : Run) (a : Nat) : State :=
  modCore (Issued s l r) l fun x => setEngine x e
    { getEngine (getCore s l) e with queue := (getEngine (getCore s l) e).queue ++ [(a, (getCore s l).pc, r.item.ctx, r.item.cseq)] }

theorem getEngine_issued (s : State) (l : Nat) (r : Run) (e : Nat) : getEngine (getCore (Issued s l r) l) e = getEngine (getCore s l) e := by
  rw [getCore_issued]
  rfl

/-- A dispatch holds while its engine's queue is full; else its descriptor is queued, and an engine without one takes the head. -/
theorem dispatch_issued (f : Finds) (s : State) (l e : Nat) (r : Run) (a : Nat) : dispatch f (Issued s l r) l e r a
    = if (getEngine (getCore s l) e).unstarted e < queueCap e then startHead f (next (queued s l e r a) l) l e else hold (Issued s l r) l := by
  unfold dispatch
  dsimp only
  rw [getEngine_issued, pc_issued]
  by_cases hfull : queueCap e ≤ (getEngine (getCore s l) e).unstarted e
  · rw [if_pos hfull, if_neg (Nat.not_lt.2 hfull)]
  · rw [if_neg hfull, if_pos (Nat.not_le.1 hfull)]
    rfl

/-- What a dispatch that does not hold leaves before its engine acts. -/
theorem queued_spec {s : State} {l : Nat} {r : Run} (e a : Nat) (hrun : (getCore s l).run = some r) :
    let x := getCore s l
    let v := next (queued s l e r a) l
    Completes s v l r (x.pc + 1) ∧ SameGP x (getCore v l)
      ∧ getEngine (getCore v l) e = { getEngine x e with queue := (getEngine x e).queue ++ [(a, x.pc, r.item.ctx, r.item.cseq)] }
      ∧ ∀ k, k ≠ e → getEngine (getCore v l) k = getEngine x k := by
  intro x v
  have hcore : getCore v l = { setEngine (getCore (Issued s l r) l) e { getEngine x e with
      queue := (getEngine x e).queue ++ [(a, x.pc, r.item.ctx, r.item.cseq)] } with
    pc := (getCore (Issued s l r) l).pc + 1, run := (getCore (Issued s l r) l).run.map fun r => { r with holding := false, waiting := false } } := by
    unfold v queued
    rw [getCore_next, getCore_modCore]
    rfl
  have hacted : Acted s (queued s l e r a) l r := (acted_issued hrun).modCore (fun _ => rfl) fun _ => rfl
  refine ⟨hacted.completes, ⟨fun j => ?_, ?_⟩, ?_, fun k hk => ?_⟩
  · rw [hcore]
    exact gReg_issued s l r j
  · rw [hcore, getCore_issued]
    rfl
  · rw [hcore]
    exact getEngine_setEngine _ _ _
  · rw [hcore]
    exact (getEngine_setEngine_ne _ hk _).trans (getEngine_issued s l r k)

/-- A dispatch instruction whose descriptor lies at a legal address. -/
theorem dispatches {s : State} {l e a : Nat} {r : Run} {i : Instr} (f : Finds) (hrun : (getCore s l).run = some r)
    (hexec : exec i s = .next (dispatchAt f (Issued s l r) l e r a)) (hlt : a < spSize) (halign : a % 64 = 0) :
    let x := getCore s l
    let g := getEngine x e
    if g.unstarted e < queueCap e then
      ∃ t v, exec i s = .next t ∧ Completes s v l r (x.pc + 1) ∧ SameGP x (getCore v l)
        ∧ getEngine (getCore v l) e = { g with queue := g.queue ++ [(a, x.pc, r.item.ctx, r.item.cseq)] }
        ∧ (∀ k, k ≠ e → getEngine (getCore v l) k = getEngine x k) ∧ t = if g.jobs = [] then startHead f v l e else v
    else exec i s = .next (hold (Issued s l r) l) := by
  intro x g
  rw [hexec, dispatchAt, addressed_ok _ hlt halign, dispatch_issued]
  by_cases hroom : g.unstarted e < queueCap e
  · rw [if_pos hroom, if_pos hroom]
    obtain ⟨hdone, hsame, hqueue, hothers⟩ := queued_spec e a hrun
    refine ⟨_, _, rfl, hdone, hsame, hqueue, hothers, ?_⟩
    split
    case isTrue => rfl
    case isFalse hbusy =>
      refine startHead_busy f ?_
      rw [hqueue]
      exact hbusy
  · rw [if_neg hroom, if_neg hroom]

/-! ## QWAIT -/

theorem engineIdle_issued (s : State) (l : Nat) (r : Run) : engineIdle (getCore (Issued s l r) l) = engineIdle (getCore s l) := by
  rw [getCore_issued]
  rfl

/-- The engines that a mask names are idle. -/
theorem all_bitsOf {n m : Nat} {p : Nat → Bool} : (bitsOf n m).all p = true ↔ ∀ e < n, bitOf m e = true → p e = true := by
  simp only [bitsOf, List.all_filter, List.all_eq_true, List.mem_range, Bool.or_eq_true, Bool.not_eq_true']
  refine forall₂_congr fun e _ => ?_
  cases bitOf m e <;> simp

theorem exec_qwait {s : State} {l w : Nat} {r : Run} (h : Issues s l w r) (hop : iOp w = 0x43) : exec (.qwait l) s
    = .next (if (bitsOf 7 (iImm w)).all (engineIdle (getCore s l)) then next (Issued s l r) l else hold (Issued s l r) l) := by
  rw [← engineIdle_issued s l r]
  exact congrArg _ (issue_acts _ h hop)

/-- An instruction with no effect of its own completes. -/
theorem next_issued {s : State} {l : Nat} {r : Run} (hrun : (getCore s l).run = some r) :
    Completes s (next (Issued s l r) l) l r ((getCore s l).pc + 1) ∧ SameGP (getCore s l) (getCore (next (Issued s l r) l) l) := by
  refine ⟨(acted_issued hrun).completes, fun j => ?_, ?_⟩
  · rw [getCore_next]
    exact gReg_issued s l r j
  · rw [getCore_next, getCore_issued]

theorem addrA_issued (s : State) (l w : Nat) (r : Run) (o : Int) : addrA (getCore (Issued s l r) l) w o = addrA (getCore s l) w o := by
  rw [addrA, opA_issued, addrA]

end Sys2Proof.Machine

open Sys2Proof Sys2Proof.Machine Sys2Proof.Claims

/-- Settles O3: one lemma for the three dispatch instructions, the mask of QWAIT by its bits. -/
theorem salfelDispatchQueuesADescriptor : Obligations.SalfelDispatchQueuesADescriptor := by
  intro s l w r f h x u
  have hrun := seqReady_run h.1
  refine ⟨fun row hrow hop hlt halign => ?_, fun hop => ?_⟩
  · simp only [List.mem_cons, List.not_mem_nil, or_false] at hrow
    rcases hrow with rfl | rfl | rfl <;>
      exact dispatches f hrun (by rw [← addrA_issued s l w r]; exact congrArg _ (issue_acts _ h hop)) hlt halign
  · rw [exec_qwait h hop]
    split
    case isTrue hidle =>
      rw [if_pos (all_bitsOf.2 hidle)]
      exact ⟨_, rfl, next_issued hrun⟩
    case isFalse hbusy => rw [if_neg fun hall => hbusy (all_bitsOf.1 hall)]

end

section
/-! The riser instructions (R90, R212 to R216). -/

namespace Sys2Proof.Machine

open Sys2Proof.Claims

/-! ## Risers of a core -/

theorem getRiser_setRiser (s : State) (l i : Nat) (q : Riser) : getRiser (setRiser s l i q) l i = q := by
  rw [getRiser, setRiser, getCore_modCore]
  exact tget_tput_same _ _ _ _

theorem setRiser_setRiser (s : State) (l i : Nat) (p q : Riser) : setRiser (setRiser s l i p) l i q = setRiser s l i q := by
  simp only [setRiser, modCore, getCore_setCore, setCore_setCore, tput_tput]

theorem getRiser_next (s : State) (l i : Nat) : getRiser (next s l) l i = getRiser s l i := by
  rw [getRiser, getCore_next]
  rfl

theorem getRiser_issued (s : State) (l : Nat) (r : Run) (i : Nat) : getRiser (Issued s l r) l i = getRiser s l i := by
  rw [getRiser, getCore_issued]
  rfl

/-- A riser that is written before or after its instruction completes is the same. -/
theorem setRiser_next (s : State) (l i : Nat) (q : Riser) : setRiser (next s l) l i q = next (setRiser s l i q) l := by
  simp only [setRiser, next, goto, modRun, modCore, getCore_setCore, setCore_setCore]

/-! ## Settling a riser (R215, R216) -/

theorem settle_quiet {s : State} {l i : Nat} (hqueue : (getRiser s l i).queue = []) (hwatch : (getRiser s l i).watch = none) :
    settle s l i = s := by
  rw [settle, hqueue, List.length_nil, settleRiser]
  simp only [hqueue, hwatch]

/-- The sequencer's wait on an empty round stands in the riser's queue. -/
theorem settle_waits {s : State} {l i : Nat} (hqueue : (getRiser s l i).queue = [4]) (hwatch : (getRiser s l i).watch = none)
    (hcur : (getRiser s l i).cur = 0) : settle s l i = s := by
  rw [settle, settleRiser]
  simp only [hqueue, hwatch, hcur, if_true]

/-- On a round with a count it is granted, and its instruction completes. -/
theorem settle_grants {s : State} {l i : Nat} (hqueue : (getRiser s l i).queue = [4]) (hwatch : (getRiser s l i).watch = none)
    (hcur : (getRiser s l i).cur ≠ 0) : settle s l i = next (setRiser s l i (getRiser s l i).granted) l := by
  rw [settle, hqueue, List.length_cons, List.length_nil, settleRiser]
  simp only [hqueue, hwatch, hcur, if_false, grantWaiter, if_true]
  have hquiet : (getRiser s l i).granted.queue = [] ∧ (getRiser s l i).granted.watch = none := by
    unfold Riser.granted
    split <;> exact ⟨congrArg List.tail hqueue, hwatch⟩
  obtain ⟨hq, hw⟩ := hquiet
  rw [settleRiser]
  simp only [getRiser_next, getRiser_setRiser, hq, hw]

/-- An observer whose threshold is met is released, and its instruction completes. -/
theorem settle_releases {s : State} {l i n : Nat} (hqueue : (getRiser s l i).queue = []) (hwatch : (getRiser s l i).watch = some n)
    (hn : n ≤ (getRiser s l i).cur) : settle s l i = next (setRiser s l i { getRiser s l i with watch := none }) l := by
  rw [settle, hqueue, List.length_nil, settleRiser]
  simp only [hwatch, if_pos hn, getRiser_next, getRiser_setRiser, hqueue]

/-! ## Signals (R214, R215) -/

theorem addCount_fits {v c : Nat} (h : v + c ≤ 65535) : addCount v c = (v + c, false) := if_neg (Nat.not_lt.2 h)

section

variable {s : State} {l i c : Nat} {q : Riser} (rnd word subj : Nat) (hq : getRiser s l i = q) (hfault : q.fault = 0)

include hq hfault

/-- A signal of the current round counts there. -/
theorem signal_current (hqueue : q.queue = []) (hwatch : q.watch = none) (hroom : q.cur + c ≤ 65535) :
    signal s l i c 0 rnd word subj = setRiser s l i { q with cur := q.cur + c } := by
  have hsettle : settle (setRiser s l i { q with cur := q.cur + c }) l i = setRiser s l i { q with cur := q.cur + c } := by
    refine settle_quiet ?_ ?_
    · rw [getRiser_setRiser, hqueue]
    · rw [getRiser_setRiser, hwatch]
  simpa [signal, hq, hfault, addCount_fits hroom] using hsettle

/-- A signal of the next round waits there. -/
theorem signal_coming (hroom : q.nxt + c ≤ 65535) : signal s l i c 1 rnd word subj = setRiser s l i { q with nxt := q.nxt + c } := by
  simp [signal, hq, hfault, addCount_fits hroom]

end

/-! ## Instructions that wait -/

/-- The instruction of core `l` waits at a riser. -/
def waits (s : State) (l : Nat) : State := modRun s l fun r => { r with holding := true, waiting := true }

theorem getRiser_waits (s : State) (l i : Nat) : getRiser (waits s l) l i = getRiser s l i := by
  rw [getRiser, waits, modRun, getCore_modCore]
  rfl

/-- The completion of an instruction ends its wait. -/
theorem next_waits (s : State) (l i : Nat) (q : Riser) : next (setRiser (waits s l) l i q) l = next (setRiser s l i q) l := by
  simp only [next, goto, modRun, setRiser, waits, modCore, getCore_setCore, setCore_setCore, Option.map_map, Function.comp_def]

/-- An instruction that completes with riser `i` at `q`. -/
theorem completes_setRiser {s : State} {l : Nat} {r : Run} (i : Nat) (q : Riser) (hrun : (getCore s l).run = some r) :
    let t := next (setRiser (Issued s l r) l i q) l
    Completes s t l r ((getCore s l).pc + 1) ∧ SameGP (getCore s l) (getCore t l) ∧ getRiser t l i = q := by
  intro t
  have hacted : Acted s (setRiser (Issued s l r) l i q) l r := (acted_issued hrun).modCore (fun _ => rfl) fun _ => rfl
  refine ⟨hacted.completes, ⟨fun j => ?_, ?_⟩, ?_⟩
  · unfold t
    rw [getCore_next, setRiser, getCore_modCore]
    exact gReg_issued s l r j
  · unfold t
    rw [getCore_next, setRiser, getCore_modCore, getCore_issued]
  · rw [getRiser_next, getRiser_setRiser]

/-! ## The instructions, on a sound riser without waiters -/

section

variable {s : State} {l w i : Nat} {r : Run} {q : Riser} (h : Issues s l w r)
  (hi : (opA (getCore s l) w + BitVec.ofNat 64 (iImm w % 4096)).toNat = i) (hlt : i < 4096) (hq : getRiser s l i = q)

include hi hlt

theorem withRiser_issued (f : State → Nat → State) : withRiser (Issued s l r) l w f = f (Issued s l r) i := by
  rw [withRiser, opA_issued, hi]
  exact if_pos hlt

include hq

theorem liveRiser_issued (hfault : q.fault = 0) (f : State → Nat → State) : liveRiser (Issued s l r) l w f = f (Issued s l r) i := by
  rw [liveRiser, withRiser_issued hi hlt, getRiser_issued, hq]
  exact if_neg (not_not.2 hfault)

include h

theorem exec_rset (hop : iOp w = 0x5B) (hqueue : q.queue = []) (hwatch : q.watch = none) : exec (.rset l) s
    = .next (next (setRiser (Issued s l r) l i { q with cur := fld (iImm w) 31 16, nxt := 0, round := 0, fault := 0 }) l) := by
  refine congrArg _ ((issue_acts _ h hop).trans ?_)
  rw [withRiser_issued hi hlt, getRiser_issued, hq, settle_quiet, setRiser_next]
  · rw [getRiser_setRiser, hqueue]
  · rw [getRiser_setRiser, hwatch]

theorem exec_rread (hop : iOp w = 0x5C) : exec (.rread l) s
    = .next (putDst (Issued s l r) l w (BitVec.ofNat 64 (q.cur + q.nxt + q.cur * 2 ^ 32 + q.nxt * 2 ^ 48))) := by
  refine congrArg _ ((issue_acts _ h hop).trans ?_)
  rw [withRiser_issued hi hlt, getRiser_issued, hq]

theorem exec_sig (hop : iOp w = 0x58) (hfault : q.fault = 0) (hqueue : q.queue = []) (hwatch : q.watch = none)
    (hcount : 0 < fld (iImm w) 31 16)
    (hroom : (if fld (iImm w) 12 12 = 0 then q.cur else q.nxt) + fld (iImm w) 31 16 ≤ 65535) : exec (.sig l) s
    = .next (next (setRiser (Issued s l r) l i (if fld (iImm w) 12 12 = 0 then { q with cur := q.cur + fld (iImm w) 31 16 }
        else { q with nxt := q.nxt + fld (iImm w) 31 16 })) l) := by
  have hmode : fld (iImm w) 12 12 < 2 := Nat.mod_lt _ (by decide)
  refine congrArg _ ((issue_acts _ h hop).trans ?_)
  rw [withRiser_issued hi hlt, if_neg (Nat.ne_of_gt hcount), liveRiser_issued hi hlt hq hfault]
  have hnext : getRiser (next (Issued s l r) l) l i = q := by rw [getRiser_next, getRiser_issued, hq]
  by_cases hnow : fld (iImm w) 12 12 = 0
  · rw [if_pos hnow] at hroom ⊢
    rw [hnow, signal_current _ _ _ hnext hfault hqueue hwatch hroom, setRiser_next]
  · rw [if_neg hnow] at hroom ⊢
    rw [show fld (iImm w) 12 12 = 1 by omega, signal_coming _ _ _ hnext hfault hroom, setRiser_next]

theorem exec_waitc (hop : iOp w = 0x59) (hfault : q.fault = 0) (hqueue : q.queue = []) : exec (.waitc l) s
    = .next (settle (setRiser (waits (Issued s l r) l) l i { q with queue := [4] }) l i) := by
  refine congrArg _ ((issue_acts _ h hop).trans ?_)
  rw [liveRiser_issued hi hlt hq hfault]
  change settle (setRiser (waits (Issued s l r) l) l i { getRiser (waits (Issued s l r) l) l i with
    queue := (getRiser (waits (Issued s l r) l) l i).queue ++ [4] }) l i = _
  rw [getRiser_waits, getRiser_issued, hq, hqueue]
  rfl

theorem exec_waitc_waits (hop : iOp w = 0x59) (hfault : q.fault = 0) (hqueue : q.queue = []) (hwatch : q.watch = none) (hcur : q.cur = 0) :
    exec (.waitc l) s = .next (setRiser (waits (Issued s l r) l) l i { q with queue := [4] }) := by
  rw [exec_waitc h hi hlt hq hop hfault hqueue, settle_waits]
  · rw [getRiser_setRiser]
  · rw [getRiser_setRiser, hwatch]
  · rw [getRiser_setRiser, hcur]

theorem exec_waitc_granted (hop : iOp w = 0x59) (hfault : q.fault = 0) (hqueue : q.queue = []) (hwatch : q.watch = none) (hcur : q.cur ≠ 0) :
    exec (.waitc l) s = .next (next (setRiser (Issued s l r) l i { q with queue := [4] }.granted) l) := by
  rw [exec_waitc h hi hlt hq hop hfault hqueue, settle_grants]
  · rw [getRiser_setRiser, setRiser_setRiser, next_waits]
  · rw [getRiser_setRiser]
  · rw [getRiser_setRiser, hwatch]
  · rw [getRiser_setRiser]
    exact hcur

theorem exec_waito (hop : iOp w = 0x5A) (hfault : q.fault = 0) (hqueue : q.queue = []) (hcount : fld (iImm w) 31 16 ≤ q.cur) :
    exec (.waito l) s = .next (next (setRiser (Issued s l r) l i { q with watch := none }) l) := by
  refine congrArg _ ((issue_acts _ h hop).trans ?_)
  rw [liveRiser_issued hi hlt hq hfault]
  change settle (setRiser (waits (Issued s l r) l) l i { getRiser (waits (Issued s l r) l) l i with watch := some (fld (iImm w) 31 16) }) l i = _
  rw [getRiser_waits, getRiser_issued, hq, settle_releases (n := fld (iImm w) 31 16)]
  · rw [getRiser_setRiser, setRiser_setRiser, next_waits]
  · rw [getRiser_setRiser, hqueue]
  · rw [getRiser_setRiser]
  · rw [getRiser_setRiser]
    exact hcount

end

end Sys2Proof.Machine
open Sys2Proof Sys2Proof.Machine Sys2Proof.Claims

/-- Settles O5: each instruction by the riser that it leaves when it completes, or waits. -/
theorem salfelRiserInstructionsActOnOneRiser : Obligations.SalfelRiserInstructionsActOnOneRiser := by
  intro s l w r h x i q hlt hfault hqueue hwatch
  have hrun := seqReady_run h.1
  refine ⟨fun hop hcount hroom => ?_, fun hop hcur => ?_, fun hop hcur => ?_, fun hop hcur => ?_, fun hop hcount => ?_, fun hop => ?_, fun hop => ?_⟩
  · obtain ⟨hdone, hsame, hriser⟩ := completes_setRiser i (if fld (iImm w) 12 12 = 0 then { q with cur := q.cur + fld (iImm w) 31 16 }
      else { q with nxt := q.nxt + fld (iImm w) 31 16 }) hrun
    exact ⟨_, exec_sig h rfl hlt rfl hop hfault hqueue hwatch hcount hroom, hdone, hsame, hriser⟩
  · obtain ⟨hdone, -, hriser⟩ := completes_setRiser i { q with queue := [4] }.granted hrun
    refine ⟨_, exec_waitc_granted (q := q) h rfl hlt rfl hop hfault hqueue hwatch (by omega), hdone, hriser.trans ?_⟩
    rw [Riser.granted, if_neg (Nat.ne_of_gt hcur), ← hqueue]
    rfl
  · obtain ⟨hdone, -, hriser⟩ := completes_setRiser i { q with queue := [4] }.granted hrun
    refine ⟨_, exec_waitc_granted (q := q) h rfl hlt rfl hop hfault hqueue hwatch (by omega), hdone, hriser.trans ?_⟩
    rw [Riser.granted, if_pos hcur, ← hqueue]
    rfl
  · have hcore : getCore (setRiser (waits (Issued s l r) l) l i { q with queue := [4] }) l = { getCore (Issued s l r) l with
        run := (getCore (Issued s l r) l).run.map fun r => { r with holding := true, waiting := true }
        risers := tput (getCore (Issued s l r) l).risers i { q with queue := [4] } } := by
      rw [setRiser, getCore_modCore, waits, modRun, getCore_modCore]
    refine ⟨_, exec_waitc_waits h rfl hlt rfl hop hfault hqueue hwatch hcur, ?_, ?_, getRiser_setRiser _ l i _⟩
    · rw [hcore]
      exact pc_issued s l r
    · rw [hcore, getCore_issued, hrun]
      rfl
  · obtain ⟨hdone, -, hriser⟩ := completes_setRiser i { q with watch := none } hrun
    refine ⟨_, exec_waito h rfl hlt rfl hop hfault hqueue hcount, hdone, hriser.trans ?_⟩
    rw [← hwatch]
  · obtain ⟨hdone, -, hriser⟩ := completes_setRiser i { q with cur := fld (iImm w) 31 16, nxt := 0, round := 0, fault := 0 } hrun
    refine ⟨_, exec_rset h rfl hlt rfl hop hqueue hwatch, hdone, hriser.trans ?_⟩
    rw [← hfault]
  · refine ⟨_, exec_rread h rfl hlt rfl hop, completes_putDst w _ hrun, ?_, ?_⟩
    · rw [getRiser, getCore_putDst_issued]
      rfl
    · rw [← BitVec.toNat_ofNat]
      exact getsG_putDst _ l w _

end

section
/-! The completion of a descriptor (R95, R126, R135, R216, R412). -/

namespace Sys2Proof.Machine

open Sys2Proof.Claims

/-! ## A descriptor leaves its engine -/

/-- Risers and launch are as they were, and so is the reservoir but for `w` watts that it took up. -/
structure Refills (x y : Core) (w : Nat) : Prop where
  risers    : y.risers = x.risers
  run       : y.run = x.run
  reservoir : y.reservoir = x.reservoir + w

theorem Refills.trans {x y z : Core} {v w : Nat} (h : Refills x y v) (k : Refills y z w) : Refills x z (v + w) :=
  ⟨k.risers.trans h.risers, k.run.trans h.run, by rw [k.reservoir, h.reservoir, Nat.add_assoc]⟩

/-- Rows that are written change the accumulator store alone. -/
theorem foldl_accWrite_frame (a : Nat) (row : Nat → Nat) (vs : Nat → List Word32) (ms : List Nat) (x : Core) :
    { ms.foldl (fun x m => accWrite x a (row m) (vs m)) x with acc := x.acc, accBad := x.accBad } = x := by
  induction ms generalizing x with
  | nil => rfl
  | cons m r ih => exact congrArg (fun y : Core => { y with acc := x.acc, accBad := x.accBad }) (ih (accWrite x a (row m) (vs m)))

theorem spoilRows_core (s : State) (l a : Nat) (j : Job) :
    { getCore (spoilRows s l a j) l with acc := (getCore s l).acc, accBad := (getCore s l).accBad } = getCore s l := by
  unfold spoilRows
  split
  · have hcore := getCore_modCore s l fun x => (List.range (aRows j.desc)).foldl (fun x m => accWrite x a (aAccRow j.desc + m)
      ((List.range (aCols j.desc)).map (fun n => (Config.freeWord (s.free + 128 * m + n)).setWidth 32))) x
    have hframe := foldl_accWrite_frame a (aAccRow j.desc + ·)
      (fun m => (List.range (aCols j.desc)).map (fun n => (Config.freeWord (s.free + 128 * m + n)).setWidth 32)) (List.range (aRows j.desc)) (getCore s l)
    rw [← hcore] at hframe
    exact hframe
  · rfl

/-- Of an engine whose queue is empty and that has no descriptor behind the one that leaves, nothing is left. -/
theorem leaveEngine_frees {s : State} {l e : Nat} (j : Job) (hqueue : (getEngine (getCore s l) e).queue = [])
    (hahead : (getEngine (getCore s l) e).ahead = none) :
    Refills (getCore s l) (getCore (leaveEngine s l e j) l) 0 ∧ getEngine (getCore (leaveEngine s l e j) l) e = {} := by
  unfold leaveEngine
  extract_lets u kept v
  have hu : { getCore u l with acc := (getCore s l).acc, accBad := (getCore s l).accBad } = getCore s l := by
    unfold u
    split
    · exact spoilRows_core s l e j
    · rfl
  have hv : { getCore v l with cells := (getCore u l).cells } = getCore u l := by
    unfold v
    split
    · rw [modCells, getCore_modCore]
    · rfl
  have hkept : Refills (getCore s l) (getCore u l) 0 :=
    ⟨(congrArg Core.risers hu :), (congrArg Core.run hu :), (congrArg Core.reservoir hu :)⟩
  have hshut : Refills (getCore u l) (getCore v l) 0 :=
    ⟨(congrArg Core.risers hv :), (congrArg Core.run hv :), (congrArg Core.reservoir hv :)⟩
  have hrefills := hkept.trans hshut
  have hengines : (getCore v l).engines = (getCore s l).engines :=
    (congrArg Core.engines hv :).trans (congrArg Core.engines hu :)
  clear_value u v
  rw [getCore_modCore]
  refine ⟨⟨hrefills.risers, hrefills.run, hrefills.reservoir⟩, ?_⟩
  refine (getEngine_setEngine (getCore v l) e _).trans ?_
  rw [getEngine, hengines]
  change ({ queue := (getEngine (getCore s l) e).queue, job := none, ahead := (getEngine (getCore s l) e).ahead } : Engine) = {}
  rw [hqueue, hahead]

/-! ## Its counters and its grant -/

theorem getCore_countDone (s : State) (l e k : Nat) : getCore (countDone s l e) k = getCore s k := by
  unfold countDone
  split <;> rfl

/-- R412: a grant refills its reservoir up to 8 W; an engine without descriptors stays so. -/
theorem returnGrant_refills {s : State} {l e : Nat} (w : Nat) (hfree : getEngine (getCore s l) e = {}) :
    Refills (getCore s l) (getCore (returnGrant s l w) l) (min w (8 - (getCore s l).reservoir))
      ∧ getEngine (getCore (returnGrant s l w) l) e = {} := by
  obtain ⟨u, rfl, h | ⟨code, h⟩⟩ := returnGrant_cases s l w
  · rw [h, getCore_modCore]
    exact ⟨⟨rfl, rfl, rfl⟩, hfree⟩
  · rw [h, getCore_rescale, getCore_modCore]
    refine ⟨⟨rfl, rfl, rfl⟩, ?_⟩
    refine (tget_map ({} : Engine) (fun g : Engine => { g with job := g.job.map (Job.rescaled code), ahead := g.ahead.map (Job.rescaled code) })
      rfl (getCore s l).engines e).trans ?_
    rw [getEngine] at hfree
    rw [hfree]
    rfl

/-- An engine without descriptors goes on with none. -/
theorem goOn_free {s : State} {l e : Nat} (f : Finds) (hfree : getEngine (getCore s l) e = {}) : goOn f s l e = s := by
  simp [goOn, startHead, hfree, Engine.jobs]

/-! ## COMPLETION_SIGNAL -/

/-- The state in which a finished descriptor's completion signal is sent: it has left its engine, and its grant has returned. -/
def released (s : State) (l e : Nat) (j : Job) : State :=
  let u := countDone (leaveEngine s l e j) l e
  if j.granted = 0 then u else returnGrant u l j.granted

theorem released_spec {s : State} {l e : Nat} (j : Job) (hqueue : (getEngine (getCore s l) e).queue = [])
    (hahead : (getEngine (getCore s l) e).ahead = none) :
    Refills (getCore s l) (getCore (released s l e j) l) (if j.granted = 0 then 0 else min j.granted (8 - (getCore s l).reservoir))
      ∧ getEngine (getCore (released s l e j) l) e = {} := by
  obtain ⟨hleave, hfree⟩ := leaveEngine_frees j hqueue hahead
  have hcore := getCore_countDone (leaveEngine s l e j) l e l
  rw [← hcore] at hleave hfree
  unfold released
  dsimp only
  split
  · exact ⟨hleave, hfree⟩
  · obtain ⟨hgrant, hstill⟩ := returnGrant_refills j.granted hfree
    rw [hleave.reservoir, Nat.add_zero] at hgrant
    refine ⟨?_, hstill⟩
    have hboth := hleave.trans hgrant
    rwa [Nat.zero_add] at hboth

/-- R95, R216: the completion signal of a descriptor with none behind it is all that follows while its launch goes on. -/
theorem exec_completionSignal {s : State} {l e i : Nat} {j : Job} {r : Run} {q : Riser} (f : Finds) (hjob : jobAt s l e 4 = some j)
    (hqueue : (getEngine (getCore s l) e).queue = []) (hahead : (getEngine (getCore s l) e).ahead = none) (hrun : (getCore s l).run = some r)
    (hhalted : r.halted = false) (hstopped : r.stopped = false) (hdone : doneRiser e j.desc = some i) (hq : getRiser s l i = q)
    (hfault : q.fault = 0) (hwaiters : q.queue = []) (hwatch : q.watch = none) (hroom : q.cur < 65535) :
    exec (.completionSignal l e f) s = .next (setRiser (released s l e j) l i { q with cur := q.cur + 1 }) := by
  obtain ⟨hrefills, hfree⟩ := released_spec j hqueue hahead
  have hriser : getRiser (released s l e j) l i = q := by rw [getRiser, hrefills.risers, ← hq, getRiser]
  have hcore := getCore_modCore (released s l e j) l fun x => { x with risers := tput x.risers i { q with cur := q.cur + 1 } }
  have hexec : exec (.completionSignal l e f) s
      = .next (settleCore (goOn f (signalDone (released s l e j) l i (engMaster e)) l e) l) := by
    change execCompletionSignal l e f s = _
    simp only [execCompletionSignal, hjob, hdone, released]
  rw [hexec, signalDone, signal_current _ _ _ hriser hfault hwaiters hwatch hroom, goOn_free f, settleCore_stays (r := r)]
  · rw [setRiser, hcore]
    exact hrefills.run.trans hrun
  · rw [hhalted, hstopped]
    simp
  · rw [setRiser, hcore]
    exact hfree

/-- R135: a strike of its array by which 2^24 check groups have passed ends, every other one stays. -/
theorem strikeExpiry_ends (s : State) (l a : Nat) : ∃ t, exec (.strikeExpiry l a) s = .next t ∧ { t with fence := s.fence } = s
    ∧ { t.fence with strikes := s.fence.strikes } = s.fence
    ∧ ∀ k, k ∈ t.fence.strikes ↔ k ∈ s.fence.strikes ∧ ¬(k.1 = siteOf s l ∧ k.2.1 = a ∧ 2 ^ 24 ≤ k.2.2) := by
  refine ⟨_, rfl, rfl, rfl, fun k => ?_⟩
  simp only [List.mem_filter, Bool.not_eq_true', Bool.and_eq_false_iff, decide_eq_false_iff_not, not_and_or, or_assoc]

end Sys2Proof.Machine

open Sys2Proof Sys2Proof.Machine

/-- Settles O12: what the descriptor leaves to its core, then the count of its riser; the strikes by the filter of the expiry. -/
theorem completionSignalsItsRiserAndReturnsTheGrant : Obligations.CompletionSignalsItsRiserAndReturnsTheGrant := by
  refine ⟨fun s l e i j r f hjob hqueue hahead hrun hhalted hstopped hdone => ?_, strikeExpiry_ends⟩
  intro q hfault hwaiters hwatch hroom
  obtain ⟨hrefills, hfree⟩ := released_spec j hqueue hahead
  have hcore := getCore_modCore (released s l e j) l fun x => { x with risers := tput x.risers i { q with cur := q.cur + 1 } }
  refine ⟨_, exec_completionSignal f hjob hqueue hahead hrun hhalted hstopped hdone rfl hfault hwaiters hwatch hroom, ?_, getRiser_setRiser _ l i _, ?_⟩
  · rw [setRiser, hcore]
    exact congrArg Engine.job hfree
  · rw [setRiser, hcore]
    exact hrefills.reservoir

end

section
/-! The start of a work-queue item on a core, and the stop of what it runs (R84, R85, R104, R107 to R109, R208). -/

namespace Sys2Proof.Machine

open Sys2Proof.Claims

/-! ## Held runner registers (R208) -/

/-- No change of registers waits for the runner, and it has no ring whose coverage could be withdrawn. -/
def Runner.Rests (r : Runner) : Prop := r.cfgNew = none ∧ r.spillNew = none ∧ (r.enabled = true → r.isSpill = true)

/-- Core `l` has what it had but for its runners, those at rest included; nothing else of a core has changed. -/
structure OnlyRunners (s t : State) (l : Nat) : Prop where
  own    : { getCore t l with runners := (getCore s l).runners } = getCore s l
  others : ∀ k, k ≠ l → getCore t k = getCore s k
  rests  : ∀ n, (getRunner s l n).Rests → getRunner t l n = getRunner s l n

theorem OnlyRunners.refl (s : State) (l : Nat) : OnlyRunners s s l := ⟨rfl, fun _ _ => rfl, fun _ _ => rfl⟩

theorem OnlyRunners.trans {s t u : State} {l : Nat} (h : OnlyRunners s t l) (k : OnlyRunners t u l) : OnlyRunners s u l :=
  ⟨(congrArg (fun y : Core => { y with runners := (getCore s l).runners }) k.own :).trans h.own,
   fun i hi => (k.others i hi).trans (h.others i hi),
   fun n hn => (k.rests n (by rwa [h.rests n hn])).trans (h.rests n hn)⟩

theorem Recorded.onlyRunners {s t : State} (h : Recorded s t) (l : Nat) : OnlyRunners s t l := by
  have hcore := h.sparesPorts.getCore
  refine ⟨?_, fun k _ => hcore k, fun n _ => ?_⟩
  · rw [hcore]
  · rw [getRunner, hcore, getRunner]

theorem onlyRunners_setRunner {s : State} {l n : Nat} (r : Runner) (h : ¬(getRunner s l n).Rests) : OnlyRunners s (setRunner s l n r) l := by
  have hcore := getCore_modCore s l fun x => { x with runners := tput x.runners n r }
  refine ⟨?_, fun k hk => getCore_modCore_ne s hk _, fun m hm => ?_⟩
  · rw [setRunner, hcore]
  · have hne : m ≠ n := fun he => h (he ▸ hm)
    rw [getRunner, setRunner, hcore]
    exact tget_tput_ne _ _ hne _

theorem recorded_refuseCfg (s : State) (l n reason c : Nat) : Recorded s (refuseCfg s l n reason c) := by
  unfold refuseCfg
  split
  · split
    · exact (recorded_bump s 1 _ 1).trans (recorded_raiseEv _ _ _ _ _ _ _)
    · exact .refl s
  · exact recorded_raiseEv s _ _ _ _ _ _

theorem onlyRunners_applyRunner (s : State) (l n : Nat) : OnlyRunners s (applyRunner s l n) l := by
  unfold applyRunner
  extract_lets r changed t reason p u
  split
  case isTrue hacts =>
    have hu : OnlyRunners s u l := by
      refine onlyRunners_setRunner _ fun hrests => ?_
      obtain ⟨hcfg, hspill, hring⟩ := hrests
      have hstill : changed = false := by simp only [changed, r, hcfg, hspill, Option.isSome_none, Bool.or_self]
      simp only [hstill, Bool.false_or, Bool.and_eq_true, Bool.not_eq_true'] at hacts
      obtain ⟨⟨hen, hspilled⟩, -⟩ := hacts
      exact absurd (hring hen) (by rw [hspilled]; exact Bool.false_ne_true)
    split
    · exact hu
    · exact hu.trans ((recorded_refuseCfg u l n _ _).onlyRunners l)
  case isFalse => exact .refl s l

theorem onlyRunners_applyRunners (s : State) (l : Nat) : OnlyRunners s (applyRunners s l) l := by
  unfold applyRunners
  induction List.range 32 generalizing s with
  | nil => exact .refl s l
  | cons n ns ih => exact (onlyRunners_applyRunner s l n).trans (ih _)

/-! ## The item leaves its queue (R104, R197) -/

theorem fillQueue_items (x : Core) : (fillQueue x).queue ++ (fillQueue x).hubItems = x.queue ++ x.hubItems := by
  simp only [fillQueue, List.append_assoc, List.take_append_drop]

/-- The item has left the queue of core `l`, which runs it with the region registers as they stand. -/
structure Taken (s t : State) (l : Nat) (i : Item) : Prop where
  items   : (getCore t l).queue ++ (getCore t l).hubItems = (getCore s l).queue.tail ++ (getCore s l).hubItems
  regionL : (getCore t l).regionL = (getCore s l).region
  scratch : (getCore t l).scratch = (getCore s l).scratch
  risers  : (getCore t l).risers = (getCore s l).risers
  mem     : t.mem = s.mem
  others  : ∀ k, k ≠ l → getCore t k = getCore s k
  rests   : ∀ n, (getRunner s l n).Rests → getRunner t l n = getRunner s l n

/-- What a core holds beside its queue, its registers and its latched regions. -/
structure SameStores (x y : Core) : Prop where
  instr  : y.instr = x.instr
  libs   : y.libs = x.libs
  tables : y.tables = x.tables

theorem SameStores.getInstr {x y : Core} (h : SameStores x y) (k : Nat) : getInstr y k = getInstr x k := by
  simp only [Machine.getInstr, instrDefault, h.instr, h.libs]

/-- Core `x` as it takes the first item of its queue: it runs it, and its region registers are latched (R104, R197). -/
def Core.taking (x : Core) (r : Run) (library : Nat) : Core :=
  { x with queue := x.queue.tail, run := some r, regionL := x.region, ucode := library }

theorem takeItem_spec (s : State) (l : Nat) (i : Item) : Taken s (takeItem s l i) l i ∧ SameStores (getCore s l) (getCore (takeItem s l i) l)
    ∧ (getCore (takeItem s l i) l).run = some { item := i, cores := (boundCores s).length } := by
  obtain ⟨y, hy⟩ : ∃ y, y = (getCore s l).taking { item := i, cores := (boundCores s).length } (s.sec.version.getD 5 0) := ⟨_, rfl⟩
  obtain ⟨u, hu, hothers, happly⟩ : ∃ u, getCore u l = fillQueue y ∧ (∀ k, k ≠ l → getCore u k = getCore s k) ∧ takeItem s l i = applyRunners u l := by
    refine ⟨setCore s l (fillQueue y), getCore_setCore s l _, fun k hk => getCore_setCore_ne s hk _, ?_⟩
    rw [hy]
    rfl
  obtain ⟨hown, hrest, hrunners⟩ := onlyRunners_applyRunners u l
  have hspine := spine_takeItem s l i
  rw [← happly] at hown hrest hrunners
  generalize takeItem s l i = t at *
  have hmem : t.mem = s.mem := congrArg Spine.mem hspine
  rw [hu] at hown
  have hqueue : (getCore t l).queue = (fillQueue y).queue := (congrArg Core.queue hown :)
  have hhub : (getCore t l).hubItems = (fillQueue y).hubItems := (congrArg Core.hubItems hown :)
  have hsame : ∀ n, getRunner u l n = getRunner s l n := fun n => by
    rw [getRunner, hu, hy]
    rfl
  subst hy
  refine ⟨⟨?_, (congrArg Core.regionL hown :), (congrArg Core.scratch hown :), (congrArg Core.risers hown :), hmem,
    fun k hk => (hrest k hk).trans (hothers k hk), fun n hn => ?_⟩, ⟨(congrArg Core.instr hown :), (congrArg Core.libs hown :),
    (congrArg Core.tables hown :)⟩, (congrArg Core.run hown :)⟩
  · rw [hqueue, hhub, fillQueue_items]
    rfl
  · rw [hrunners n (by rwa [hsame]), hsame]

/-- Queue, latched regions, scratchpad, risers and runners are as they were. -/
structure SameSurroundings (x y : Core) : Prop where
  queue    : y.queue = x.queue
  hubItems : y.hubItems = x.hubItems
  regionL  : y.regionL = x.regionL
  scratch  : y.scratch = x.scratch
  risers   : y.risers = x.risers
  runners  : y.runners = x.runners

/-- What an item does to the registers and stores of its core leaves it taken. -/
theorem Taken.of_sameSurroundings {s t u : State} {l : Nat} {i : Item} (h : Taken s t l i) (hown : SameSurroundings (getCore t l) (getCore u l))
    (hothers : ∀ k, k ≠ l → getCore u k = getCore t k) (hmem : u.mem = t.mem) : Taken s u l i where
  items   := by rw [hown.queue, hown.hubItems, h.items]
  regionL := hown.regionL.trans h.regionL
  scratch := hown.scratch.trans h.scratch
  risers  := hown.risers.trans h.risers
  mem     := hmem.trans h.mem
  others  := fun k hk => (hothers k hk).trans (h.others k hk)
  rests   := fun n hn => by rw [← h.rests n hn, getRunner, hown.runners, getRunner]

theorem Taken.modCore {s t : State} {l : Nat} {i : Item} {f : Core → Core} (h : Taken s t l i)
    (hf : SameSurroundings (getCore t l) (f (getCore t l))) : Taken s (modCore t l f) l i :=
  h.of_sameSurroundings (by rw [getCore_modCore]; exact hf) (fun k hk => getCore_modCore_ne t hk f) rfl

/-- A load's item ends at once. -/
theorem Taken.endItem {s t : State} {l : Nat} {i : Item} (h : Taken s t l i) : Taken s (endItem t l) l i :=
  h.of_sameSurroundings (by rw [getCore_endItem]; exact ⟨rfl, rfl, rfl, rfl, rfl, rfl⟩) (fun k hk => getCore_endItem_ne t hk)
    (congrArg Spine.mem (spine_endItem t l))

/-! ## Loads (R84, R105) -/

theorem foldl_putInstr_frame (a : Nat) (w : Nat → Word64) (ks : List Nat) (x : Core) :
    { ks.foldl (fun x k => putInstr x (a + k) (w k)) x with instr := x.instr } = x := by
  induction ks generalizing x with
  | nil => rfl
  | cons k ks ih => exact (congrArg (fun y : Core => { y with instr := x.instr }) (ih (putInstr x (a + k) (w k))) :)

/-- The words of an image stand at their indices, and every other index holds what it held. -/
theorem getInstr_foldl_putInstr (a n : Nat) (w : Nat → Word64) (x : Core) (k : Nat) :
    getInstr ((List.range n).foldl (fun x k => putInstr x (a + k) (w k)) x) k = if a ≤ k ∧ k < a + n then w (k - a) else getInstr x k := by
  induction n with
  | zero => exact (if_neg (by omega)).symm
  | succ n ih =>
    rw [List.range_succ, List.foldl_append, List.foldl_cons, List.foldl_nil]
    by_cases hk : k = a + n
    · rw [hk, instr_putInstr_same, if_pos (by omega), Nat.add_sub_cancel_left]
    · rw [instr_putInstr_ne _ hk, ih]
      exact if_congr (by omega) rfl rfl

theorem getInstr_loadInstr (x : Core) (i : Item) (k : Nat) : getInstr (loadInstr x i) k
    = if i.entry ≤ k ∧ k < i.entry + i.data.length / 8 then BitVec.ofNat 64 (w64 i.data (8 * (k - i.entry))) else getInstr x k :=
  getInstr_foldl_putInstr i.entry (i.data.length / 8) (fun k => BitVec.ofNat 64 (w64 i.data (8 * k))) x k

theorem sameSurroundings_loadInstr (x : Core) (i : Item) : SameSurroundings x (loadInstr x i) := by
  have hframe := foldl_putInstr_frame i.entry (fun k => BitVec.ofNat 64 (w64 i.data (8 * k))) (List.range (i.data.length / 8)) x
  exact ⟨(congrArg Core.queue hframe :), (congrArg Core.hubItems hframe :), (congrArg Core.regionL hframe :), (congrArg Core.scratch hframe :),
    (congrArg Core.risers hframe :), (congrArg Core.runners hframe :)⟩

/-- PROG_LOAD's item writes its image, and ends. -/
theorem progLoad_runs {s : State} {l : Nat} {i : Item} (hkind : i.kind = .progLoad) : let t := runItem (takeItem s l i) l i
    Taken s t l i ∧ (getCore t l).run = none ∧ ∀ k, getInstr (getCore t l) k
      = if i.entry ≤ k ∧ k < i.entry + i.data.length / 8 then BitVec.ofNat 64 (w64 i.data (8 * (k - i.entry))) else getInstr (getCore s l) k := by
  obtain ⟨htaken, hstores, -⟩ := takeItem_spec s l i
  simp only [runItem, hkind]
  generalize takeItem s l i = u at *
  refine ⟨(htaken.modCore (sameSurroundings_loadInstr _ i)).endItem, ?_, fun k => ?_⟩
  · rw [getCore_endItem]
  · rw [getCore_endItem, getCore_modCore]
    exact (getInstr_loadInstr _ i k).trans (by rw [hstores.getInstr])

/-- TABLE_LOAD's item writes its table, and ends. -/
theorem tableLoad_runs {s : State} {l : Nat} {i : Item} (hkind : i.kind = .tableLoad) : let t := runItem (takeItem s l i) l i
    Taken s t l i ∧ (getCore t l).run = none ∧ readB (getCore t l).tables (16384 * i.entry) i.data.length = i.data := by
  obtain ⟨htaken, -, -⟩ := takeItem_spec s l i
  simp only [runItem, hkind]
  generalize takeItem s l i = u at *
  refine ⟨(htaken.modCore ⟨rfl, rfl, rfl, rfl, rfl, rfl⟩).endItem, ?_, ?_⟩
  · rw [getCore_endItem]
  · rw [getCore_endItem, getCore_modCore]
    exact readB_writeB _ _ _

/-! ## Launches (R85) -/

/-- The registers of a launch hold its arguments in order, from g1 on. -/
theorem gReg_foldl_putG (args : List Word64) (n : Nat) (x : Core) (k : Nat) :
    gReg ((args.zipIdx n).foldl (fun y a => putG y (a.2 + 1) a.1) x) k
      = if n < k ∧ k ≤ n + args.length then args.getD (k - 1 - n) 0 else gReg x k := by
  induction args generalizing n x with
  | nil => exact (if_neg (by simp only [List.length_nil]; omega)).symm
  | cons v args ih =>
    rw [List.zipIdx_cons, List.foldl_cons, ih, List.length_cons]
    by_cases hk : k = n + 1
    · rw [hk, if_neg (by omega), if_pos (by omega), gReg_putG, if_neg (by omega), Nat.add_sub_cancel, Nat.sub_self]
      rfl
    · rw [gReg_putG_ne x v hk]
      by_cases hin : n < k ∧ k ≤ n + (args.length + 1)
      · obtain ⟨m, rfl⟩ : ∃ m, k = n + 2 + m := ⟨k - (n + 2), by omega⟩
        rw [if_pos hin, if_pos (by omega), show n + 2 + m - 1 - n = m + 1 by omega, show n + 2 + m - 1 - (n + 1) = m by omega]
        rfl
      · rw [if_neg hin, if_neg (by omega)]

theorem foldl_putG_frame (as : List (Word64 × Nat)) (x : Core) :
    { as.foldl (fun y a => putG y (a.2 + 1) a.1) x with g := x.g } = x := by
  induction as generalizing x with
  | nil => rfl
  | cons a as ih => exact (congrArg (fun y : Core => { y with g := x.g }) (ih (putG x (a.2 + 1) a.1)) :)

/-- Core `x` at the start of a launch, before its arguments reach the registers. -/
def Core.launching (x : Core) (entry : Nat) : Core := { x with g := [], p := 0, pc := entry, bpSkip := false, haltedAt := false }

/-- The arguments change the general registers alone. -/
theorem startLaunch_frame (x : Core) (i : Item) : { startLaunch x i with g := [] } = x.launching i.entry :=
  foldl_putG_frame i.args.zipIdx (x.launching i.entry)

theorem gReg_startLaunch (x : Core) (i : Item) (k : Nat) : gReg (startLaunch x i) k = if k = 0 then 0 else i.args.getD (k - 1) 0 := by
  have hzero : gReg (x.launching i.entry) k = 0 := gReg_reset k
  have hargs : gReg (startLaunch x i) k = _ := gReg_foldl_putG i.args 0 (x.launching i.entry) k
  rw [hargs, hzero, Nat.zero_add, Nat.sub_zero]
  by_cases hk : k = 0
  · rw [if_pos hk, if_neg (by omega)]
  · rw [if_neg hk]
    by_cases hlen : k ≤ i.args.length
    · rw [if_pos (by omega)]
    · rw [if_neg (by omega), List.getD_eq_default _ _ (by omega)]

/-- A launch has started: its arguments in the registers, the program counter at its entry. -/
structure Launched (s t : State) (l : Nat) (i : Item) : Prop extends Taken s t l i where
  run    : (getCore t l).run = some { item := i, cores := (boundCores s).length }
  pc     : (getCore t l).pc = i.entry
  p      : (getCore t l).p = 0
  g      : ∀ k, gReg (getCore t l) k = if k = 0 then 0 else i.args.getD (k - 1) 0
  stores : SameStores (getCore s l) (getCore t l)

theorem launch_runs {s : State} {l : Nat} {i : Item} (hkind : i.kind = .launch) : Launched s (runItem (takeItem s l i) l i) l i := by
  obtain ⟨htaken, hstores, hruns⟩ := takeItem_spec s l i
  simp only [runItem, hkind]
  generalize takeItem s l i = u at *
  have hcore := getCore_modCore u l fun x => startLaunch x i
  have hframe := startLaunch_frame (getCore u l) i
  have hsurroundings : SameSurroundings (getCore u l) (startLaunch (getCore u l) i) :=
    ⟨(congrArg Core.queue hframe :), (congrArg Core.hubItems hframe :), (congrArg Core.regionL hframe :), (congrArg Core.scratch hframe :),
      (congrArg Core.risers hframe :), (congrArg Core.runners hframe :)⟩
  refine ⟨htaken.modCore hsurroundings, ?_, ?_, ?_, fun k => ?_, ?_⟩ <;> rw [hcore]
  · exact (congrArg Core.run hframe :).trans hruns
  · exact (congrArg Core.pc hframe :)
  · exact (congrArg Core.p hframe :)
  · exact gReg_startLaunch _ i k
  · exact ⟨(congrArg Core.instr hframe :).trans hstores.instr, (congrArg Core.libs hframe :).trans hstores.libs,
      (congrArg Core.tables hframe :).trans hstores.tables⟩

theorem exec_itemStart {s : State} {l : Nat} {i : Item} (h : itemReady s l = some i) :
    exec (.workQueueItemStart l) s = .next (runItem (takeItem s l i) l i) := by
  change execWorkQueueItemStart l s = _
  rw [execWorkQueueItemStart, h]

theorem exec_itemStart_waits {s : State} {l : Nat} (h : itemReady s l = none) : exec (.workQueueItemStart l) s = .next s := by
  change execWorkQueueItemStart l s = _
  rw [execWorkQueueItemStart, h]

/-! ## Stops (R108, R109) -/

/-- A stop reaches every core that runs. -/
theorem stopReaches_of_runs {s : State} {l : Nat} (h : coreRuns s l = true) : stopReaches s l = true := by
  simp only [coreRuns, Bool.and_eq_true] at h
  obtain ⟨⟨⟨hfabric, hbound⟩, hfree⟩, hdie⟩ := h
  have hruns : fabricRuns { s with power := { s.power with railLow := false } } = true := by
    simp only [fabricRuns, Bool.and_eq_true] at hfabric ⊢
    tauto
  simp only [stopReaches, coreRuns, Bool.and_eq_true]
  exact ⟨⟨⟨hruns, hbound⟩, hfree⟩, hdie⟩

/-- A launch that a stop has reached: its waits have left their risers. -/
def waitsEnded (s : State) (l : Nat) : State :=
  modRun (leaveRisers s l) l fun r => { r with stopped := true, holding := false, waiting := false }

/-- Then its descriptors that have not started are discarded. -/
def stoppedLaunch (s : State) (l : Nat) : State :=
  modRun (discardUnstarted (waitsEnded s l) l) l fun r => { r with stopping := false }

theorem waitsEnded_spec {s : State} {l : Nat} {r : Run} (hrun : (getCore s l).run = some r) :
    SameProgram { getCore s l with run := some { r with stopped := true, holding := false, waiting := false } } (getCore (waitsEnded s l) l)
      ∧ (getCore (waitsEnded s l) l).engines = (getCore s l).engines := by
  have hcore := getCore_modCore (leaveRisers s l) l fun x =>
    { x with run := x.run.map fun r => { r with stopped := true, holding := false, waiting := false } }
  have hleave := getCore_modCore s l fun x => { x with risers := x.risers.map fun r =>
    (r.1, { r.2 with queue := r.2.queue.filter (· ≠ 4), watch := none }) }
  rw [leaveRisers] at hcore
  rw [hleave] at hcore
  rw [waitsEnded, modRun, leaveRisers, hcore, hrun]
  exact ⟨⟨rfl, rfl, rfl, rfl, rfl⟩, rfl⟩

/-- Which descriptors a stop leaves rests on the engines alone. -/
theorem enginesIdle_discarded {x y : Core} (h : y.engines = x.engines) : enginesIdle y.discarded = enginesIdle x.discarded := by
  change List.all (y.engines.map _) _ = List.all (x.engines.map _) _
  rw [h]

theorem stoppedLaunch_spec {s : State} {l : Nat} {r : Run} (hrun : (getCore s l).run = some r) :
    SameProgram { getCore s l with run := some { r with stopped := true, holding := false, waiting := false, stopping := false } }
        (getCore (stoppedLaunch s l) l)
      ∧ enginesIdle (getCore (stoppedLaunch s l) l) = enginesIdle (getCore (discardUnstarted s l) l) ∧ (stoppedLaunch s l).mem = s.mem := by
  obtain ⟨hwaits, hengines⟩ := waitsEnded_spec hrun
  have hdiscard := hwaits.trans (sameProgram_discardUnstarted (waitsEnded s l) l)
  have hidle : enginesIdle (getCore (discardUnstarted (waitsEnded s l) l) l) = enginesIdle (getCore (discardUnstarted s l) l) := by
    rw [enginesIdle_discardUnstarted, enginesIdle_discardUnstarted, enginesIdle_discarded hengines]
  have hmem : (stoppedLaunch s l).mem = s.mem := congrArg Spine.mem (by rw [stoppedLaunch, spine_modRun, spine_discardUnstarted, waitsEnded,
    spine_modRun, spine_leaveRisers] : spine (stoppedLaunch s l) = spine s)
  have hcore := getCore_modCore (discardUnstarted (waitsEnded s l) l) l fun x => { x with run := x.run.map fun r => { r with stopping := false } }
  refine ⟨?_, ?_, hmem⟩ <;> rw [stoppedLaunch, modRun, hcore]
  · exact ⟨hdiscard.g, hdiscard.p, hdiscard.pc, hdiscard.scratch, congrArg (Option.map _) hdiscard.run⟩
  · exact hidle

theorem exec_launchStop_item {s : State} {l : Nat} {r : Run} (hrun : (getCore s l).run = some r) (hstop : r.stopping = true)
    (hruns : coreRuns s l = true) (hkind : r.item.kind ≠ .launch) : exec (.launchStop l) s = .next (endItem s l) := by
  change execLaunchStop l s = _
  simp only [execLaunchStop, hrun, hstop, stopReaches_of_runs hruns, Bool.and_self, if_true, if_neg hkind]

theorem exec_launchStop_launch {s : State} {l : Nat} {r : Run} (hrun : (getCore s l).run = some r) (hstop : r.stopping = true)
    (hruns : coreRuns s l = true) (hkind : r.item.kind = .launch) (hgoes : r.stopped = false) :
    exec (.launchStop l) s = .next (settleCore (stoppedLaunch s l) l) := by
  change execLaunchStop l s = _
  simp only [execLaunchStop, hrun, hstop, stopReaches_of_runs hruns, Bool.and_self, if_true, hkind, hgoes, Bool.false_eq_true, if_false, stoppedLaunch, waitsEnded]

/-- A stopped launch ends on its core when the engines are idle, else it goes on with its stop made. -/
theorem launchStop_settles {s : State} {l : Nat} {r : Run} (hrun : (getCore s l).run = some r) (hkind : r.item.kind = .launch) :
    let t := settleCore (stoppedLaunch s l) l
    (getCore t l).run = (if enginesIdle (getCore (discardUnstarted s l) l) = true then none
        else some { r with stopped := true, holding := false, waiting := false, stopping := false })
      ∧ (getCore t l).g = (getCore s l).g ∧ (getCore t l).pc = (getCore s l).pc ∧ (getCore t l).scratch = (getCore s l).scratch ∧ t.mem = s.mem := by
  obtain ⟨⟨hg, -, hpc, hscratch, hruns⟩, hidle, hmem⟩ := stoppedLaunch_spec hrun
  have hsettled : (settleCore (stoppedLaunch s l) l).mem = s.mem := (congrArg Spine.mem (spine_settleCore _ l)).trans hmem
  rw [← hidle]
  generalize stoppedLaunch s l = u at *
  split
  case isTrue hends =>
    refine ⟨?_, ?_, ?_, ?_, hsettled⟩ <;> rw [settleCore_ends hruns hkind (.inr rfl) hends]
    · exact hg
    · exact hpc
    · exact hscratch
  case isFalse hgoes =>
    rw [settleCore_stays hruns fun h => hgoes h.2]
    exact ⟨hruns, hg, hpc, hscratch, hmem⟩

end Sys2Proof.Machine

open Sys2Proof Sys2Proof.Machine

/-- Settles O32: the item's start by its kind, and the stop of a launch by whether its engines are idle. -/
theorem coresRunTheirItemsInOrder : Obligations.CoresRunTheirItemsInOrder := by
  refine fun s l => ⟨fun i hready hkinds => ⟨_, exec_itemStart hready, ?_⟩, exec_itemStart_waits, fun r hrun hstop hruns =>
    ⟨fun hkind => exec_launchStop_item hrun hstop hruns hkind, fun hkind hgoes =>
      ⟨_, exec_launchStop_launch hrun hstop hruns hkind hgoes, launchStop_settles hrun hkind⟩⟩⟩
  have htaken : Taken s (runItem (takeItem s l i) l i) l i := by
    rcases hkinds with hkind | hkind | hkind
    · exact (progLoad_runs hkind).1
    · exact (tableLoad_runs hkind).1
    · exact (launch_runs hkind).toTaken
  refine ⟨htaken.items, htaken.regionL, htaken.scratch, htaken.mem, htaken.others, fun hkind => ?_, fun hkind => (tableLoad_runs hkind).2, fun hkind => ?_⟩
  · obtain ⟨-, hends, hinstr⟩ := progLoad_runs (s := s) (l := l) hkind
    refine ⟨hends, fun k hk => ?_, fun k hk => ?_⟩
    · rw [hinstr, if_pos (by omega), Nat.add_sub_cancel_left]
    · rw [hinstr, if_neg (by omega)]
  · have h := launch_runs (s := s) (l := l) hkind
    exact ⟨h.run, h.pc, h.p, h.g⟩

/-- Settles O59: a started launch, its arguments being eight. -/
theorem launchesStartWithTheirArguments : Obligations.LaunchesStartWithTheirArguments := by
  intro s l i hready hkind hargs
  have h := launch_runs (s := s) (l := l) hkind
  refine ⟨_, exec_itemStart hready, fun k => ?_, fun k => ?_, h.pc, h.scratch, h.risers, h.stores.instr, h.stores.tables, fun n _ hcfg hspill hring =>
    h.rests n ⟨hcfg, hspill, hring⟩⟩
  · rw [h.g]
    by_cases hk : k = 0
    · rw [if_pos hk, if_neg (by omega)]
    · rw [if_neg hk]
      by_cases hlen : k ≤ 8
      · rw [if_pos (by omega)]
      · rw [if_neg (by omega), List.getD_eq_default _ _ (by omega)]
  · rw [pReg, h.p]
    simp [bitOf]

end

section
/-! The status tables (R110 and the tables that follow it). -/

open Sys2Proof Sys2Proof.Machine Sys2Proof.Claims

namespace Sys2Proof.Claims

/-- Each value of a status table with its place in the table. -/
theorem statusRows_inOrder : ∀ row ∈ statusRows, ∀ entry ∈ row.2.zipIdx,
    entry.1.1 = row.1 + entry.2 ∧ severity entry.1.1 = if entry.1.2 = true then 2 else 1 := by
  decide

end Sys2Proof.Claims

/-- Settles O60: a table's `k`th value is the entry of its numbered list that `statusRows_inOrder` speaks of. -/
theorem statusesHaveTheirValuesAndKinds : Obligations.StatusesHaveTheirValuesAndKinds := by
  intro row hrow k v bad hk
  exact statusRows_inOrder row hrow ((v, bad), k) (List.mem_zipIdx_iff_getElem?.mpr hk)

end

section
/-! The start of an array descriptor, and the merge of a check group that passes (R112, R115, R119, R120, R125 to R127, R150, R154). -/

namespace Sys2Proof.Machine

/-! ## What the work around a merge leaves -/

/-- A descriptor without the marks that the records of its groups and tiles leave on it. -/
def Job.bare (j : Job) : Job := { j with ovf := (0, 0, 0), resDone := false, xDone := false, wSeen := 0 }

/-- A core but for its engines and the cells of its arrays. -/
def Core.stores (x : Core) : Core := { x with engines := [], cells := [] }

/-- Device memory and the stores of core `l` are as they were. -/
structure StoresKept (l : Nat) (s t : State) : Prop where
  mem  : t.mem = s.mem
  core : (getCore t l).stores = (getCore s l).stores

theorem StoresKept.trans {l : Nat} {s t u : State} (h : StoresKept l s t) (k : StoresKept l t u) : StoresKept l s u :=
  ⟨k.mem.trans h.mem, k.core.trans h.core⟩

theorem StoresKept.scratch {l : Nat} {s t : State} (h : StoresKept l s t) : (getCore t l).scratch = (getCore s l).scratch :=
  (congrArg Core.scratch h.core :)

theorem StoresKept.spBad {l : Nat} {s t : State} (h : StoresKept l s t) : (getCore t l).spBad = (getCore s l).spBad :=
  (congrArg Core.spBad h.core :)

theorem StoresKept.accBad {l : Nat} {s t : State} (h : StoresKept l s t) : (getCore t l).accBad = (getCore s l).accBad :=
  (congrArg Core.accBad h.core :)

theorem StoresKept.breached {l : Nat} {s t : State} (h : StoresKept l s t) : (getCore t l).breached = (getCore s l).breached :=
  (congrArg Core.breached h.core :)

theorem StoresKept.acc {l : Nat} {s t : State} (h : StoresKept l s t) : (getCore t l).acc = (getCore s l).acc :=
  (congrArg Core.acc h.core :)

theorem storesKept_modJob (s : State) (l a : Nat) (f : Job → Job) : StoresKept l s (modJob s l a f) :=
  ⟨rfl, by rw [modJob, getCore_modCore]; rfl⟩

theorem storesKept_modCells (s : State) (l a : Nat) (f : Cells → Cells) : StoresKept l s (modCells s l a f) :=
  ⟨rfl, by rw [modCells, getCore_modCore]; rfl⟩

/-- The stores are kept, and array `a` runs the descriptor that it ran, whatever marks it bears. -/
structure GroupWork (l a : Nat) (s t : State) : Prop extends StoresKept l s t where
  job : (getEngine (getCore t l) a).job.map Job.bare = (getEngine (getCore s l) a).job.map Job.bare

theorem GroupWork.refl (l a : Nat) (s : State) : GroupWork l a s s := ⟨⟨rfl, rfl⟩, rfl⟩

theorem GroupWork.trans {l a : Nat} {s t u : State} (h : GroupWork l a s t) (k : GroupWork l a t u) : GroupWork l a s u :=
  ⟨h.toStoresKept.trans k.toStoresKept, k.job.trans h.job⟩

theorem getCore_of_recorded {s t : State} (h : Recorded s t) (l : Nat) : getCore t l = getCore s l :=
  (congrArg (fun y : State => getCore y l) h.frame :)

theorem Recorded.groupWork {s t : State} (h : Recorded s t) (l a : Nat) : GroupWork l a s t := by
  have hcore := getCore_of_recorded h l
  exact ⟨⟨(congrArg State.mem h.frame :), by rw [hcore]⟩, by rw [hcore]⟩

theorem job_modJob (s : State) (l a : Nat) (f : Job → Job) :
    (getEngine (getCore (modJob s l a f) l) a).job = (getEngine (getCore s l) a).job.map f := by
  rw [modJob, getCore_modCore, engine_setJob, if_pos rfl]

theorem groupWork_modJob (s : State) (l a : Nat) {f : Job → Job} (h : ∀ j, (f j).bare = j.bare) : GroupWork l a s (modJob s l a f) := by
  refine ⟨storesKept_modJob s l a f, ?_⟩
  rw [job_modJob, Option.map_map, show Job.bare ∘ f = Job.bare from funext h]

theorem groupWork_modCells (s : State) (l a : Nat) (f : Cells → Cells) : GroupWork l a s (modCells s l a f) :=
  ⟨storesKept_modCells s l a f, by rw [modCells, getCore_modCore]; rfl⟩

/-! ## Records and counts of a group (R37, R135, R159 to R162) -/

theorem recorded_phaseBusy (s : State) (n : Nat) : Recorded s (phaseBusy s n) := by
  unfold phaseBusy
  split
  · split
    · exact (recorded_modPhase s _).trans (recorded_phaseAdd _ _ _)
    · exact .refl s
  · exact .refl s

theorem recorded_countSteps (s : State) (l a n : Nat) : Recorded s (countSteps s l a n) :=
  (recorded_bump s _ _ _).trans (recorded_phaseBusy _ _)

theorem recorded_wScaleDross (s : State) (l a : Nat) (j : Job) (kt : Nat) : Recorded s (wScaleDross s l a j kt) :=
  foldl_keeps (P := Recorded s) (fun _ _ h => h.trans (recorded_raiseEv _ _ _ _ _ _ _)) _ (.refl s)

theorem groupWork_countGroup (s : State) (l a : Nat) : GroupWork l a s (countGroup s l a) := ⟨⟨rfl, rfl⟩, rfl⟩

theorem groupWork_xScaleDross (s : State) (l a : Nat) (j : Job) (g : Nat) : GroupWork l a s (xScaleDross s l a j g) :=
  foldl_keeps (P := GroupWork l a s) (fun _ _ h => h.trans ((recorded_raiseEv _ _ _ _ _ _ _).groupWork l a)) _
    (groupWork_modJob s l a fun _ => rfl)

/-- A record of staged values marks the descriptor alone; the staging buffers stay. -/
theorem stagedDross_spec (s : State) (l a : Nat) (j : Job) (y : List (List Word32)) :
    GroupWork l a s (stagedDross s l a j y) ∧ (getCore (stagedDross s l a j y) l).cells = (getCore s l).cells := by
  unfold stagedDross
  dsimp only
  split
  · exact ⟨.refl l a s, rfl⟩
  · split
    · exact ⟨.refl l a s, rfl⟩
    · refine ⟨(groupWork_modJob s l a (f := fun j => { j with resDone := true }) fun _ => rfl).trans ((recorded_raiseEv _ _ _ _ _ _ _).groupWork l a), ?_⟩
      rw [raiseDross, getCore_of_recorded (recorded_raiseEv _ _ _ _ _ _ _), modJob, getCore_modCore]
      rfl

theorem storesKept_overflowDross (s : State) (l a : Nat) (j : Job) : StoresKept l s (overflowDross s l a j) := by
  unfold overflowDross
  split
  · exact ⟨rfl, rfl⟩
  · exact (storesKept_modJob s l a _).trans ((recorded_raiseEv _ _ _ _ _ _ _).groupWork l a).toStoresKept

theorem storesKept_afterGroup (s : State) (l a : Nat) : StoresKept l s (afterGroup s l a) := by
  unfold afterGroup
  split
  · exact ⟨rfl, rfl⟩
  · dsimp only
    split
    · exact storesKept_modJob s l a _
    · split <;> exact (storesKept_overflowDross s l a _).trans (storesKept_modJob _ l a _)

/-! ## Tiles and rows are read from the scratchpad (R113, R115, R117) -/

theorem readTile_congr {s t : State} {l : Nat} (h : (getCore t l).scratch = (getCore s l).scratch) (d : List Byte) (kt : Nat) :
    readTile t l d kt = readTile s l d kt := by
  have hcode : wCode t l d kt = wCode s l d kt := by
    funext k n
    simp only [wCode, spB, h]
  have hscale : wScale t l d kt = wScale s l d kt := by
    funext n b
    simp only [wScale, spB, h]
  rw [readTile, readTile, hcode, hscale]

theorem xRows_congr {s t : State} {l : Nat} (h : (getCore t l).scratch = (getCore s l).scratch) (d : List Byte) (kt m g : Nat) :
    xRows t l d kt m g = xRows s l d kt m g := by
  simp only [xRows, xVal, lineElem, xScale, spB, h]

/-- The running descriptor's tile `kt` has its scales recorded, once, and is put. -/
def tilePut (s : State) (l a : Nat) (j : Job) (kt : Nat) (put : Cells → Tile → Cells) : State :=
  modCells (modJob (wScaleDross s l a j kt) l a (fun i => { i with wSeen := max i.wSeen (kt + 1) })) l a
    (fun c => put c (readTile s l j.desc kt))

/-- A load that meets no lasting word puts its tile. -/
theorem loadTile_clean {l : Nat} {x : Acc} (a : Nat) (j : Job) (kt : Nat) (put : Cells → Tile → Cells)
    (hgood : (getCore x.s l).spBad = []) (hbad : x.bad = []) :
    loadTile {} l a j false kt put x = { x with s := tilePut x.s l a j kt put } := by
  rw [loadTile, readWords_clean l (a + 2) x _ hgood]
  simp only [hbad, ne_eq, not_true_eq_false, if_false]
  rfl

theorem groupWork_tilePut (s : State) (l a : Nat) (j : Job) (kt : Nat) (put : Cells → Tile → Cells) :
    GroupWork l a s (tilePut s l a j kt put) :=
  (((recorded_wScaleDross s l a j kt).groupWork l a).trans
    (groupWork_modJob _ l a (f := fun i => { i with wSeen := max i.wSeen (kt + 1) }) fun _ => rfl)).trans (groupWork_modCells _ l a _)

theorem job_tilePut (s : State) (l a : Nat) (j : Job) (kt : Nat) (put : Cells → Tile → Cells) :
    (getEngine (getCore (tilePut s l a j kt put) l) a).job
      = (getEngine (getCore s l) a).job.map fun i => { i with wSeen := max i.wSeen (kt + 1) } := by
  rw [tilePut, modCells, getCore_modCore]
  refine (job_modJob _ l a _).trans ?_
  rw [getCore_of_recorded (recorded_wScaleDross s l a j kt)]

theorem cells_tilePut (s : State) (l a : Nat) (j : Job) (kt : Nat) (put : Cells → Tile → Cells) :
    getCells (getCore (tilePut s l a j kt put) l) a = put (getCells (getCore s l) a) (readTile s l j.desc kt) := by
  rw [tilePut, modCells, getCore_modCore, getCells, tget_tput_same, modJob, getCore_modCore,
    getCore_of_recorded (recorded_wScaleDross s l a j kt)]
  rfl

/-- The next tile goes into the shadow registers; the tile in place stays. -/
theorem loadNext_clean {l : Nat} {x : Acc} (a : Nat) (j : Job) (hgood : (getCore x.s l).spBad = []) (hbad : x.bad = []) :
    ∃ u, loadNext {} l a j x = { x with s := u } ∧ GroupWork l a x.s u
      ∧ (getCells (getCore u l) a).tile = (getCells (getCore x.s l) a).tile := by
  unfold loadNext
  dsimp only
  split
  · exact ⟨x.s, rfl, .refl l a x.s, rfl⟩
  · exact ⟨_, loadTile_clean a j (j.kt + 1) Cells.toShadow hgood hbad, groupWork_tilePut x.s l a j _ _,
      (congrArg Cells.tile (cells_tilePut x.s l a j (j.kt + 1) Cells.toShadow) :)⟩

/-! ## ARRAY_DESCRIPTOR_START (R125 to R127, R154) -/

/-- R125, R154: a descriptor that passes its checks latches the registers of the module. -/
theorem exec_arrayDescriptorStart_latches {s : State} {l a : Nat} {j : Job} (hruns : coreRuns s l = true)
    (hjob : (getEngine (getCore s l) a).job = some j) (hstage : j.stage = 0) (hlatched : j.latched = false)
    (hchecks : arrCheck s l a j.desc (jobTrapWord j) = (s, none)) :
    exec (.arrayDescriptorStart l a {}) s
      = .next (modJob s l a (fun j => { j with latched := true, seed := s.seed, step := s.astep, thr := s.thr })) := by
  have hlatch : latchJob s l a j false = modJob s l a (fun j => { j with latched := true, seed := s.seed, step := s.astep, thr := s.thr }) := by
    unfold latchJob
    rw [hchecks]
    exact if_neg Bool.false_ne_true
  change execArrayDescriptorStart l a {} s = _
  simp [execArrayDescriptorStart, hjob, hruns, hstage, hlatched, hlatch, job_modJob]

/-- R127: a granted descriptor that has latched its registers starts with its tile 0. -/
theorem exec_arrayDescriptorStart_starts {s : State} {l a : Nat} {j : Job} (hruns : coreRuns s l = true)
    (hjob : (getEngine (getCore s l) a).job = some j) (hstage : j.stage = 2) (hlatched : j.latched = true) :
    exec (.arrayDescriptorStart l a {}) s = .next (startTile {} s l a j) := by
  change execArrayDescriptorStart l a {} s = _
  simp [execArrayDescriptorStart, hjob, hruns, hstage, hlatched]

/-- R115: tile 0 of a descriptor that starts goes into the cells. -/
theorem startTile_clean {s : State} {l a : Nat} {j : Job} (hjob : (getEngine (getCore s l) a).job = some j) (hgood : (getCore s l).spBad = []) :
    StoresKept l s (startTile {} s l a j)
      ∧ (getEngine (getCore (startTile {} s l a j) l) a).job = some { j with stage := 3, wSeen := max j.wSeen 1 }
      ∧ (getCells (getCore (startTile {} s l a j) l) a).tile = some (readTile s l j.desc 0) := by
  have hstarted := storesKept_modJob s l a fun j => { j with stage := 3 }
  have hstart : startTile {} s l a j = tilePut (modJob s l a fun j => { j with stage := 3 }) l a j 0 Cells.toPlace := by
    rw [startTile, loadTile_clean a j 0 Cells.toPlace (hstarted.spBad.trans hgood) rfl]
    rfl
  rw [hstart]
  refine ⟨hstarted.trans (groupWork_tilePut _ l a j 0 _).toStoresKept, ?_, ?_⟩
  · rw [job_tilePut, job_modJob, hjob]
    rfl
  · rw [cells_tilePut, readTile_congr hstarted.scratch]
    rfl

/-! ## The accumulator store (R120) -/

/-- Keys of one array whose columns lie in their rows. -/
theorem accKey_inj {a r r' n n' : Nat} (hn : n < 128) (hn' : n' < 128) (h : accKey a r n = accKey a r' n') : r = r' ∧ n = n' := by
  simp only [accKey] at h
  omega

theorem tget_accFold_ne (a row : Nat) (vs : List Word32) (b : Nat) (t : Tab Word32) {k : Nat} (h : ∀ n < vs.length, k ≠ accKey a row (b + n)) :
    tget 0 ((vs.zipIdx b).foldl (fun t v => tset 0 t (accKey a row v.2) v.1) t) k = tget 0 t k := by
  induction vs generalizing b t with
  | nil => rfl
  | cons v r ih =>
    have hrest : ∀ n < r.length, k ≠ accKey a row (b + 1 + n) := fun n hn => by
      rw [Nat.add_assoc, Nat.add_comm 1]
      exact h (n + 1) (Nat.succ_lt_succ hn)
    rw [List.zipIdx_cons, List.foldl_cons, ih (b + 1) _ hrest]
    exact tget_tset_ne 0 t (h 0 (Nat.zero_lt_succ _)) v

theorem tget_accFold (a row : Nat) (vs : List Word32) (b : Nat) (t : Tab Word32) {n : Nat} (h : n < vs.length) :
    tget 0 ((vs.zipIdx b).foldl (fun t v => tset 0 t (accKey a row v.2) v.1) t) (accKey a row (b + n)) = vs.getD n 0 := by
  induction vs generalizing b t n with
  | nil => exact absurd h (Nat.not_lt_zero n)
  | cons v r ih =>
    rw [List.zipIdx_cons, List.foldl_cons]
    cases n with
    | zero =>
      rw [tget_accFold_ne a row r (b + 1) _ fun n _ => by simp only [accKey]; omega]
      exact tget_tset_same 0 t _ v
    | succ n =>
      rw [List.getD_cons_succ, Nat.add_comm n, ← Nat.add_assoc]
      exact ih (b + 1) _ (Nat.lt_of_succ_lt_succ h)

/-- A written row reads its values. -/
theorem accAt_accWrite (x : Core) (a row : Nat) (vs : List Word32) {n : Nat} (h : n < vs.length) :
    accAt (accWrite x a row vs) a row n = vs.getD n 0 := by
  have hread := tget_accFold a row vs 0 x.acc h
  rwa [Nat.zero_add] at hread

/-- Every other entry of the store stays. -/
theorem tget_accWrite_ne (x : Core) (a row : Nat) (vs : List Word32) {k : Nat} (h : ∀ n < vs.length, k ≠ accKey a row n) :
    tget 0 (accWrite x a row vs).acc k = tget 0 x.acc k :=
  tget_accFold_ne a row vs 0 x.acc fun n hn => by rw [Nat.zero_add]; exact h n hn

/-! ## The merge of rows (R120, R150) -/

/-- The value that a merge leaves in an element. -/
def mergedVal (j : Job) (m n : Nat) (old y : Word32) : Word32 := if overwrites j.desc j.kt then y else mergeVal j j.kt m n old y

/-- The values that a merge leaves in row `m` of a descriptor, of staged values `ys`. -/
def mergedRow (x : Core) (a : Nat) (j : Job) (m : Nat) (ys : List Word32) : List Word32 :=
  if overwrites j.desc j.kt then ys
  else (((List.range ys.length).map (accAt x a (aAccRow j.desc + m))).zip ys).zipIdx.map (fun e => mergeVal j j.kt m e.2 e.1.1 e.1.2)

theorem length_mergedRow (x : Core) (a : Nat) (j : Job) (m : Nat) (ys : List Word32) : (mergedRow x a j m ys).length = ys.length := by
  unfold mergedRow
  split
  · rfl
  · simp

theorem getD_mergedRow (x : Core) (a : Nat) (j : Job) (m : Nat) (ys : List Word32) {n : Nat} (h : n < ys.length) :
    (mergedRow x a j m ys).getD n 0 = mergedVal j m n (accAt x a (aAccRow j.desc + m) n) (ys.getD n 0) := by
  unfold mergedRow mergedVal
  split
  · rfl
  · simp [h]

/-- With every pair readable, a merge writes its row. -/
theorem mergeRow_readable {s : State} {l : Nat} (a : Nat) (j : Job) (m : Nat) (ys : List Word32) (h : (getCore s l).accBad = []) :
    ∃ o, mergeRow {} s l a j m ys = (modCore s l (fun x => accWrite x a (aAccRow j.desc + m) (mergedRow x a j m ys)), true, o) := by
  have hpairs : ∀ ps, readPairs {} s l a ps = (s, true) := fun ps => by simp [readPairs, h]
  simp only [mergeRow, hpairs, Bool.true_eq_false, if_false]
  exact ⟨_, rfl⟩

/-- Rows `m` on of descriptor `j` hold their merges with the staged rows of `c` columns; nothing else of the accumulator store,
scratchpad or memory differs. -/
structure RowsMerged (l a : Nat) (j : Job) (m c : Nat) (rows : List (List Word32)) (s t : State) : Prop where
  mem     : t.mem = s.mem
  core    : { (getCore t l).stores with acc := [] } = { (getCore s l).stores with acc := [] }
  inside  : ∀ i < rows.length, ∀ n < c, accAt (getCore t l) a (aAccRow j.desc + m + i) n
    = mergedVal j (m + i) n (accAt (getCore s l) a (aAccRow j.desc + m + i) n) ((rows.getD i []).getD n 0)
  outside : ∀ k, (∀ i < rows.length, ∀ n < c, k ≠ accKey a (aAccRow j.desc + m + i) n) → tget 0 (getCore t l).acc k = tget 0 (getCore s l).acc k

/-- What keeps the stores before and after a merge. -/
theorem RowsMerged.within {l a : Nat} {j : Job} {m c : Nat} {rows : List (List Word32)} {s t u v : State} (hbefore : StoresKept l s t)
    (h : RowsMerged l a j m c rows t u) (hafter : StoresKept l u v) : RowsMerged l a j m c rows s v where
  mem := hafter.mem.trans (h.mem.trans hbefore.mem)
  core := by
    have hacc {t u : State} (k : StoresKept l t u) := congrArg (fun y : Core => { y with acc := [] }) k.core
    exact ((hacc hafter).trans h.core).trans (hacc hbefore)
  inside i hi n hn := by
    have hread := h.inside i hi n hn
    rwa [accAt, accAt, ← hafter.acc, hbefore.acc] at hread
  outside k hk := by
    have hread := h.outside k hk
    rwa [← hafter.acc, hbefore.acc] at hread

theorem rowsMerged_nil (l a : Nat) (j : Job) (m c : Nat) (s : State) : RowsMerged l a j m c [] s s :=
  ⟨rfl, rfl, fun i hi => absurd hi (Nat.not_lt_zero i), fun _ _ => rfl⟩

/-- Row `m` and the rows behind it: no later row meets an earlier one. -/
theorem rowsMerged_cons {l a m c : Nat} {j : Job} {ys : List Word32} {rows : List (List Word32)} {s t : State} (hc : c ≤ 128)
    (hys : ys.length = c) (hgood : (getCore s l).accBad = [])
    (h : RowsMerged l a j (m + 1) c rows (modCore s l fun x => accWrite x a (aAccRow j.desc + m) (mergedRow x a j m ys)) t) :
    RowsMerged l a j m c (ys :: rows) s t := by
  obtain ⟨hmem, hcore, hinside, houtside⟩ := h
  rw [getCore_modCore] at hcore hinside houtside
  have hwidth : (mergedRow (getCore s l) a j m ys).length = c := (length_mergedRow _ a j m ys).trans hys
  refine ⟨hmem, hcore.trans ?_, fun i hi n hn => ?_, fun k hk => ?_⟩
  · simp [accWrite, Core.stores, hgood]
  · cases i with
    | zero =>
      rw [accAt, houtside _ fun i _ n' hn' hkey => ?later]
      case later =>
        have hrow := (accKey_inj (by omega) (by omega) hkey).1
        omega
      rw [← accAt, Nat.add_zero, accAt_accWrite _ a _ _ (hwidth ▸ hn), getD_mergedRow _ a j m ys (hys ▸ hn)]
      rfl
    | succ i =>
      have hold := tget_accWrite_ne (getCore s l) a (aAccRow j.desc + m) (mergedRow (getCore s l) a j m ys)
        (k := accKey a (aAccRow j.desc + m + (i + 1)) n) fun n' hn' hkey => by
          have hrow := (accKey_inj (by omega) (by omega) hkey).1
          omega
      have hread := hinside i (Nat.lt_of_succ_lt_succ hi) n hn
      have hrow : aAccRow j.desc + (m + 1) + i = aAccRow j.desc + m + (i + 1) := by omega
      have hindex : m + 1 + i = m + (i + 1) := by omega
      rw [hrow, hindex, accAt, accAt, hold] at hread
      exact hread
  · have hlater : ∀ i < rows.length, ∀ n < c, k ≠ accKey a (aAccRow j.desc + (m + 1) + i) n := fun i hi n hn => by
      have hrow : aAccRow j.desc + (m + 1) + i = aAccRow j.desc + m + (i + 1) := by omega
      rw [hrow]
      exact hk (i + 1) (Nat.succ_lt_succ hi) n hn
    rw [houtside k hlater]
    exact tget_accWrite_ne _ a _ _ fun n hn => hk 0 (Nat.zero_lt_succ _) n (hwidth ▸ hn)

/-- The merge of readable rows by a running descriptor goes through all of them. -/
theorem mergeRows_merges {l a c : Nat} {j : Job} (hc : c ≤ 128) (rows : List (List Word32)) {m : Nat} {s : State}
    (hwidth : ∀ ys ∈ rows, ys.length = c) (hgood : (getCore s l).accBad = [])
    (hjob : (getEngine (getCore s l) a).job.map Job.bare = some j.bare) :
    ∃ t, mergeRows {} l a m rows s = (t, true) ∧ RowsMerged l a j m c rows s t := by
  induction rows generalizing m s with
  | nil => exact ⟨s, rfl, rowsMerged_nil l a j m c s⟩
  | cons ys rows ih =>
    obtain ⟨i, hi, hbare⟩ := Option.map_eq_some_iff.1 hjob
    obtain ⟨o, ho⟩ := mergeRow_readable a i m ys hgood
    have hrow : aAccRow i.desc = aAccRow j.desc := (congrArg (fun k : Job => aAccRow k.desc) hbare :)
    have hvalues : ∀ x, mergedRow x a i m ys = mergedRow x a j m ys := fun x => (congrArg (fun k : Job => mergedRow x a k m ys) hbare :)
    simp only [hrow, hvalues] at ho
    obtain ⟨g, hg, hstep⟩ : ∃ g : Job → Job, (∀ k, (g k).bare = k.bare) ∧ mergeRows {} l a m (ys :: rows) s
        = mergeRows {} l a (m + 1) rows (modJob (modCore s l fun x => accWrite x a (aAccRow j.desc + m) (mergedRow x a j m ys)) l a g) := by
      simp only [mergeRows, hi, ho, if_true]
      refine ⟨_, fun k => ?_, rfl⟩
      cases o <;> rfl
    have hmark := groupWork_modJob (modCore s l fun x => accWrite x a (aAccRow j.desc + m) (mergedRow x a j m ys)) l a hg
    have hstill := hmark.accBad
    have hruns := hmark.job
    rw [getCore_modCore] at hstill hruns
    obtain ⟨t, ht, hmerged⟩ := ih (m := m + 1) (fun zs hzs => hwidth zs (List.mem_cons_of_mem _ hzs))
      (hstill.trans (by rw [accWrite, hgood]; rfl)) (hruns.trans hjob)
    exact ⟨t, hstep.trans ht, rowsMerged_cons hc (hwidth ys List.mem_cons_self) hgood (hmerged.within hmark.toStoresKept ⟨rfl, rfl⟩)⟩

/-- R120, R126: the merge of a descriptor with nothing written under it, and what follows it. -/
theorem mergeGroup_merges {s : State} {l a c : Nat} {j : Job} (hc : c ≤ 128) (hwidth : ∀ ys ∈ stagedRows (getCore s l) a, ys.length = c)
    (hgood : (getCore s l).accBad = []) (hsound : (getCore s l).breached = [])
    (hjob : (getEngine (getCore s l) a).job.map Job.bare = some j.bare) :
    RowsMerged l a j j.row c (stagedRows (getCore s l) a) s (mergeGroup {} s l a a j) := by
  obtain ⟨t, ht, hmerged⟩ := mergeRows_merges (m := j.row) hc _ hwidth hgood hjob
  have hstill : (getCore t l).breached = [] := (congrArg Core.breached hmerged.core :).trans hsound
  have hspoil : spoilRows t l a j = t := by rw [spoilRows, hstill]; rfl
  have hmerge : mergeGroup {} s l a a j = afterGroup t l a := by simp only [mergeGroup, ht, hspoil, if_true]
  rw [hmerge]
  exact hmerged.within ⟨rfl, rfl⟩ (storesKept_afterGroup t l a)

/-! ## CHECK_GROUP_VERDICT (R111, R112, R119) -/

/-- A group of `g` rows stages `g` rows of the descriptor's columns. -/
theorem staged_widths (d : List Byte) (xs : List (List Num)) (tile : Tile) :
    (computeGroup d xs tile {}).1.length = xs.length ∧ ∀ ys ∈ (computeGroup d xs tile {}).1, ys.length = aCols d := by
  simp [computeGroup, stagedOf, Tile.columns]

theorem aCols_le (d : List Byte) : aCols d ≤ 128 :=
  Nat.succ_le_of_lt (Nat.mod_lt _ (Nat.two_pow_pos _))

theorem stagedRows_stage (s : State) (l a : Nat) (y : List (List Word32)) : stagedRows (getCore (stage s l a y) l) a = y := by
  rw [stage, modCells, getCore_modCore, stagedRows, getCells, tget_tput_same]
  cases (getCells (getCore s l) a).second <;> rfl

/-- A computation keeps the stores, and leaves its results staged (R119). -/
theorem runGroup_spec (s : State) (l a : Nat) (j : Job) (steps : Nat) (v : List (List Word32) × Failing × Nat) :
    GroupWork l a s (runGroup s l a a j steps v) ∧ stagedRows (getCore (runGroup s l a a j steps v) l) a = v.1 := by
  obtain ⟨hdross, hcells⟩ := stagedDross_spec (bumpCore (stage (countSteps s l a steps) l a v.1) l (4 + a) v.2.2) l a j v.1
  refine ⟨((((recorded_countSteps s l a steps).groupWork l a).trans (groupWork_modCells _ l a _)).trans
    ((recorded_bump _ _ _ _).groupWork l a)).trans hdross, ?_⟩
  rw [runGroup, stagedRows, getCells, hcells]
  exact stagedRows_stage (countSteps s l a steps) l a v.1

theorem job_of_jobAt {s : State} {l e n : Nat} {j : Job} (h : jobAt s l e n = some j) : (getEngine (getCore s l) e).job = some j := by
  unfold jobAt at h
  split at h
  case h_1 i hi =>
    split at h
    · exact hi.trans h
    · exact absurd h nofun
  case h_2 => exact absurd h nofun

/-- A group that meets no fault is computed from its tile in place, staged and, when its checks pass, merged. -/
theorem exec_checkGroupVerdict_passes {s : State} {l a : Nat} {j : Job} {tile : Tile} {v : List (List Word32) × Failing × Nat}
    (hjob : jobAt s l a 3 = some j) (hgood : (getCore s l).spBad = []) (htile : (getCells (getCore s l) a).tile = some tile)
    (hkt : tile.kt = j.kt) (hv : computeGroup j.desc (xRows s l j.desc j.kt j.row (groupRows j)) tile {} = v) (hpass : groupPasses {} v = true) :
    ∃ t, exec (.checkGroupVerdict l a {} {} {} {}) s = .next (mergeGroup {} t l a a j) ∧ GroupWork l a s t ∧ stagedRows (getCore t l) a = v.1 := by
  have hplace : placeTile {} l a j { s := s, tw := jobTrapWord j } = { s := s, tw := jobTrapWord j } := by
    simp [placeTile, holdsTile, htile, hkt]
  obtain ⟨u, hnext, hu, htileU⟩ := loadNext_clean (x := { s := s, tw := jobTrapWord j }) a j hgood rfl
  have hread := readWords_clean l (a + 2) { s := u, tw := jobTrapWord j } ((groupRanges j).flatMap (fun r => wordsOf r.1 r.2)) (hu.spBad.trans hgood)
  have hbefore := hu.trans ((groupWork_countGroup u l a).trans (groupWork_xScaleDross _ l a j (groupRows j)))
  obtain ⟨hrun, hstaged⟩ := runGroup_spec (xScaleDross (countGroup u l a) l a j (groupRows j)) l a j (groupSteps j) v
  refine ⟨_, ?_, (hbefore.trans hrun).trans ((recorded_bump _ 1 (32 * l + (2 + a)) 1).groupWork l a), hstaged⟩
  change execCheckGroupVerdict l a {} {} {} {} s = _
  simp only [execCheckGroupVerdict, hjob, hplace, hnext, ne_eq, not_true_eq_false, if_false, hread, htileU, htile,
    xRows_congr hbefore.scratch, hv, hpass, if_true]
  rfl

end Sys2Proof.Machine

open Sys2Proof Sys2Proof.Machine

/-- Settles O10: the latch of a descriptor whose checks pass, and the start of one that is granted. -/
theorem arrayDescriptorStartLatchesTheArithmeticRegisters : Obligations.ArrayDescriptorStartLatchesTheArithmeticRegisters := by
  intro s l a j hruns hjob hgood
  refine ⟨exec_arrayDescriptorStart_latches hruns hjob, fun hstage hlatched => ?_⟩
  obtain ⟨hkept, hstarted, htile⟩ := startTile_clean hjob hgood
  exact ⟨_, exec_arrayDescriptorStart_starts hruns hjob hstage hlatched, hstarted, htile, hkept.acc, hkept.scratch, hkept.mem⟩

/-- Settles O11: the group's rows are staged as computed, and its merge leaves everything else. -/
theorem checkGroupVerdictMergesAPassingGroup : Obligations.CheckGroupVerdictMergesAPassingGroup := by
  intro s l a j tile hjob hgood hpairs htile hkt hsound v hpass
  obtain ⟨t, hexec, hwork, hstaged⟩ := exec_checkGroupVerdict_passes hjob hgood htile hkt rfl hpass
  obtain ⟨hrows, hwidth⟩ := staged_widths j.desc (xRows s l j.desc j.kt j.row (groupRows j)) tile
  have hjobT : (getEngine (getCore t l) a).job.map Job.bare = some j.bare := by
    rw [hwork.job, job_of_jobAt hjob]
    rfl
  have hmerged := mergeGroup_merges (aCols_le j.desc) (hstaged ▸ hwidth) (hwork.accBad.trans hpairs) (hwork.breached.trans hsound) hjobT
  rw [hstaged] at hmerged
  obtain ⟨hmem, hcore, hinside, houtside⟩ := hmerged.within hwork.toStoresKept ⟨rfl, rfl⟩
  have hcount : v.1.length = groupRows j := by rw [hrows, xRows, List.length_map, List.length_range]
  rw [hcount] at hinside houtside
  exact ⟨_, hexec, hinside, (congrArg Core.scratch hcore :), hmem, houtside⟩

end

section
/-! The rows of a vector descriptor (R142, R168, R174, R178 to R181), where no word and no accumulator pair is lasting. -/

namespace Sys2Proof.Machine

open Sys2Proof.Claims

/-! ## What the writing of a row leaves as it was -/

/-- The vector unit of core `l` has descriptor `j` in place, and nothing in the core's stores is lasting. -/
structure VectorClean (l : Nat) (j : Job) (s : State) : Prop where
  job    : (getEngine (getCore s l) 2).job = some j
  spBad  : (getCore s l).spBad = []
  accBad : (getCore s l).accBad = []

theorem vectorClean_of_runs {s : State} {l : Nat} {j : Job} (h : VectorRuns s l j) : VectorClean l j s := by
  obtain ⟨hjob, hsp, hacc⟩ := h
  exact ⟨job_of_jobAt hjob, hsp, hacc⟩

theorem VectorClean.of_recorded {l : Nat} {j : Job} {s t : State} (h : VectorClean l j s) (hrec : Recorded s t) : VectorClean l j t := by
  have hcore := getCore_of_recorded hrec l
  exact ⟨hcore ▸ h.job, hcore ▸ h.spBad, hcore ▸ h.accBad⟩

theorem vectorClean_putScratch {l : Nat} {j : Job} {s : State} (h : VectorClean l j s) (a : Nat) (d : List Byte) :
    VectorClean l j (modCore s l (fun x => putScratch x a d)) := by
  constructor <;> rw [getCore_modCore]
  · exact h.job
  · exact h.spBad
  · exact h.accBad

theorem vectorClean_accPut {l : Nat} {j : Job} {s : State} (h : VectorClean l j s) (a row : Nat) (vs : List Word32) :
    VectorClean l j (modCore s l (fun x => accPut x a row vs)) := by
  constructor <;> rw [getCore_modCore]
  · exact h.job
  · exact h.spBad
  · exact List.filter_eq_nil_iff.mpr fun p hp => absurd (h.accBad ▸ hp : p ∈ []) List.not_mem_nil

theorem vectorClean_writeSp {l : Nat} {j : Job} {x : Acc} (h : VectorClean l j x.s) (master a : Nat) (d : List Byte) :
    VectorClean l j (writeSp {} l master x a d).s := by
  refine foldl_keeps (P := fun y : Acc => VectorClean l j y.s) (fun y p hy => ?_) _ h
  rw [writeWord_clean l master y p.1 p.2 hy.spBad]
  exact vectorClean_putScratch hy p.1 p.2

theorem recorded_blockDross (s : State) (l : Nat) (j : Job) (r b scale cls : Nat) (vs : List (Nat × Num × Option Nat)) :
    Recorded s (blockDross s l j r b scale cls vs) := by
  unfold blockDross
  dsimp only
  split
  · exact .refl s
  · exact recorded_raiseEv _ _ _ _ _ _ _

theorem readPairs_clean {s : State} {l : Nat} (h : (getCore s l).accBad = []) (a : Nat) (ps : List Nat) :
    readPairs {} s l a ps = (s, true) := by simp [readPairs, h]

/-- The main output of a row is written, to accumulators or to the scratchpad. -/
theorem vectorClean_putMain {l : Nat} {j : Job} {s : State} (h : VectorClean l j s) (r : Nat) (vs : List Num) :
    VectorClean l j (putMain {} s l j r vs).1 ∧ (putMain {} s l j r vs).2 = true := by
  unfold putMain
  simp only [readPairs_clean h.accBad, if_true]
  split
  · exact ⟨vectorClean_accPut h _ _ _, rfl⟩
  · refine ⟨vectorClean_writeSp (x := { s := _ }) ?_ 1 _ _, rfl⟩
    dsimp only
    split
    · exact foldl_keeps (P := VectorClean l j)
        (fun _ _ hb => foldl_keeps (P := VectorClean l j) (fun _ _ hc => hc.of_recorded (recorded_blockDross ..)) _ hb) _ h
    · exact h

theorem vectorClean_rowWritten {l : Nat} {j : Job} {s : State} (h : VectorClean l j s) (fn : State → Nat → RowOut) (r : Nat) :
    VectorClean l j (RowWritten l j fn s r) := by
  unfold RowWritten
  rcases fn s r with ⟨_ | vs, _ | b⟩
  · exact h
  · exact vectorClean_writeSp (x := { s := s }) h 1 _ b
  · exact (vectorClean_putMain h r vs).1
  · exact vectorClean_writeSp (x := { s := _ }) (vectorClean_putMain h r vs).1 1 _ b

/-! ## The rows of a descriptor -/

theorem readRow_clean {l : Nat} {j : Job} {s : State} (h : VectorClean l j s) (r : Nat) :
    readRow {} s l j r = ({ s := s, tw := jobTrapWord j }, true) := by
  simp only [readRow, readWords_clean l 1 { s := s, tw := jobTrapWord j } _ h.spBad, readPairs_clean h.accBad, Bool.and_self]

/-- One row of a descriptor is read, computed and written, and the next ones follow. -/
theorem vecRows_succ {l : Nat} {j : Job} {s : State} (h : VectorClean l j s) (fn : State → Job → Nat → RowOut) (n r : Nat) :
    vecRows {} l fn (n + 1) r s = vecRows {} l fn n (r + 1) (RowWritten l j (fun s r => fn s j r) s r) := by
  rw [vecRows, h.job]
  simp only [RowWritten, readRow_clean h, ne_eq, not_true_eq_false, if_false]
  rcases fn s j r with ⟨_ | vs, out⟩
  · simp only [Bool.true_eq_false, if_false]
    rfl
  · simp only [(vectorClean_putMain h r vs).2, Bool.true_eq_false, if_false]
    rfl

theorem vecRows_eq {l : Nat} {j : Job} (fn : State → Job → Nat → RowOut) (n r : Nat) {s : State} (h : VectorClean l j s) :
    vecRows {} l fn n r s = finishJob ((List.range' r n).foldl (RowWritten l j (fun s r => fn s j r)) s) l 2 := by
  induction n generalizing r s with
  | zero => rfl
  | succ n ih => rw [vecRows_succ h, ih (r + 1) (vectorClean_rowWritten h _ r), List.range'_succ, List.foldl_cons]

/-- A row of the command table writes every row of a running descriptor of its function. -/
theorem vecRow_writes {s : State} {l func : Nat} {j : Job} (h : VectorRuns s l j) (hfunc : vFunc j.desc = func)
    (fn : State → Job → Nat → RowOut) :
    vecRow l func {} fn s
      = .next (finishJob ((List.range (vRows j.desc)).foldl (RowWritten l j (fun s r => fn s j r)) s) l 2) := by
  rw [vecRow, h.1, List.range_eq_range', ← vecRows_eq fn _ 0 (vectorClean_of_runs h)]
  exact congrArg _ (if_pos hfunc)

/-- The commands of a table complete when each is a vector row that computes what the table says of it. -/
theorem vectorCompletes_of_rows {table : State → Nat → Job → Nat → List (Instr × Nat × RowOut)}
    (h : ∀ (s : State) (l : Nat) (j : Job) (k : Nat), ∀ e ∈ (table s l j 0)[k]?, ∃ fn : State → Job → Nat → RowOut,
      exec e.1 s = vecRow l e.2.1 {} fn s ∧ ∀ s r, (((table s l j r)[k]?).map (fun q => q.2.2)).getD (none, none) = fn s j r) :
    VectorCompletes table := by
  intro s l j k hruns e he hfunc
  obtain ⟨fn, hexec, hrows⟩ := h s l j k e he
  rw [hexec, vecRow_writes hruns hfunc fn]
  simp only [hrows]

/-! ## The formulas of R178 in the order in which the unit computes them -/

/-- FMA over three rows, whose products are formed first. -/
theorem map_zip_zip_eq_zipWith {α β γ δ ε : Type} (m : α → β → δ) (g : δ → γ → ε) (a : List α) (b : List β) (c : List γ) :
    ((a.zip b).zip c).map (fun q => g (m q.1.1 q.1.2) q.2) = (a.zipWith m b).zipWith g c := by
  rw [← List.map_uncurry_zip_eq_zipWith (f := m), List.zipWith_map_left, ← List.map_uncurry_zip_eq_zipWith]
  rfl

/-- DROPOUT over a row and its mask. -/
theorem map_zipIdx_ite_eq_zipWith_mask {α β : Type} (keep : Nat → Prop) [DecidablePred keep] (f : α → β) (z : β) (a : List α) :
    a.zipIdx.map (fun q => if keep q.2 then f q.1 else z)
      = a.zipWith (fun v k => if k then f v else z) ((List.range a.length).map fun c => decide (keep c)) := by
  simp only [List.zipWith_map_right, decide_eq_true_eq]
  rw [List.range_eq_range', List.zipIdx_eq_zip_range', ← List.map_uncurry_zip_eq_zipWith]
  rfl

/-- What is neither of the two zeros is not zero. -/
theorem ne_zeros_eq_nonzero (v : Num) : (v ≠ .zero false && v ≠ .zero true) = nonzero v := by
  cases v with
  | zero neg => cases neg <;> rfl
  | nan => rfl
  | inf neg => rfl
  | fin neg n d => rfl

/-- ROW_STATS counts the values that are not zero. -/
theorem countP_nonzero (a : List Num) : a.countP nonzero = a.countP (fun v => v ≠ .zero false && v ≠ .zero true) :=
  congrArg (fun p => a.countP p) (funext fun v => (ne_zeros_eq_nonzero v).symm)

/-- Each function of R178 whose bits are stated computes its formula: FMA over its products, DROPOUT over its mask, ROW_STATS by what is not
zero, and the others as they are written. -/
theorem vectorCompletes_exactFns : VectorCompletes exactFns := by
  refine vectorCompletes_of_rows fun s l j k e he => ?_
  match k, he with
  | 0, rfl => exact ⟨_, rfl, fun s r => by rw [List.map_id']; rfl⟩
  | 3, rfl => exact ⟨_, rfl, fun s r => congrArg (fun vs => (some vs, none))
      (map_zip_zip_eq_zipWith Num.mul (fun p v => laneRound j.desc (p.add v)) _ _ _)⟩
  | 7, rfl => exact ⟨_, rfl, fun s r => by dsimp only [softParts]; rfl⟩
  | 9, rfl => exact ⟨_, rfl, fun s r => congrArg (fun vs => (some vs, some (maskBytes _)))
      (map_zipIdx_ite_eq_zipWith_mask (fun c => vParam0 j.desc ≤ vGrain j r c 1) (fun v => mul32 v (vP1 j.desc)) (.zero false) _)⟩
  | 10, rfl => exact ⟨_, rfl, fun s r => by dsimp only; rw [countP_nonzero]; rfl⟩
  | 1, rfl | 2, rfl | 4, rfl | 5, rfl | 6, rfl | 8, rfl | 11, rfl => exact ⟨_, rfl, fun _ _ => rfl⟩

/-- Each function of the library is written in the model as its row of R178 says. -/
theorem vectorCompletes_libraryFns : VectorCompletes libraryFns := by
  refine vectorCompletes_of_rows fun s l j k e he => ?_
  match k, he with
  | 0, rfl | 1, rfl | 2, rfl | 3, rfl | 4, rfl | 5, rfl | 6, rfl | 7, rfl | 8, rfl | 9, rfl => exact ⟨_, rfl, fun _ _ => rfl⟩

end Sys2Proof.Machine

/-- Settles O17: the rows of a descriptor are written in order, each by its function's formula. -/
theorem vectorFunctionsWriteTheirRows : Obligations.VectorFunctionsWriteTheirRows :=
  ⟨Sys2Proof.Machine.vectorCompletes_exactFns, Sys2Proof.Machine.vectorCompletes_libraryFns⟩

end

section
/-! The register path: COPY between memory and a block of device registers (R195, R196, R234). -/

namespace Sys2Proof.Machine

open Sys2Proof.Claims

/-! ## Blocks of register space -/

/-- The address lies in register space, with an offset in its block that is a multiple of 8 where the address is. -/
def InRegs (a o : Nat) : Prop := regBase0 ≤ a ∧ a < regBase0 + 0x10000000 ∧ o % 8 = a % 8

theorem coreBlock_inRegs {a base size lim l o : Nat}
    (hbase : regBase0 ≤ base ∧ base + 88 * size ≤ regBase0 + 0x10000000 ∧ base % 8 = 0 ∧ 8 ∣ size)
    (h : coreBlock a base size lim = some (l, o)) : InRegs a o := by
  simp only [coreBlock, Option.ite_none_right_eq_some, Option.some.injEq, Prod.mk.injEq] at h
  obtain ⟨⟨hfrom, hto, -⟩, -, rfl⟩ := h
  obtain ⟨hlow, hhigh, hword, hpitch⟩ := hbase
  have hmod : (a - base) % size % 8 = (a - base) % 8 := Nat.mod_mod_of_dvd _ hpitch
  exact ⟨by omega, by omega, by omega⟩

/-- Every block lies in register space. -/
theorem regBlock_inRegs {a o : Nat} {bl : RegBlock} (h : regBlock a = some (bl, o)) : InRegs a o := by
  unfold regBlock at h
  split at h
  case isTrue harith =>
    cases h
    unfold InRegs regBase0
    omega
  case isFalse =>
    split at h
    case h_1 hregion =>
      cases h
      exact coreBlock_inRegs (by decide) hregion
    case h_2 hrunner _ =>
      cases h
      obtain ⟨hlow, hhigh, hoff⟩ := coreBlock_inRegs (by decide) hrunner
      exact ⟨hlow, hhigh, by omega⟩
    case h_3 hriser _ _ =>
      cases h
      exact coreBlock_inRegs (by decide) hriser
    case h_4 =>
      split at h
      case h_1 hdebug =>
        cases h
        exact coreBlock_inRegs (by decide) hdebug
      case h_2 hinstr _ =>
        cases h
        exact coreBlock_inRegs (by decide) hinstr
      case h_3 htables _ _ =>
        cases h
        exact coreBlock_inRegs (by decide) htables
      case h_4 => cases h

/-- A register end names whole registers of register space, from a whole register on. -/
theorem regEnd_spec {a n o : Nat} {bl : RegBlock} (h : regEnd a n = some (bl, o)) :
    n % 8 = 0 ∧ o % 8 = 0 ∧ overlaps a n regBase0 0x10000000 = true := by
  unfold regEnd at h
  split at h
  case isTrue => exact absurd h (by simp)
  case isFalse hwhole =>
    split at h
    case h_1 hfirst _ =>
      rw [Option.ite_none_right_eq_some] at h
      obtain ⟨-, hsome⟩ := h
      obtain ⟨-, rfl⟩ := Prod.mk.inj (Option.some.inj hsome)
      obtain ⟨hlow, hhigh, hoff⟩ := regBlock_inRegs hfirst
      refine ⟨by omega, by omega, ?_⟩
      simp only [overlaps, Bool.and_eq_true, decide_eq_true_eq]
      omega
    case h_2 => exact absurd h (by simp)

/-! ## Checks (R234) -/

theorem overlaps_above {a n b m : Nat} (h : a + n ≤ b) : overlaps a n b m = false := by
  simp only [overlaps, Bool.and_eq_false_iff, decide_eq_false_iff_not]
  omega

/-- Populated memory is a memory end, out of register space. -/
theorem memoryEnd_of_inMem {s : State} {a n : Nat} (h : inMem s a n = true) :
    overlaps a n regBase0 0x10000000 = false ∧ memoryEnd a n = true := by
  have hbelow := inMem_below h
  have hregs : overlaps a n regBase0 0x10000000 = false := overlaps_above (by unfold winBase0 at hbelow; unfold regBase0; omega)
  have hwindows : overlaps a n winBase0 (88 * winSize) = false := overlaps_above (by omega)
  exact ⟨hregs, by rw [memoryEnd, endAllowed, hregs, hwindows]; rfl⟩

/-- R430: a read is refused for a debug block alone. -/
theorem regEndCheck_read {s : State} {admin : Bool} {bl : RegBlock} (o : Nat) (hopen : bl.isDebug = true → fabricOpen s = true)
    (hadmin : bl.isDebug = true → admin = true) : regEndCheck s admin (some (bl, o)) false true = 0 := by
  unfold regEndCheck
  cases hdebug : bl.isDebug with
  | false => simp [firstFail_cons, hdebug]
  | true => simp [firstFail_cons, hdebug, hopen hdebug, hadmin hdebug]

/-- R196: region registers are written by an administrative context alone. -/
theorem regEndCheck_region (s : State) (admin : Bool) (l o : Nat) :
    regEndCheck s admin (some (.region l, o)) true true = if admin then 0 else Status.contextNotAdmin := by
  cases admin <;> rfl

/-- R234: a read-only block is not written. -/
theorem regEndCheck_readOnly (s : State) (admin memEnd : Bool) {bl : RegBlock} (o : Nat) (h : bl.readOnly = true) :
    regEndCheck s admin (some (bl, o)) true memEnd = Status.moveTargetInvalid := by
  rw [regEndCheck, firstFail_cons, h, if_neg (by simp)]

/-! ## Reads of registers -/

/-- The bytes of registers hold each register whole, in address order. -/
theorem regBytes_word (s : State) (bl : RegBlock) (o : Nat) {m i : Nat} (h : i < m) :
    ((regBytes s bl o m).drop (8 * i)).take 8 = toLE 8 (regRead s bl (o + 8 * i)) :=
  flatMap_range_part _ 8 m i (fun _ => length_toLE _ _) h

theorem length_regBytes (s : State) (bl : RegBlock) (o m : Nat) : (regBytes s bl o m).length = 8 * m := by
  simp [regBytes, length_toLE, Nat.mul_comm]

/-! ## Writes of region registers (R195) -/

/-- The defined bits of a region register's written word. -/
theorem toNat_regionMask {v : Nat} (hv : v < 2 ^ 64) : (regionMask (BitVec.ofNat 64 v)).toNat = v &&& 0x800701FFFF01FFFF := by
  rw [regionMask, BitVec.toNat_and, BitVec.toNat_ofNat, Nat.mod_eq_of_lt hv]
  rfl

/-- An entry that is set leaves the others, whatever their own default. -/
theorem tget_tset_ne_anyDefault {β : Type} [DecidableEq β] (d d' : β) (t : Tab β) {i j : Nat} (h : j ≠ i) (v : β) :
    tget d (tset d' t i v) j = tget d t j := by
  unfold tset
  split
  · exact tget_filter_other d t h
  · exact tget_tput_ne d t h v

/-- The core's region registers from `r` on hold the defined bits of `m` words; its other region registers, those that it has latched, and all that lies
outside it are as they were. -/
structure RegionsPut (s t : State) (l r m : Nat) (word : Nat → Nat) : Prop where
  frame : { t with cores := s.cores } = s
  inside : ∀ i < m, regionOf (getCore t l).region (r + i) = word i &&& 0x800701FFFF01FFFF
  outside : ∀ i, i < r ∨ r + m ≤ i → regionOf (getCore t l).region i = regionOf (getCore s l).region i
  latched : (getCore t l).regionL = (getCore s l).regionL
  others : ∀ k, k ≠ l → getCore t k = getCore s k

theorem RegionsPut.mem {s t : State} {l r m : Nat} {word : Nat → Nat} (h : RegionsPut s t l r m word) : t.mem = s.mem :=
  (congrArg State.mem h.frame :)

theorem RegionsPut.ctxs {s t : State} {l r m : Nat} {word : Nat → Nat} (h : RegionsPut s t l r m word) : t.ctxs = s.ctxs :=
  (congrArg State.ctxs h.frame :)

/-- The next word goes to the next register. -/
theorem RegionsPut.one_more {s t : State} {l r m : Nat} {word : Nat → Nat} (h : RegionsPut s t l r m word) (f : Finds) {o : Nat}
    (ho : o / 8 = r + m) (hword : word m < 2 ^ 64) : RegionsPut s (regWrite f t (.region l) o (word m)) l r (m + 1) word := by
  have hsame : regionOf (getCore (regWrite f t (.region l) o (word m)) l).region (r + m) = word m &&& 0x800701FFFF01FFFF := by
    rw [regWrite, getCore_modCore, ho, regionOf, tget_tset_same, toNat_regionMask hword]
  have hother : ∀ i, i ≠ r + m → regionOf (getCore (regWrite f t (.region l) o (word m)) l).region i = regionOf (getCore t l).region i := by
    intro i hi
    rw [regWrite, getCore_modCore, ho, regionOf, tget_tset_ne_anyDefault _ _ _ hi, regionOf]
  refine ⟨h.frame, fun i hi => ?_, fun i hi => (hother i (by omega)).trans (h.outside i (by omega)), ?_, fun k hk => ?_⟩
  · by_cases hlast : i = m
    · rw [hlast, hsame]
    · rw [hother _ (by omega), h.inside i (by omega)]
  · rw [regWrite, getCore_modCore]
    exact h.latched
  · rw [regWrite, getCore_modCore_ne _ hk]
    exact h.others k hk

/-- A write of region registers with nothing lasting sets each of them, in address order. -/
theorem regPut_region (f : Finds) (s : State) (l : Nat) {o : Nat} (ho : o % 8 = 0) (d : List Byte) :
    RegionsPut s (regPut f s (.region l) o d (fun _ => false)) l (o / 8) (d.length / 8) (fun i => w64 d (8 * i)) := by
  unfold regPut
  induction d.length / 8 with
  | zero => exact ⟨rfl, fun i hi => absurd hi (Nat.not_lt_zero i), fun _ _ => rfl, rfl, fun _ _ => rfl⟩
  | succ m ih =>
    rw [List.range_succ, List.foldl_append]
    exact ih.one_more f (by omega) (w64_lt d (8 * m))

/-! ## COPY on the register path -/

theorem exec_copy_registers {s : State} {c q : Nat} {e : Entry} (hruns : fabricRuns s = true) (hrun : running s c q 0x100 = some e)
    (ha : pw e 0 < 2 ^ 44) (hb : pw e 8 < 2 ^ 44) (hn : pw e 0x10 < 2 ^ 40) (hne : pw e 0x10 ≠ 0) (htail : tailZero e 0x18 = true)
    (hregs : (overlaps (pw e 0) (pw e 0x10) regBase0 0x10000000 || overlaps (pw e 8) (pw e 0x10) regBase0 0x10000000) = true) :
    exec (.copy c q {}) s = .next (registerCopy s c q {} (pw e 0) (pw e 8) (pw e 0x10)) := by
  change execCopy c q {} s = _
  unfold execCopy fabricCharge
  dsimp only
  rw [if_pos hruns, onCharge_running _ hrun, decide_eq_true ha, decide_eq_true hb, decide_eq_true hn, htail, decide_eq_true hne, hregs]
  rfl

section
variable {s : State} {src dst n o : Nat} {bl : RegBlock} (c q : Nat)

/-- A write whose register end fails its check. -/
theorem registerCopy_refused {st : Nat} (f : Finds) (hregs : overlaps dst n regBase0 0x10000000 = true)
    (hcheck : regEndCheck s (getCtx s c).admin (regEnd dst n) true (memoryEnd src n) = st) (hst : st ≠ 0) :
    registerCopy s c q f src dst n = report s c q st 0 := by
  simp only [registerCopy, hregs, if_true, hcheck, firstFail_cons, decide_eq_true_eq, if_neg hst, if_pos hst]

/-- R234: a read brings the bytes of the registers to memory. -/
theorem registerCopy_reads (hpoison : s.poison = []) (hend : regEnd src n = some (bl, o)) (hopen : bl.isDebug = true → fabricOpen s = true)
    (hadmin : bl.isDebug = true → (getCtx s c).admin = true) (hmem : inMem s dst n = true) (hhop : inHopper s dst n = false) :
    registerCopy s c q {} src dst n = report { s with mem := writeB s.mem dst (regBytes s bl o (n / 8)) } c q 0 0 := by
  obtain ⟨hout, hmemory⟩ := memoryEnd_of_inMem hmem
  have hwrite : writeDev {} noSubject { s := s } dst (regBytes s bl o (n / 8))
      = { s := { s with mem := writeB s.mem dst (regBytes s bl o (n / 8)) } } :=
    pieces_write noSubject _ { s := s } dst _ hpoison (by omega)
  simp only [registerCopy, hout, Bool.false_eq_true, if_false, hend, hmemory, regEndCheck_read o hopen hadmin, hmem, hhop, hwrite]
  rfl

/-- R195, R196: a write in an administrative context puts the words of memory in region registers. -/
theorem registerCopy_writes {l : Nat} (hpoison : s.poison = []) (hend : regEnd dst n = some (.region l, o)) (hadmin : (getCtx s c).admin = true)
    (hmem : inMem s src n = true) (hhop : inHopper s src n = false) :
    registerCopy s c q {} src dst n = report (regPut {} s (.region l) o (memB s src n) (fun _ => false)) c q 0 0 := by
  obtain ⟨-, -, hregs⟩ := regEnd_spec hend
  have hread : readUnits {} noSubject { s := s } (unitsOf src n) = { s := s } := readUnits_clean noSubject _ _ hpoison
  simp only [registerCopy, hregs, if_true, hend, (memoryEnd_of_inMem hmem).2, regEndCheck_region, hadmin, hmem, hhop, hread]
  rfl

end

/-- The registers from offset `o` of a block stand whole in memory from `b` on, and no other byte differs. -/
theorem memB_writeB_regBytes {s t : State} {bl : RegBlock} {o b n : Nat} (hwhole : n % 8 = 0)
    (ht : t.mem = writeB s.mem b (regBytes s bl o (n / 8))) :
    (∀ i, 8 * i < n → memB t (b + 8 * i) 8 = toLE 8 (regRead s bl (o + 8 * i))) ∧ ∀ i, i < b ∨ b + n ≤ i → memB t i 1 = memB s i 1 := by
  have hlen : (regBytes s bl o (n / 8)).length = n := by rw [length_regBytes]; omega
  refine ⟨fun i hi => ?_, fun i hi => ?_⟩
  · rw [memB, ht, readB_writeB_part _ _ _ _ _ (by omega), regBytes_word s bl o (by omega)]
  · rw [memB, ht, readB_writeB_disjoint _ _ _ _ _ (by omega), memB]

/-- Region registers that were put read back their words' defined bits, and the others are as they were. -/
theorem RegionsPut.read {s t : State} {l o n : Nat} {word : Nat → Nat} (h : RegionsPut s t l (o / 8) (n / 8) word) (ho : o % 8 = 0)
    (hwhole : n % 8 = 0) : (∀ i, 8 * i < n → regRead t (.region l) (o + 8 * i) = word i &&& 0x800701FFFF01FFFF)
      ∧ ∀ i, i < o ∨ o + n ≤ i → i % 8 = 0 → regRead t (.region l) i = regRead s (.region l) i := by
  refine ⟨fun i hi => ?_, fun i hi hword => h.outside (i / 8) (by omega)⟩
  rw [regRead, show (o + 8 * i) / 8 = o / 8 + i by omega]
  exact h.inside i (by omega)

end Sys2Proof.Machine

open Sys2Proof Sys2Proof.Machine Sys2Proof.Claims

/-- Settles O30: the end that is a block of registers decides the way, and the charge reports
after its bytes or its registers are written, or is refused. -/
theorem registerPathCopiesWholeRegisters : Obligations.RegisterPathCopiesWholeRegisters := by
  intro s c q e bl o hruns hrun hpoison a b n ha hb hn hne htail hopen
  have hexec := exec_copy_registers hruns hrun ha hb hn hne htail
  refine ⟨fun hend hadmin hmem hhop => ?_, fun l hend hmem hhop => ?_, fun hend hro => ?_⟩
  · obtain ⟨hwhole, -, hregs⟩ := regEnd_spec hend
    rw [hexec (Bool.or_eq_true_iff.2 (.inl hregs)), registerCopy_reads c q hpoison hend hopen hadmin hmem hhop]
    exact ⟨_, rfl, report_ctxs rfl c q 0 0, memB_writeB_regBytes hwhole rfl⟩
  · obtain ⟨hwhole, hoff, hregs⟩ := regEnd_spec hend
    rw [hexec (Bool.or_eq_true_iff.2 (.inr hregs))]
    split
    case isTrue hadmin =>
      have hput := regPut_region {} s l hoff (memB s a n)
      rw [show (memB s a n).length = n from length_readB _ _ _] at hput
      obtain ⟨hinside, houtside⟩ := hput.read hoff hwhole
      rw [registerCopy_writes c q hpoison hend hadmin hmem hhop]
      exact ⟨_, rfl, report_ctxs hput.ctxs c q 0 0, hput.mem, hinside, houtside, hput.latched, hput.others⟩
    case isFalse hadmin =>
      have hcheck : regEndCheck s (getCtx s c).admin (regEnd b n) true (memoryEnd a n) = Status.contextNotAdmin := by
        rw [hend, (memoryEnd_of_inMem hmem).2, regEndCheck_region, if_neg hadmin]
      exact congrArg _ (registerCopy_refused c q {} hregs hcheck (by decide))
  · obtain ⟨-, -, hregs⟩ := regEnd_spec hend
    have hcheck : regEndCheck s (getCtx s c).admin (regEnd b n) true (memoryEnd a n) = Status.moveTargetInvalid := by
      rw [hend, regEndCheck_readOnly s _ _ o hro]
    rw [hexec (Bool.or_eq_true_iff.2 (.inr hregs))]
    exact congrArg _ (registerCopy_refused c q {} hregs hcheck (by decide))

end

section
/-! The movers' kinds that reach the hub or a runner (R203, R211, R229, R230, R254 to R256): MOVE_SEND, MOVE_SEND_ATOMIC,
MOVE_RUNNER_PUSH and MOVE_RUNNER_POP, where nothing is lasting. -/

namespace Sys2Proof.Machine

open Sys2Proof.Claims

/-! ## The row of a mover kind, and its end -/

theorem moverRow_of_runs {s : State} {l m kind : Nat} {j : Job} (h : MoverRuns s l m kind j) (f : State → Job → List Byte → State) :
    moverRow s l m kind f = f s j j.desc := by
  obtain ⟨hm, hjob, hkind, -⟩ := h
  simp [moverRow, hjob, hm, hkind]

theorem job_of_moverRuns {s : State} {l m kind : Nat} {j : Job} (h : MoverRuns s l m kind j) :
    (getEngine (getCore s l) (m + 3)).job = some j := by
  obtain ⟨-, hjob, -⟩ := h
  exact job_of_jobAt hjob

theorem job_finishJob {s : State} {l e : Nat} {j : Job} (h : (getEngine (getCore s l) e).job = some j) :
    (getEngine (getCore (finishJob s l e) l) e).job = some { j with stage := 4 } := by
  rw [finishJob, job_modJob, h]
  rfl

/-! ## What a change of a core's other fields leaves -/

theorem scratch_modCore (s : State) (l : Nat) {f : Core → Core} (hf : ∀ x, (f x).scratch = x.scratch) (k : Nat) :
    (getCore (modCore s l f) k).scratch = (getCore s k).scratch := by
  by_cases hk : k = l
  · rw [hk, getCore_modCore, hf]
  · rw [getCore_modCore_ne s hk]

theorem bytesAt_modCore (s : State) (l : Nat) {f : Core → Core} (hf : ∀ x, (f x).scratch = x.scratch) : bytesAt (modCore s l f) = bytesAt s := by
  funext a n
  unfold bytesAt
  split
  · rw [spB, scratch_modCore s l hf]
    rfl
  · rfl

theorem noBad_modCore {s : State} (h : NoBad s) (l : Nat) {f : Core → Core} (hf : ∀ x, (f x).spBad = x.spBad) : NoBad (modCore s l f) := by
  obtain ⟨hpoison, hsp⟩ := h
  refine ⟨hpoison, fun k => ?_⟩
  by_cases hk : k = l
  · rw [hk, getCore_modCore, hf, hsp]
  · rw [getCore_modCore_ne s hk, hsp]

/-! ## Shots that enter the hub (R254, R286) -/

/-- The shots have entered the hub, in order, from the die of core `l`. Beside the ports nothing differs but the journal, the
counters and the number of the next free value. -/
structure Entered (l : Nat) (s t : State) (new : List Shot) : Prop where
  frame : { t with lports := s.lports, journal := s.journal, tel := s.tel, free := s.free } = s
  inbuf : (getLPort t (10 + dieOf l)).inbuf = (getLPort s (10 + dieOf l)).inbuf ++ new

theorem Entered.trans {l : Nat} {s t u : State} {xs ys : List Shot} (h : Entered l s t xs) (k : Entered l t u ys) : Entered l s u (xs ++ ys) where
  frame := (congrArg (fun y : State => { y with lports := s.lports, journal := s.journal, tel := s.tel, free := s.free }) k.frame).trans h.frame
  inbuf := by rw [k.inbuf, h.inbuf, List.append_assoc]

theorem Entered.noBad {l : Nat} {s t : State} {xs : List Shot} (h : Entered l s t xs) (hs : NoBad s) : NoBad t := by
  rw [← h.frame] at hs
  exact hs

theorem Entered.bytesAt {l : Nat} {s t : State} {xs : List Shot} (h : Entered l s t xs) : bytesAt t = bytesAt s :=
  (congrArg Machine.bytesAt h.frame :)

theorem Entered.ownCoord {l : Nat} {s t : State} {xs : List Shot} (h : Entered l s t xs) : ownCoord t = ownCoord s :=
  (congrArg Machine.ownCoord h.frame :)

theorem Entered.getCore {l : Nat} {s t : State} {xs : List Shot} (h : Entered l s t xs) (k : Nat) : getCore t k = getCore s k :=
  (congrArg (fun y : State => Machine.getCore y k) h.frame :)

/-- The journal takes note of a transfer to another module, and no shot moves. -/
theorem entered_journalSend (k : Nat) (s : State) (c cseq peer peerCore own flow shots : Nat) (d : List (List Byte)) :
    Entered k s (journalSend s c cseq peer peerCore own flow shots d) [] := by
  have hsame : ∀ q : Journal, Entered k s { s with journal := q } [] := fun _ => ⟨rfl, (List.append_nil _).symm⟩
  have hopen : ∀ f : JEntry → JEntry, Entered k s (modJournal s f) [] := fun f => by
    unfold modJournal
    split
    · split
      · exact hsame _
      · exact hsame s.journal
    · exact hsame s.journal
  unfold journalSend
  extract_lets f
  split
  case isTrue hc =>
    rw [modFor, if_pos hc]
    exact hsame _
  case isFalse => exact hopen f

/-- The descriptor's destination is not a core of the sender's own die (R26). -/
def LeavesDie (s : State) (l : Nat) (d : List Byte) : Prop :=
  mMcast d = true ∨ mCoord d ≠ ownCoord s ∨ 88 ≤ mCore d ∨ dieOf (mCore d) ≠ dieOf l

/-- A shot under the epoch of the moment (R286). -/
def stamped (s : State) (x : Shot) : Shot := { x with epoch := s.route.epoch }

/-- A shot that leaves the die enters the hub, under the epoch of the moment. -/
theorem entered_inject {s : State} {l : Nat} {j : Job} (hdest : LeavesDie s l j.desc) (typ seq : Nat) (last carry : Bool) (p : List Byte)
    (tail : Nat) : Entered l s (inject s l (shotOf j typ seq last carry p tail))
      [stamped s (shotOf j typ seq last carry p tail)] := by
  have hoff : ¬((shotOf j typ seq last carry p tail).mcast = false ∧ (shotOf j typ seq last carry p tail).dest = ownCoord s
      ∧ (shotOf j typ seq last carry p tail).core < 88 ∧ dieOf (shotOf j typ seq last carry p tail).core = dieOf l) := by
    rintro ⟨hmcast, hcoord, hcore, hdie⟩
    have hone : mMcast j.desc = false := hmcast
    simp only [shotOf, hone] at hcoord hcore hdie
    rcases hdest with h | h | h | h
    · exact absurd hone (by simp [h])
    · exact h hcoord
    · exact absurd hcore (Nat.not_lt.2 h)
    · exact h hdie
  have hdie : dieOf l % 2 = dieOf l := by unfold dieOf; split <;> rfl
  rw [inject, if_neg hoff, intoHub, hdie]
  exact ⟨rfl, by rw [modLPort, getLPort_setLPort]; rfl⟩

theorem Entered.stamped {l : Nat} {s t : State} {xs : List Shot} (h : Entered l s t xs) : stamped t = stamped s :=
  (congrArg Machine.stamped h.frame :)

/-- A shot of a descriptor goes on its flow to its destination, a core or a tree (R255). -/
theorem stamped_shotOf_goes (s : State) (j : Job) (typ seq : Nat) (last carry : Bool) (p : List Byte) (tail : Nat) :
    let d := j.desc
    let x := stamped s (shotOf j typ seq last carry p tail)
    x.flow = mFlow d ∧ x.epoch = s.route.epoch ∧ x.mcast = mMcast d ∧ (mMcast d = false → x.dest = mCoord d ∧ x.core = mCore d)
      ∧ (mMcast d = true → x.dest = mTree d) :=
  ⟨rfl, rfl, rfl, fun h => ⟨if_neg (by simp [h]), if_neg (by simp [h])⟩, fun h => if_pos h⟩

/-! ## Data shots (R255, R256) -/

/-- A range of a line that is as long as the line is the whole line. -/
theorem cutsOf_off {d : List Byte} {c : Cut} (hc : c ∈ cutsOf d) (hlen : c.len = 64) : c.off = 0 := by
  unfold cutsOf at hc
  split at hc
  · simp only [List.mem_flatMap, List.mem_map] at hc
    obtain ⟨r, -, k, -, rfl⟩ := hc
    rfl
  · simp only [List.mem_flatMap, List.mem_map, rowLines] at hc
    obtain ⟨r, -, q, ⟨i, -, rfl⟩, rfl⟩ := hc
    dsimp only at hlen ⊢
    omega

/-- The bytes of the source lie in the payload at their place in the line. -/
theorem cutPayload_bytes (s : State) {c : Cut} (h : c.len = 64 → c.off = 0) : ((cutPayload s c).drop c.off).take c.len = bytesAt s c.src c.len := by
  unfold cutPayload
  dsimp only
  split
  case isTrue hlen =>
    rw [h hlen, hlen, List.drop_zero, List.take_of_length_le (by rw [length_bytesAt])]
  case isFalse =>
    rw [List.append_assoc, List.drop_left' (by simp), List.take_left' (length_bytesAt ..)]

/-- The shot is data shot `i` of the `n` of descriptor `j`, with the bytes of cut `c`; the last one carries the signal. -/
def CarriesCut (s : State) (j : Job) (n i : Nat) (c : Cut) (x : Shot) : Prop :=
  let carry := decide (i + 1 = n) && mSigEn j.desc
  ∃ p, (p.drop c.off).take c.len = bytesAt s c.src c.len
    ∧ x = stamped s (shotOf j (dataType (mKind j.desc) (mSat j.desc)) (i + 1) (decide (i + 1 = n)) carry p
              (if carry then mSignal j.desc * 2 ^ 32 + n else 0))

theorem Entered.carriesCut {l : Nat} {s t : State} {xs : List Shot} (h : Entered l s t xs) {j : Job} {n i : Nat} {c : Cut} {x : Shot}
    (hx : CarriesCut t j n i c x) : CarriesCut s j n i c x := by
  unfold CarriesCut at hx ⊢
  rwa [h.bytesAt, h.stamped] at hx

theorem Entered.leavesDie {l : Nat} {s t : State} {xs : List Shot} (h : Entered l s t xs) {d : List Byte} (hd : LeavesDie s l d) :
    LeavesDie t l d := by
  unfold LeavesDie at hd ⊢
  rwa [h.ownCoord]

theorem sendCut_enters {s : State} {l : Nat} {j : Job} (hdest : LeavesDie s l j.desc) (n i : Nat) {c : Cut} (hoff : c.len = 64 → c.off = 0) :
    ∃ x, Entered l s (sendCut l j n s i c) [x] ∧ CarriesCut s j n i c x := by
  obtain ⟨hframe, hinbuf⟩ := entered_inject (s := { s with free := s.free + 64 }) (j := j) hdest (dataType (mKind j.desc) (mSat j.desc)) (i + 1)
    (decide (i + 1 = n)) (decide (i + 1 = n) && mSigEn j.desc) (cutPayload s c)
    (if decide (i + 1 = n) && mSigEn j.desc then mSignal j.desc * 2 ^ 32 + n else 0)
  exact ⟨_, ⟨congrArg (fun y : State => { y with free := s.free }) hframe, hinbuf⟩, cutPayload s c, cutPayload_bytes s hoff, rfl⟩

/-- With nothing lasting, every cut enters the hub as its shot, in order. -/
theorem sendCuts_enter {l : Nat} (m : Nat) {j : Job} (n : Nat) {x : Acc} (i : Nat) {cs : List Cut} (hbad : NoBad x.s) (hnone : x.bad = [])
    (hdest : LeavesDie x.s l j.desc) (hoff : ∀ c ∈ cs, c.len = 64 → c.off = 0) :
    ∃ new, Entered l x.s (sendCuts {} l m j n x i cs).s new ∧ (sendCuts {} l m j n x i cs).bad = [] ∧ new.length = cs.length
      ∧ ∀ k y c, new[k]? = some y → cs[k]? = some c → CarriesCut x.s j n (i + k) c y := by
  induction cs generalizing x i with
  | nil => exact ⟨[], ⟨rfl, (List.append_nil _).symm⟩, hnone, rfl, fun k y c hy => by simp at hy⟩
  | cons c r ih =>
    obtain ⟨y, hfirst, hcarries⟩ := sendCut_enters hdest n i (hoff c List.mem_cons_self)
    obtain ⟨new, hrest, hend, hlen, hcuts⟩ := ih (x := { x with s := sendCut l j n x.s i c }) (i + 1) (hfirst.noBad hbad) hnone
      (hfirst.leavesDie hdest) (fun e he => hoff e (List.mem_cons_of_mem _ he))
    have hsend : sendCuts {} l m j n x i (c :: r) = sendCuts {} l m j n { x with s := sendCut l j n x.s i c } (i + 1) r := by
      rw [sendCuts, readAt_finds_nothing _ _ _ hbad]
      exact if_pos hnone
    rw [hsend]
    refine ⟨y :: new, hfirst.trans hrest, hend, by simp [hlen], fun k z e hz he => ?_⟩
    cases k with
    | zero =>
      obtain rfl : y = z := by simpa using hz
      obtain rfl : c = e := by simpa using he
      exact hcarries
    | succ k =>
      have hk := hfirst.carriesCut (hcuts k z e (by simpa using hz) (by simpa using he))
      rwa [Nat.add_assoc, Nat.add_comm 1] at hk

/-! ## A whole transfer (R229, R254) -/

/-- The core remembers which descriptor sends on the flow. -/
def sendNoted (s : State) (l m : Nat) (j : Job) : State :=
  modCore s l (fun c => { c with sends := tput c.sends (1024 * m + mFlow j.desc) (j.pc, j.ctx, j.cseq) })

theorem sendNoted_engines (s : State) (l m : Nat) (j : Job) (e : Nat) :
    getEngine (getCore (sendNoted s l m j) l) e = getEngine (getCore s l) e := by
  rw [sendNoted, getCore_modCore]
  rfl

theorem sendNoted_bytesAt (s : State) (l m : Nat) (j : Job) : bytesAt (sendNoted s l m j) = bytesAt s := bytesAt_modCore s l fun _ => rfl

theorem sendNoted_noBad {s : State} (l m : Nat) (j : Job) (h : NoBad s) : NoBad (sendNoted s l m j) := noBad_modCore h l fun _ => rfl

theorem CarriesCut.of_sendNoted {s : State} {l m : Nat} {j : Job} {n i : Nat} {c : Cut} {x : Shot} (h : CarriesCut (sendNoted s l m j) j n i c x) :
    CarriesCut s j n i c x := by
  unfold CarriesCut at h ⊢
  rwa [sendNoted_bytesAt] at h

/-- A transfer that leaves the die enters the hub whole, its OPEN first (the model's choice, log 27). -/
theorem sendTransfer_enters {s : State} {l m kind : Nat} {j : Job} (hruns : MoverRuns s l m kind j) (hdest : LeavesDie s l j.desc) :
    ∃ u p new, sendTransfer s l m {} j j.desc = finishJob u l (m + 3)
      ∧ Entered l (sendNoted s l m j) u (stamped s (shotOf j 0 0 false false p 0) :: new)
      ∧ new.length = (cutsOf j.desc).length
      ∧ ∀ k y c, new[k]? = some y → (cutsOf j.desc)[k]? = some c → CarriesCut s j (cutsOf j.desc).length k c y := by
  obtain ⟨-, -, -, hgoes, hbad⟩ := hruns
  let v := if mMcast j.desc || mCoord j.desc ≠ ownCoord (sendNoted s l m j) then
      journalSend (sendNoted s l m j) j.ctx j.cseq (mCoord j.desc) (mCore j.desc) l (mFlow j.desc) (cutsOf j.desc).length
        ((cutsOf j.desc).map (cutPayload (sendNoted s l m j))) else sendNoted s l m j
  let p := openPayload (openOf v l m j.desc (cutsOf j.desc).length)
  let w := bumpCore (inject v l (shotOf j 0 0 false false p 0)) l 17 (cutsOf j.desc).length
  have hv : Entered l (sendNoted s l m j) v [] := by
    unfold v
    split
    · exact entered_journalSend ..
    · exact ⟨rfl, (List.append_nil _).symm⟩
  have hopen := entered_inject (hv.leavesDie (show LeavesDie (sendNoted s l m j) l j.desc from hdest)) 0 0 false false p 0
  have hw : Entered l (sendNoted s l m j) w [stamped s (shotOf j 0 0 false false p 0)] := by
    have hboth := hv.trans hopen
    rw [hv.stamped] at hboth
    exact ⟨congrArg (fun y : State => { y with tel := s.tel }) hboth.frame, hboth.inbuf⟩
  obtain ⟨new, hcuts, hend, hlen, hcarry⟩ := sendCuts_enter m (cutsOf j.desc).length (x := { s := w, tw := jobTrapWord j }) 0
    (hw.noBad (sendNoted_noBad l m j hbad)) rfl (hw.leavesDie hdest) (fun _ => cutsOf_off)
  have hsend : sendTransfer s l m {} j j.desc
      = moverEnd (sendCuts {} l m j (cutsOf j.desc).length { s := w, tw := jobTrapWord j } 0 (cutsOf j.desc)) l m := by
    simp only [sendTransfer, hgoes]
    rfl
  refine ⟨_, p, new, hsend.trans (if_pos hend), hw.trans hcuts, hlen, fun k y c hy hc => ?_⟩
  have hk := hw.carriesCut (hcarry k y c hy hc)
  rw [Nat.zero_add] at hk
  exact hk.of_sendNoted

/-- The two commands are a transfer of the running descriptor. -/
theorem exec_moveSends {s : State} {l m k : Nat} {j : Job} (hruns : MoverRuns s l m k j) :
    ∀ row ∈ ([(2, .moveSend l m {}), (3, .moveSendAtomic l m {})] : List (Nat × Instr)), k = row.1 →
      exec row.2 s = .next (sendTransfer s l m {} j j.desc) ∧ (k = 2 ∨ k = 3) := by
  intro row hrow hk
  simp only [List.mem_cons, List.not_mem_nil, or_false] at hrow
  rcases hrow with rfl | rfl
  · subst hk
    exact ⟨congrArg _ (moverRow_of_runs hruns fun s j d => sendTransfer s l m {} j d), .inl rfl⟩
  · subst hk
    exact ⟨congrArg _ (moverRow_of_runs hruns fun s j d => sendTransfer s l m {} j d), .inr rfl⟩

/-- The half of O16 about the hub. -/
theorem moveSendPutsOneTransferIntoTheHub : Claims.MoveSendPutsOneTransferIntoTheHub := by
  intro s l m k j hruns d n hdest row hrow hk
  obtain ⟨hexec, hsends⟩ := exec_moveSends hruns row hrow hk
  obtain ⟨u, p, new, hsend, hhub, hlen, hcarry⟩ := sendTransfer_enters hruns hdest
  obtain ⟨-, -, hkind, -⟩ := id hruns
  have hshots : ∀ x ∈ stamped s (shotOf j 0 0 false false p 0) :: new, ∃ typ seq last carry q tail,
      x = stamped s (shotOf j typ seq last carry q tail) := by
    intro x hx
    rcases List.mem_cons.1 hx with rfl | hx
    · exact ⟨_, _, _, _, _, _, rfl⟩
    · obtain ⟨i, hi⟩ := List.mem_iff_getElem?.1 hx
      obtain ⟨hlt, -⟩ := List.getElem?_eq_some_iff.1 hi
      obtain ⟨q, -, hq⟩ := hcarry i x _ hi (List.getElem?_eq_getElem (hlen ▸ hlt))
      exact ⟨_, _, _, _, _, _, hq⟩
  refine ⟨finishJob u l (m + 3), _, hexec.trans (congrArg _ hsend), job_finishJob ?_, hhub.inbuf, by rw [List.length_cons, hlen], fun x hx => ?_,
    fun x hx => ?_, fun i _ x hx c hc => ?_⟩
  · rw [hhub.getCore, sendNoted_engines, job_of_moverRuns hruns]
  · obtain ⟨typ, seq, last, carry, q, tail, rfl⟩ := hshots x hx
    exact stamped_shotOf_goes s j typ seq last carry q tail
  · obtain rfl : _ = x := Option.some.inj hx
    exact ⟨rfl, rfl⟩
  · obtain ⟨q, hbytes, rfl⟩ := hcarry i x c hx hc
    refine ⟨?_, rfl, rfl, hbytes, ?_⟩
    · change dataType (mKind d) (mSat d) = _
      rcases hsends with h | h <;> rw [hkind, h] <;> rfl
    · simp [stamped, shotOf, n, d]

/-! ## Runners (R203, R211, R230) -/

/-- A core but for its scratchpad and the marks of descriptors whose operands were written there. -/
def Core.besideScratch (x : Core) : Core := { x with scratch := [], breached := [] }

/-- With nothing lasting, a scratchpad write changes of every core nothing but the scratchpad. -/
theorem writeSp_besideScratch (l master : Nat) (x : Acc) (a : Nat) (d : List Byte) (h : (getCore x.s l).spBad = []) (k : Nat) :
    (getCore (writeSp {} l master x a d).s k).besideScratch = (getCore x.s k).besideScratch := by
  refine foldl_keeps (P := fun y : Acc => ∀ k, (getCore y.s k).besideScratch = (getCore x.s k).besideScratch) (fun y p hy i => ?_) _
    (fun _ => rfl) k
  have hclean : (getCore y.s l).spBad = [] := (congrArg Core.spBad (hy l) :).trans h
  rw [writeWord_clean l master y p.1 p.2 hclean]
  by_cases hi : i = l
  · subst hi
    rw [← hy i, getCore_modCore]
    rfl
  · rw [getCore_modCore_ne _ hi]
    exact hy i

/-- With nothing lasting, bytes written to one place are read back there; of the cores nothing but scratchpads differs. -/
theorem writeAt_stores (master subj : Nat) {x : Acc} {a : Nat} {d : List Byte} (h : NoBad x.s) (hd : d ≠ []) (hplace : InOnePlace a d.length) :
    (writeAt {} master subj x a d).bad = x.bad ∧ bytesAt (writeAt {} master subj x a d).s a d.length = d
      ∧ ∀ k, (getCore (writeAt {} master subj x a d).s k).besideScratch = (getCore x.s k).besideScratch := by
  have hpos : 0 < d.length := List.length_pos_iff.2 hd
  unfold writeAt
  rcases hplace with hlt | hw
  · have hnone : inWindow a d.length = none := inWindow_eq_none_of_lt (by omega)
    rw [hnone]
    dsimp only
    rw [writeDev, pieces_write subj _ x a d h.1 (by omega)]
    refine ⟨rfl, ?_, fun _ => rfl⟩
    rw [bytesAt, hnone]
    exact readB_writeB x.s.mem a d
  · obtain ⟨⟨l, o⟩, hw⟩ := Option.isSome_iff_exists.1 hw
    rw [hw]
    dsimp only
    obtain ⟨hacc, -⟩ := writeSp_acc l master x o d h
    have hbytes := (deviceWritten_window hw (writeSp_clean x.s l master o d (h.2 l))).inside 0 d.length (by omega)
    refine ⟨by rw [hacc], ?_, writeSp_besideScratch l master x o d (h.2 l)⟩
    rw [hacc]
    simpa using hbytes

/-- What runs beside the scratchpads is as before. -/
theorem getRunner_of_besideScratch {s t : State} {l : Nat} (h : (getCore t l).besideScratch = (getCore s l).besideScratch) (n : Nat) :
    getRunner t l n = getRunner s l n :=
  (congrArg (fun x : Core => tget {} x.runners n) h :)

theorem job_of_besideScratch {s t : State} {l : Nat} (h : (getCore t l).besideScratch = (getCore s l).besideScratch) (e : Nat) :
    (getEngine (getCore t l) e).job = (getEngine (getCore s l) e).job :=
  (congrArg (fun x : Core => (getEngine x e).job) h :)

theorem job_setRunner (s : State) (l n : Nat) (r : Runner) (e : Nat) :
    (getEngine (getCore (setRunner s l n r) l) e).job = (getEngine (getCore s l) e).job := by
  rw [setRunner, getCore_modCore]
  rfl

theorem getRunner_modJob (s : State) (l e : Nat) (f : Job → Job) (n : Nat) : getRunner (modJob s l e f) l n = getRunner s l n := by
  rw [getRunner, modJob, getCore_modCore]
  rfl

theorem bytesAt_modJob (s : State) (l e : Nat) (f : Job → Job) : bytesAt (modJob s l e f) = bytesAt s := bytesAt_modCore s l fun _ => rfl

/-- With nothing lasting, a push to a ring writes the slot at the write pointer, and the pointer advances (R203). -/
theorem pushEntry_ring {s : State} {l n : Nat} (e : List Byte) (hbad : (getCore s l).spBad = []) (hring : (getRunner s l n).isSpill = false) :
    let q := getRunner s l n
    let t := pushEntry s l n e
    getRunner t l n = { q with wp := q.adv q.wp } ∧ (getCore t l).scratch = writeB (getCore s l).scratch (q.slot q.wp) e
      ∧ ∀ i, (getEngine (getCore t l) i).job = (getEngine (getCore s l) i).job := by
  intro q t
  have ht : t = setRunner (putSp s l 9 (q.slot q.wp) e) l n { q with wp := q.adv q.wp } := by simp [t, pushEntry, hring, q]
  rw [ht]
  refine ⟨getRunner_setRunner .., ?_, fun i => ?_⟩
  · rw [scratch_setRunner]
    exact (writeSp_clean s l 9 (q.slot q.wp) e hbad).scratch
  · rw [job_setRunner]
    exact job_of_besideScratch (writeSp_besideScratch l 9 { s := s } _ e hbad l) i

/-- An entry that leaves a ring advances its read pointer (R203). -/
theorem dropEntry_ring {s : State} {l n : Nat} (hring : (getRunner s l n).isSpill = false) :
    dropEntry s l n = setRunner s l n { getRunner s l n with rp := (getRunner s l n).adv (getRunner s l n).rp } := by
  simp [dropEntry, hring]

/-! ## One entry of a runner kind (R211, R230) -/

/-- Descriptor `j` moves one entry, has moved none yet, and carries no signal; its runner is an enabled ring. -/
structure MovesOneEntry (s : State) (l : Nat) (j : Job) : Prop where
  rows    : mRows j.desc = 1
  len     : mLen j.desc = 64
  sent    : j.sent = 0
  fail    : j.fail = none
  signal  : mSigEn j.desc = false
  enabled : (getRunner s l (mRunner j.desc)).enabled = true
  ring    : (getRunner s l (mRunner j.desc)).isSpill = false

theorem MovesOneEntry.count {s : State} {l : Nat} {j : Job} (h : MovesOneEntry s l j) : entryCount j.desc = 1 := by
  rw [entryCount, h.rows, h.len]

theorem MovesOneEntry.src {s : State} {l : Nat} {j : Job} (h : MovesOneEntry s l j) : entrySrc j.desc 0 = mSrc j.desc := by
  simp [entrySrc, h.len]

theorem MovesOneEntry.dst {s : State} {l : Nat} {j : Job} (h : MovesOneEntry s l j) : entryDst j.desc 0 = mDst j.desc := by
  simp [entryDst, h.len]

theorem job_entryMoved {s : State} {l m : Nat} {j : Job} (h : (getEngine (getCore s l) (m + 3)).job = some j) :
    (getEngine (getCore (entryMoved s l m) l) (m + 3)).job = some { j with sent := j.sent + 1 } :=
  (job_modJob s l (m + 3) _).trans (congrArg (Option.map _) h)

/-- Once its one entry has moved, the descriptor's work is done. -/
theorem runnerRow_one {s u : State} {l m : Nat} {j : Job} (hone : MovesOneEntry s l j) (hgoes : moverStopped s l = false)
    {can : Runner → Bool} (hcan : can (getRunner s l (mRunner j.desc)) = true) {one : Nat → Acc → Acc} {y : Acc}
    (hmove : one 0 { s := s, tw := jobTrapWord j } = { y with s := entryMoved u l m }) (hbad : y.bad = [])
    (hjob : (getEngine (getCore u l) (m + 3)).job = some j) :
    runnerRow s l m j j.desc none can one = finishJob (entryMoved u l m) l (m + 3) := by
  have hserve : serveEntries can one l j.desc (entryCount j.desc) j.sent none { s := s, tw := jobTrapWord j }
      = ({ y with s := entryMoved u l m }, false) := by
    rw [hone.sent, hone.count, serveEntries, hone.count, ← hmove]
    simp [hcan, serveEntries]
  have hend : runnerEnd ({ y with s := entryMoved u l m }, false) l m j.desc = finishJob (entryMoved u l m) l (m + 3) := by
    simp [runnerEnd, hbad, job_entryMoved hjob, hone.count, hone.sent, hone.fail, hone.signal]
  simp [runnerRow, hgoes, hone.enabled, hone.fail, hserve, hend]

/-- The state after the work of one entry: the job has moved it and is done; runners, scratchpads and bytes are those of `u`. -/
theorem finish_entryMoved {u : State} {l m : Nat} {j : Job} (hsent : j.sent = 0) (hjob : (getEngine (getCore u l) (m + 3)).job = some j) :
    let t := finishJob (entryMoved u l m) l (m + 3)
    (getEngine (getCore t l) (m + 3)).job = some { j with sent := 1, stage := 4 } ∧ (∀ n, getRunner t l n = getRunner u l n)
      ∧ (getCore t l).scratch = (getCore u l).scratch ∧ bytesAt t = bytesAt u := by
  intro t
  refine ⟨?_, fun n => ?_, ?_, ?_⟩
  · rw [job_finishJob (job_entryMoved hjob), hsent]
  · exact (getRunner_modJob (entryMoved u l m) l (m + 3) _ n).trans (getRunner_modJob u l (m + 3) _ n)
  · exact (storesKept_modJob (entryMoved u l m) l (m + 3) _).scratch.trans (storesKept_modJob u l (m + 3) _).scratch
  · exact (bytesAt_modJob (entryMoved u l m) l (m + 3) _).trans (bytesAt_modJob u l (m + 3) _)

/-- The entry at the source is pushed. -/
theorem pushOne_clean {s : State} {l : Nat} (m : Nat) {j : Job} (tw : Nat) (hbad : NoBad s) (hone : MovesOneEntry s l j) :
    pushOne {} l m j.desc 0 { s := s, tw := tw }
      = { s := entryMoved (pushEntry s l (mRunner j.desc) (bytesAt s (mSrc j.desc) 64)) l m, tw := tw } := by
  simp [pushOne, readAt_finds_nothing _ _ (x := { s := s, tw := tw }) _ hbad, hone.src]

/-- The oldest entry of a ring is written to the destination, once it has left the ring. -/
theorem popOne_clean {s : State} {l : Nat} (m : Nat) {j : Job} (tw : Nat) (hbad : NoBad s) (hone : MovesOneEntry s l j) :
    let q := getRunner s l (mRunner j.desc)
    let y := writeAt {} (movMaster m) (coreSubject s l (movMaster m))
      { s := dropEntry s l (mRunner j.desc), tw := tw } (mDst j.desc) (spB s l (q.slot q.rp) 64)
    popOne {} l m j.desc 0 { s := s, tw := tw } = { y with s := entryMoved y.s l m } := by
  intro q y
  obtain ⟨-, hsp⟩ := hbad
  have hhead : headEntry {} s l (mRunner j.desc) tw = (spB s l (q.slot q.rp) 64, { s := s, tw := tw }) := by
    simp [headEntry, hone.ring, readWords_clean l 9 { s := s, tw := tw } _ (hsp l), q]
  simp [popOne, hhead, hone.dst, y]

/-- MOVE_RUNNER_PUSH to a local ring with room appends the entry at its source. -/
theorem moveRunnerPush_appends {s : State} {l m : Nat} {j : Job} (hruns : MoverRuns s l m 4 j) (hone : MovesOneEntry s l j)
    (hlocal : mLocalPush s l j.desc = true) (hroom : (getRunner s l (mRunner j.desc)).canPush = true) :
    let q := getRunner s l (mRunner j.desc)
    ∃ t, exec (.moveRunnerPush l m none {}) s = .next t ∧ getRunner t l (mRunner j.desc) = { q with wp := q.adv q.wp }
      ∧ spB t l (q.slot q.wp) 64 = bytesAt s (mSrc j.desc) 64 ∧ (getEngine (getCore t l) (m + 3)).job = some { j with sent := 1, stage := 4 } := by
  intro q
  obtain ⟨-, -, -, hgoes, hbad⟩ := id hruns
  let e := bytesAt s (mSrc j.desc) 64
  let u := pushEntry s l (mRunner j.desc) e
  obtain ⟨hrunner, hscratch, hjobs⟩ := pushEntry_ring e (hbad.2 l) hone.ring
  have hjob : (getEngine (getCore u l) (m + 3)).job = some j := (hjobs _).trans (job_of_moverRuns hruns)
  have hexec : exec (.moveRunnerPush l m none {}) s = .next (finishJob (entryMoved u l m) l (m + 3)) :=
    congrArg _ ((moverRow_of_runs hruns _).trans ((if_pos hlocal).trans
      (runnerRow_one hone hgoes hroom (y := { s := s, tw := jobTrapWord j }) (pushOne_clean m _ hbad hone) rfl hjob)))
  obtain ⟨hdone, hrunners, hstore, -⟩ := finish_entryMoved hone.sent hjob
  refine ⟨_, hexec, (hrunners _).trans hrunner, ?_, hdone⟩
  have hread := readB_writeB (getCore s l).scratch (q.slot q.wp) e
  rwa [length_bytesAt, ← hscratch, ← hstore] at hread

/-- MOVE_RUNNER_POP from a ring with entries brings the oldest one to its destination. -/
theorem moveRunnerPop_brings {s : State} {l m : Nat} {j : Job} (hruns : MoverRuns s l m 5 j) (hone : MovesOneEntry s l j)
    (hspan : (getRunner s l (mRunner j.desc)).span ≠ 0) (hplace : InOnePlace (mDst j.desc) 64) :
    let q := getRunner s l (mRunner j.desc)
    ∃ t, exec (.moveRunnerPop l m none {}) s = .next t ∧ getRunner t l (mRunner j.desc) = { q with rp := q.adv q.rp }
      ∧ bytesAt t (mDst j.desc) 64 = spB s l (q.slot q.rp) 64
      ∧ (getEngine (getCore t l) (m + 3)).job = some { j with sent := 1, stage := 4 } := by
  intro q
  obtain ⟨-, -, -, hgoes, hbad⟩ := id hruns
  let v := dropEntry s l (mRunner j.desc)
  let e := spB s l (q.slot q.rp) 64
  let y := writeAt {} (movMaster m) (coreSubject s l (movMaster m)) { s := v, tw := jobTrapWord j } (mDst j.desc) e
  have hlen : e.length = 64 := length_readB _ _ _
  have hv : v = setRunner s l (mRunner j.desc) { q with rp := q.adv q.rp } := dropEntry_ring hone.ring
  have hclean : NoBad v := by
    rw [hv]
    exact noBad_modCore hbad l fun _ => rfl
  obtain ⟨hfine, hbytes, hbeside⟩ := writeAt_stores (movMaster m) (coreSubject s l (movMaster m)) (x := { s := v, tw := jobTrapWord j })
    (a := mDst j.desc) (d := e) hclean (List.ne_nil_of_length_pos (by omega)) (by rwa [hlen])
  rw [hlen] at hbytes
  have hjob : (getEngine (getCore y.s l) (m + 3)).job = some j := by
    rw [job_of_besideScratch (hbeside l), hv, job_setRunner, job_of_moverRuns hruns]
  have hcan : (!q.popEmpty) = true := by simpa [Runner.popEmpty, hone.ring, q] using hspan
  have hexec : exec (.moveRunnerPop l m none {}) s = .next (finishJob (entryMoved y.s l m) l (m + 3)) :=
    congrArg _ ((moverRow_of_runs hruns _).trans
      (runnerRow_one hone hgoes hcan (y := y) (popOne_clean m _ hbad hone) hfine hjob))
  obtain ⟨hdone, hrunners, -, hstore⟩ := finish_entryMoved hone.sent hjob
  refine ⟨_, hexec, ?_, by rw [hstore, hbytes], hdone⟩
  rw [hrunners, getRunner_of_besideScratch (hbeside l), hv, getRunner_setRunner]

/-- The half of O16 about runners. -/
theorem moveRunnerPushAndPopMoveOneEntry : Claims.MoveRunnerPushAndPopMoveOneEntry := by
  intro s l m j d q hrows hlen hsent hfail hsignal henabled hring
  have hone : MovesOneEntry s l j := ⟨hrows, hlen, hsent, hfail, hsignal, henabled, hring⟩
  exact ⟨fun hruns hlocal hroom _ => moveRunnerPush_appends hruns hone hlocal hroom,
    fun hruns hspan hplace => moveRunnerPop_brings hruns hone hspan hplace⟩

end Sys2Proof.Machine

/-- Settles O16: every cut of the descriptor enters the hub as its shot behind the OPEN, all in one step as log 27 chooses; one round
of a runner kind moves the one entry. -/
theorem moversSendAndQueue : Obligations.MoversSendAndQueue :=
  ⟨Sys2Proof.Machine.moveSendPutsOneTransferIntoTheHub, Sys2Proof.Machine.moveRunnerPushAndPopMoveOneEntry⟩

end

section
/-! Rows of the movers that write by device address (R225, R226, R228, R236, R237), where nothing is lasting. -/

namespace Sys2Proof.Machine

open Sys2Proof.Claims

/-! ## Places that reach up to the windows -/

/-- A range of the one place is one of the other, unless its last byte is the last before the windows. -/
theorem onePlace_or_edge {a n : Nat} (h : InOnePlace a n) : OnePlace a n ∨ (a + n = winBase0 ∧ 0 < n) := by
  rcases h with h | h
  · rcases Nat.lt_or_eq_of_le h with hlt | heq
    · exact .inl (.inl hlt)
    · rcases Nat.eq_zero_or_pos n with rfl | hpos
      · exact .inl (.inr ⟨0, 0, inWindow_eq_some.2 ⟨by rw [winAddr]; omega, by decide, by decide⟩⟩)
      · exact .inr ⟨heq, hpos⟩
  · obtain ⟨⟨l, o⟩, hw⟩ := Option.isSome_iff_exists.1 h
    exact .inl (.inr ⟨l, o, hw⟩)

theorem inOnePlace_part {a n k m : Nat} (h : InOnePlace a n) (hk : k + m ≤ n) : InOnePlace (a + k) m := by
  rcases h with h | h
  · exact .inl (by omega)
  · obtain ⟨⟨l, o⟩, hw⟩ := Option.isSome_iff_exists.1 h
    exact .inr (by rw [inWindow_part hw hk]; rfl)

/-- A range of one place is read byte by byte, up to the windows. -/
theorem getElem?_bytesAt_inOnePlace {s : State} {a n k : Nat} (h : InOnePlace a n) (hk : k < n) :
    (bytesAt s a n)[k]? = some (byteAt s (a + k)) := by
  rcases onePlace_or_edge h with h | ⟨hedge, -⟩
  · exact getElem?_bytesAt h hk
  · rw [byteAt, bytesAt, bytesAt, inWindow_eq_none_of_lt (by omega), inWindow_eq_none_of_lt (by omega)]
    exact getElem?_readB _ a hk

/-! ## Writes that land -/

/-- Writes have set the bytes `i` with `C i` to `g i`, found nothing more that is lasting, and left of the cores all but
scratchpads as it was. -/
structure Lands (g : Nat → Byte) (x y : Acc) (C : Nat → Prop) : Prop where
  painted : Painted g x.s y.s C
  found : y.bad = x.bad
  beside : ∀ k, (getCore y.s k).besideScratch = (getCore x.s k).besideScratch

theorem Lands.trans {g : Nat → Byte} {x y z : Acc} {C D : Nat → Prop} (h : Lands g x y C) (k : Lands g y z D) :
    Lands g x z (fun i => C i ∨ D i) :=
  ⟨h.painted.trans k.painted, k.found.trans h.found, fun l => (k.beside l).trans (h.beside l)⟩

theorem Lands.congr {g : Nat → Byte} {x y : Acc} {C D : Nat → Prop} (h : Lands g x y C) (hCD : ∀ i, C i ↔ D i) : Lands g x y D :=
  ⟨h.painted.congr hCD, h.found, h.beside⟩

theorem Lands.refl {g : Nat → Byte} {x : Acc} (h : NoBad x.s) : Lands g x x (fun _ => False) := ⟨Painted.refl h, rfl, fun _ => rfl⟩

/-- A run of writes lands what each lands. -/
theorem Lands.foldl {α : Type} {g : Nat → Byte} {f : Acc → α → Acc} {C : α → Nat → Prop} {items : List α} {x : Acc} (hclean : NoBad x.s)
    (hf : ∀ z ∈ items, ∀ y : Acc, NoBad y.s → Lands g y (f y z) (C z)) : Lands g x (items.foldl f x) (fun i => ∃ z ∈ items, C z i) := by
  induction items generalizing x with
  | nil => exact (Lands.refl hclean).congr fun i => by simp
  | cons z r ih =>
    have hfirst := hf z List.mem_cons_self x hclean
    exact (hfirst.trans (ih hfirst.painted.clean fun w hw => hf w (List.mem_cons_of_mem _ hw))).congr fun i => by simp

/-- With nothing lasting, a write to one place sets its bytes, also up to the windows. -/
theorem writeAt_paints_inOnePlace {g : Nat → Byte} (master subj : Nat) {x : Acc} {a : Nat} {d : List Byte} (hclean : NoBad x.s)
    (hplace : InOnePlace a d.length) (hd : ∀ k < d.length, d[k]? = some (g (a + k))) :
    Painted g x.s (writeAt {} master subj x a d).s (Covers a d.length) := by
  rcases onePlace_or_edge hplace with hplace | ⟨hedge, hpos⟩
  · obtain ⟨t, hwrite, hpaint⟩ := writeAt_paints master subj hclean hplace hd
    rwa [hwrite]
  · have hwrite : writeAt {} master subj x a d = { x with s := { x.s with mem := writeB x.s.mem a d } } := by
      rw [writeAt, inWindow_eq_none_of_lt (by omega)]
      exact pieces_write subj _ x a d hclean.1 (by omega)
    rw [hwrite]
    refine ⟨rfl, ⟨hclean.1, hclean.2⟩, fun i ⟨hfrom, hto⟩ => ?_, fun i hi => ?_⟩
    · obtain ⟨k, rfl⟩ := Nat.exists_eq_add_of_le hfrom
      have hk : k < d.length := by omega
      have hbyte := hd k hk
      rw [byteAt, bytesAt, inWindow_eq_none_of_lt (by omega)]
      have hset : tget 0 (writeB x.s.mem a d) (a + k) = g (a + k) := by
        rw [tget_writeB_inside _ _ _ _ hk, List.getD_eq_getElem?_getD, hbyte, Option.getD_some]
      exact hset
    · have hout : i < a ∨ a + d.length ≤ i := by unfold Covers at hi; omega
      unfold byteAt bytesAt
      split
      · rfl
      · exact tget_writeB_outside _ _ _ _ hout

theorem writeAt_nil (master subj : Nat) (x : Acc) (a : Nat) : writeAt {} master subj x a [] = x := by
  unfold writeAt
  split <;> rfl

/-- With nothing lasting, a write to one place lands. -/
theorem writeAt_lands {g : Nat → Byte} (master subj : Nat) {x : Acc} {a : Nat} {d : List Byte} (hclean : NoBad x.s)
    (hplace : InOnePlace a d.length) (hd : ∀ k < d.length, d[k]? = some (g (a + k))) :
    Lands g x (writeAt {} master subj x a d) (Covers a d.length) := by
  have hpaint := writeAt_paints_inOnePlace master subj hclean hplace hd
  rcases eq_or_ne d [] with rfl | hne
  · rw [writeAt_nil] at hpaint ⊢
    exact ⟨hpaint, rfl, fun _ => rfl⟩
  · obtain ⟨hfound, -, hbeside⟩ := writeAt_stores master subj hclean hne hplace
    exact ⟨hpaint, hfound, hbeside⟩

/-- With nothing lasting, a row piece of a copy lands. -/
theorem copyRow_lands {g : Nat → Byte} (master subj src : Nat) {x : Acc} {a : Nat} {d : List Byte} (hclean : NoBad x.s)
    (hplace : InOnePlace a d.length) (hd : ∀ k < d.length, d[k]? = some (g (a + k))) :
    Lands g x (copyRow {} master subj src a d [] x) (Covers a d.length) := by
  refine (Lands.foldl (C := fun p : Nat × List Byte => Covers p.1 p.2.length) hclean fun p hp y hy => ?_).congr fun i => covers_pieces
  obtain ⟨hlow, hhigh, -, hbytes⟩ := pieces_spec (by decide) _ _ _ p hp
  obtain ⟨o, ho⟩ := Nat.exists_eq_add_of_le hlow
  rw [if_neg (by simp [touchesBad])]
  refine writeAt_lands master subj hy (ho ▸ inOnePlace_part hplace (by omega)) fun k hk => ?_
  rw [hbytes k hk, hd _ (by omega)]
  congr 2
  omega

/-! ## The rows of a descriptor -/

/-- The bursts of a row land the row when each lands its part. -/
theorem bursts_land {g : Nat → Byte} {f : Acc → Nat × Nat × Nat → Acc} {x : Acc} {src dst n : Nat} (hclean : NoBad x.s)
    (hf : ∀ o k, o + k ≤ n → ∀ y : Acc, NoBad y.s → Lands g y (f y (src + o, dst + o, k)) (Covers (dst + o) k)) :
    Lands g x ((bursts src dst n).foldl f x) (Covers dst n) := by
  have hcut : CutOf src dst n (bursts src dst n) := cutOf_burstsFrom src dst src dst n _
  refine (Lands.foldl (C := fun b : Nat × Nat × Nat => Covers b.2.1 b.2.2) hclean ?_).congr fun i => ⟨?_, ?_⟩
  · rintro ⟨a, b, k⟩ hb y hy
    obtain ⟨o, rfl, rfl, hin⟩ := hcut _ hb
    exact hf o k hin y hy
  · rintro ⟨b, hb, hfrom, hto⟩
    obtain ⟨o, -, hdst, hin⟩ := hcut b hb
    exact ⟨by omega, by omega⟩
  · rintro ⟨hfrom, hto⟩
    obtain ⟨b, hb, hcov⟩ := full_bursts src dst n (i - dst) (by omega)
    exact ⟨b, hb, by rwa [Nat.add_sub_cancel' hfrom] at hcov⟩

/-- Rows have landed one after another: a byte is that of the last row that covers it, and a byte of none is as it was. -/
structure RowsLand (g : Nat → Nat → Byte) (C : Nat → Nat → Prop) (n : Nat) (x y : Acc) : Prop where
  clean : NoBad y.s
  found : y.bad = x.bad
  beside : ∀ k, (getCore y.s k).besideScratch = (getCore x.s k).besideScratch
  inside : ∀ r a, r < n → C r a → (∀ q < n, r < q → ¬C q a) → byteAt y.s a = g r a
  outside : ∀ a, (∀ r < n, ¬C r a) → byteAt y.s a = byteAt x.s a

theorem rowsLand_foldl {g : Nat → Nat → Byte} {C : Nat → Nat → Prop} {f : Acc → Nat → Acc} {x : Acc} {n : Nat} (hclean : NoBad x.s)
    (hf : ∀ r < n, ∀ y : Acc, NoBad y.s → Lands (g r) y (f y r) (C r)) : RowsLand g C n x ((List.range n).foldl f x) := by
  induction n with
  | zero => exact ⟨hclean, rfl, fun _ => rfl, fun r a hr => absurd hr (Nat.not_lt_zero r), fun _ _ => rfl⟩
  | succ n ih =>
    have hrest := ih fun r hr => hf r (Nat.lt_succ_of_lt hr)
    have hlast := hf n n.lt_succ_self _ hrest.clean
    rw [List.range_succ, List.foldl_append]
    refine ⟨hlast.painted.clean, hlast.found.trans hrest.found, fun k => (hlast.beside k).trans (hrest.beside k), ?_, ?_⟩
    · intro r a hr hcov hafter
      rcases Nat.lt_succ_iff_lt_or_eq.1 hr with hlt | rfl
      · exact (hlast.painted.outside a (hafter n n.lt_succ_self hlt)).trans
          (hrest.inside r a hlt hcov fun q hq => hafter q (Nat.lt_succ_of_lt hq))
      · exact hlast.painted.inside a hcov
    · intro a hnone
      exact (hlast.painted.outside a (hnone n n.lt_succ_self)).trans (hrest.outside a fun r hr => hnone r (Nat.lt_succ_of_lt hr))

/-- The bursts of all rows land them in order when each burst lands its part of its row. -/
theorem rowBursts_land {g : Nat → Nat → Byte} {f : Acc → Nat × Nat × Nat → Acc} {x : Acc} {src ss dst ds rows len : Nat} (hclean : NoBad x.s)
    (hf : ∀ r < rows, ∀ o k, o + k ≤ len → ∀ y : Acc, NoBad y.s →
      Lands (g r) y (f y (src + r * ss + o, dst + r * ds + o, k)) (Covers (dst + r * ds + o) k)) :
    RowsLand g (fun r => Covers (dst + r * ds) len) rows x ((rowBursts src ss dst ds rows len).foldl f x) := by
  rw [rowBursts, List.foldl_flatMap]
  exact rowsLand_foldl hclean fun r hr y hy => bursts_land hy (hf r hr)

section
variable {x : Acc} {src ss dst ds rows len : Nat} (master subj : Nat) (hclean : NoBad x.s)
  (hdst : ∀ r < rows, InOnePlace (dst + r * ds) len)
include hclean hdst

/-- Given data lands row by row. -/
theorem givenRows_land {g : Nat → Nat → Byte} {data : Nat × Nat × Nat → List Byte}
    (hdata : ∀ r < rows, ∀ o k, o + k ≤ len → let d := data (src + r * ss + o, dst + r * ds + o, k)
      d.length = k ∧ ∀ i < k, d[i]? = some (g r (dst + r * ds + o + i))) :
    RowsLand g (fun r => Covers (dst + r * ds) len) rows x
      ((rowBursts src ss dst ds rows len).foldl (fun y b => writeAt {} master subj y b.2.1 (data b)) x) := by
  refine rowBursts_land hclean fun r hr o k hk y hy => ?_
  obtain ⟨hlen, hbytes⟩ := hdata r hr o k hk
  have hland := writeAt_lands (g := g r) master subj (a := dst + r * ds + o) (d := data (src + r * ss + o, dst + r * ds + o, k)) hy
    (by rw [hlen]; exact inOnePlace_part (hdst r hr) hk) (by rw [hlen]; exact hbytes)
  rwa [hlen] at hland

/-- The rows of a copy land as they lay in the source before. -/
theorem copyBursts_land (hbad : x.bad = []) (hsrc : ∀ r < rows, InOnePlace (src + r * ss) len) :
    RowsLand (fun r a => byteAt x.s (src + r * ss + (a - (dst + r * ds)))) (fun r => Covers (dst + r * ds) len) rows x
      (copyBursts {} master subj x (rowBursts src ss dst ds rows len)) := by
  unfold copyBursts
  dsimp only
  rw [readAt_finds_nothing master subj _ hclean, hbad]
  refine rowBursts_land hclean fun r hr o k hk y hy => ?_
  have hlen := length_bytesAt x.s (src + r * ss + o) k
  have hland := copyRow_lands (g := fun a => byteAt x.s (src + r * ss + (a - (dst + r * ds)))) master subj (src + r * ss + o) hy
    (a := dst + r * ds + o) (d := bytesAt x.s (src + r * ss + o) k) (by rw [hlen]; exact inOnePlace_part (hdst r hr) hk) fun i hi => ?_
  · rwa [hlen] at hland
  · rw [getElem?_bytesAt_inOnePlace (inOnePlace_part (hsrc r hr) hk) (by omega)]
    congr 2
    omega

end

/-! ## What the movers' rows leave -/

/-- A mover's work that found nothing lasting ends its descriptor and leaves the bytes that landed. -/
theorem moverEnd_of_rowsLand {g : Nat → Nat → Byte} {C : Nat → Nat → Prop} {n l m : Nat} {x y : Acc} {j : Job} (h : RowsLand g C n x y)
    (hbad : x.bad = []) (hjob : (getEngine (getCore x.s l) (m + 3)).job = some j) :
    (getEngine (getCore (moverEnd y l m) l) (m + 3)).job = some { j with stage := 4 } ∧ byteAt (moverEnd y l m) = byteAt y.s := by
  rw [moverEnd, if_pos (h.found.trans hbad)]
  refine ⟨job_finishJob ((job_of_besideScratch (h.beside l) _).trans hjob), ?_⟩
  funext a
  rw [byteAt, finishJob, bytesAt_modJob]
  rfl

/-- A started descriptor that is not stopped moves all its bursts, each unit counted. -/
theorem moverBursts_running {s : State} {l : Nat} (h : moverStopped s l = false) (bs : List (Nat × Nat × Nat)) : moverBursts s l bs = (s, bs) := by
  rw [moverBursts, h]
  rfl

section
variable {s : State} {l m : Nat} {j : Job}

/-- What a mover's bursts start from: the units are counted. -/
def moverAcc (s : State) (l : Nat) (j : Job) (bs : List (Nat × Nat × Nat)) : Acc := { s := countUnits s l bs, tw := jobTrapWord j }

theorem exec_moveCopy (hruns : MoverRuns s l m 0 j) (hdev : mDstHost j.desc = false)
    (hready : mSrcHost j.desc = true → hostReady s j.ctx = true) (host : List Byte) :
    let d := j.desc
    let bs := rowBursts (mSrc d) (mSrcStride d) (mDst d) (mDstStride d) (mRows d) (mLen d)
    let subj := coreSubject s l (movMaster m)
    exec (.moveCopy l m host {}) s = .next (moverEnd (if mSrcHost d
      then putBursts {} (movMaster m) subj (fun a n => slice host (a - mSrc d) n) (moverAcc s l j bs) bs
      else copyBursts {} (movMaster m) subj (moverAcc s l j bs) bs) l m) := by
  intro d bs subj
  obtain ⟨-, -, -, hgoes, -⟩ := id hruns
  refine congrArg _ ((moverRow_of_runs hruns _).trans ?_)
  rw [moverBursts_running hgoes]
  cases hsrc : mSrcHost j.desc
  · simp [hdev, d, moverAcc, bs, subj]
  · have hcan : hostReady (countUnits s l bs) j.ctx = true := hready hsrc
    simp [hdev, d, moverAcc, bs, subj, hcan]

/-- A mover's bursts start in a state that is clean, with its descriptor in place and every byte as it was. -/
theorem moverAcc_start {kind : Nat} (hruns : MoverRuns s l m kind j) (bs : List (Nat × Nat × Nat)) : NoBad (moverAcc s l j bs).s
    ∧ (getEngine (getCore (moverAcc s l j bs).s l) (m + 3)).job = some j ∧ byteAt (moverAcc s l j bs).s = byteAt s := by
  obtain ⟨-, -, -, -, hpoison, hsp⟩ := id hruns
  exact ⟨⟨hpoison, hsp⟩, job_of_moverRuns hruns, funext fun a => byteAt_congr rfl rfl a⟩

/-- The rows of a mover have landed: its descriptor's work is done, and the bytes are those of the last rows that cover them. -/
theorem mover_writes {kind : Nat} (hruns : MoverRuns s l m kind j) {bs : List (Nat × Nat × Nat)} {y : Acc} {g : Nat → Nat → Byte}
    {dst ds rows len : Nat} (h : RowsLand g (fun r => Covers (dst + r * ds) len) rows (moverAcc s l j bs) y) :
    let t := moverEnd y l m
    (getEngine (getCore t l) (m + 3)).job = some { j with stage := 4 } ∧ (∀ r a, LastRow dst ds rows len r a → byteAt t a = g r a)
      ∧ ∀ a, ¬InRows dst ds rows len a → byteAt t a = byteAt s a := by
  obtain ⟨-, hjob, hbytes⟩ := moverAcc_start hruns bs
  obtain ⟨hdone, hend⟩ := moverEnd_of_rowsLand h rfl hjob
  refine ⟨hdone, fun r a ⟨hr, hfrom, hto, hlast⟩ => ?_, fun a hnone => ?_⟩
  · rw [hend]
    exact h.inside r a hr ⟨hfrom, hto⟩ hlast
  · rw [hend, ← hbytes]
    exact h.outside a fun r hr ⟨hfrom, hto⟩ => hnone ⟨r, hr, hfrom, hto⟩

/-- A byte of the rows has a last row that covers it. -/
theorem exists_lastRow {base stride rows len a : Nat} (h : InRows base stride rows len a) : ∃ r, LastRow base stride rows len r a := by
  obtain ⟨r, hr, hfrom, hto⟩ := h
  induction hk : rows - r using Nat.strong_induction_on generalizing r with
  | _ k ih =>
    by_cases hlater : ∃ q < rows, r < q ∧ base + q * stride ≤ a ∧ a < base + q * stride + len
    · obtain ⟨q, hq, hrq, hfrom', hto'⟩ := hlater
      exact ih (rows - q) (by omega) q hq hfrom' hto' rfl
    · exact ⟨r, hr, hfrom, hto, fun q hq hrq hcov => hlater ⟨q, hq, hrq, hcov⟩⟩

variable (hdst : ∀ r < mRows j.desc, InOnePlace (mDst j.desc + r * mDstStride j.desc) (mLen j.desc))
include hdst

/-- MOVE_COPY brings its source rows, of host memory or as they lay in device memory, to its destination rows. -/
theorem moveCopy_brings (hruns : MoverRuns s l m 0 j) (hdev : mDstHost j.desc = false)
    (hready : mSrcHost j.desc = true → hostReady s j.ctx = true) (host : List Byte)
    (hsrc : mSrcHost j.desc = false → ∀ r < mRows j.desc, InOnePlace (mSrc j.desc + r * mSrcStride j.desc) (mLen j.desc)) :
    let d := j.desc
    ∃ t, exec (.moveCopy l m host {}) s = .next t ∧ (getEngine (getCore t l) (m + 3)).job = some { j with stage := 4 }
      ∧ (∀ r a, LastRow (mDst d) (mDstStride d) (mRows d) (mLen d) r a →
          byteAt t a = if mSrcHost d then host.getD (r * mSrcStride d + (a - (mDst d + r * mDstStride d))) 0
            else byteAt s (mSrc d + r * mSrcStride d + (a - (mDst d + r * mDstStride d))))
      ∧ ∀ a, ¬InRows (mDst d) (mDstStride d) (mRows d) (mLen d) a → byteAt t a = byteAt s a := by
  intro d
  obtain ⟨hclean, -, hbytes⟩ := moverAcc_start hruns (rowBursts (mSrc d) (mSrcStride d) (mDst d) (mDstStride d) (mRows d) (mLen d))
  refine ⟨_, exec_moveCopy hruns hdev hready host, ?_⟩
  split
  case isTrue hhost =>
    refine mover_writes hruns (givenRows_land _ _ hclean hdst fun r _ o k _ => ⟨slice_length _ _ _, fun i hi => ?_⟩)
    rw [getElem?_slice _ _ hi]
    dsimp only [d]
    congr 2
    omega
  case isFalse hhost =>
    have hland := copyBursts_land (movMaster m) (coreSubject s l (movMaster m)) hclean hdst rfl (hsrc (by simpa [d] using hhost))
    rw [hbytes] at hland
    exact mover_writes hruns hland

/-- MOVE_FILL brings the pattern's byte of each address to its rows. -/
theorem moveFill_brings (hruns : MoverRuns s l m 1 j) :
    let d := j.desc
    ∃ t, exec (.moveFill l m {}) s = .next t ∧ (getEngine (getCore t l) (m + 3)).job = some { j with stage := 4 }
      ∧ (∀ a, InRows (mDst d) (mDstStride d) (mRows d) (mLen d) a → byteAt t a = BitVec.ofNat 8 (mPattern d / 2 ^ (8 * (a % 8))))
      ∧ ∀ a, ¬InRows (mDst d) (mDstStride d) (mRows d) (mLen d) a → byteAt t a = byteAt s a := by
  intro d
  let bs := rowBursts (mDst d) (mDstStride d) (mDst d) (mDstStride d) (mRows d) (mLen d)
  obtain ⟨-, -, -, hgoes, -⟩ := id hruns
  obtain ⟨hclean, -, -⟩ := moverAcc_start hruns bs
  have hexec : exec (.moveFill l m {}) s
      = .next (moverEnd (fillBursts {} (movMaster m) (coreSubject s l (movMaster m)) (mPattern d) (moverAcc s l j bs) bs) l m) := by
    refine congrArg _ ((moverRow_of_runs hruns _).trans ?_)
    rw [moverBursts_running hgoes]
    rfl
  have hland := givenRows_land (movMaster m) (coreSubject s l (movMaster m)) hclean hdst (g := fun _ a => fillByte (mPattern d) a)
    (src := mDst d) (ss := mDstStride d) (data := fun b => fillBytes (mPattern d) b.2.1 b.2.2)
    fun r _ o k _ => ⟨by simp [fillBytes], fun i hi => by simp [fillBytes, List.getElem?_range hi]⟩
  obtain ⟨hdone, hin, hout⟩ := mover_writes hruns hland
  refine ⟨_, hexec, hdone, fun a ha => ?_, hout⟩
  obtain ⟨r, hlast⟩ := exists_lastRow ha
  rw [← Nat.shiftRight_eq_div_pow]
  exact hin r a hlast

end

/-- The half of O15 about MOVE_COPY and MOVE_FILL. -/
theorem moveCopyAndFillWriteTheirRowsOnly : Claims.MoveCopyAndFillWriteTheirRowsOnly := by
  intro s l m j host d hdst
  exact ⟨fun hruns hdev hready hsrc => moveCopy_brings hdst hruns hdev hready host hsrc, fun hruns => moveFill_brings hdst hruns⟩

end Sys2Proof.Machine
end

section
/-! MOVE_GATHER (R225, R236, R237) with nothing lasting: every element lands once, its list and table up to the windows. -/

namespace Sys2Proof.Machine

open Sys2Proof.Claims

/-! ## The elements of a descriptor -/

/-- A gather whose list and table lie below the windows, apart from its elements, and whose elements lie in one place each. -/
structure GatherFits (g : GatherJob) : Prop where
  pitch : g.size ≤ g.pitch
  table : g.table + g.rows * g.size ≤ winBase0
  index : g.index + 4 * g.count ≤ winBase0
  place : ∀ i < g.count, InOnePlace (g.dst + i * g.pitch) g.size
  offTable : overlaps g.dst (g.count * g.pitch) g.table (g.rows * g.size) = false
  offIndex : overlaps g.dst (g.count * g.pitch) g.index (4 * g.count) = false

/-- A row of a table lies in it. -/
theorem tableRow_inside {i rows size : Nat} (hi : i < rows) : i * size + size ≤ rows * size := by
  have hmul : (i + 1) * size ≤ rows * size := Nat.mul_le_mul_right _ hi
  rwa [Nat.add_mul, Nat.one_mul] at hmul

/-- A byte that the output does not meet lies in no element. -/
theorem not_inElems_of_apart {g : GatherJob} (hpitch : g.size ≤ g.pitch) {b n : Nat} (hoff : overlaps g.dst (g.count * g.pitch) b n = false)
    {is : List Nat} (his : ∀ i ∈ is, i < g.count) {a : Nat} (hfrom : b ≤ a) (hto : a < b + n) : ¬InElems g is a := by
  rintro ⟨i, hi, hlow, hhigh⟩
  have hin := tableRow_inside (his i hi) (size := g.pitch)
  have hcases := overlaps_false hoff (by omega) (by omega)
  omega

/-- What a gather brings to the byte of an element. -/
theorem gatheredByte_at (s : State) {g : GatherJob} (hpitch : g.size ≤ g.pitch) {k : Nat} (hk : k < g.size) (i : Nat) :
    gatheredByte s g (g.dst + i * g.pitch + k) = gathered s g i k := by
  have hoff : g.dst + i * g.pitch + k - g.dst = k + g.pitch * i := by rw [Nat.mul_comm]; omega
  rw [gatheredByte, hoff, Nat.add_mul_div_left _ _ (by omega), Nat.add_mul_mod_self_left, Nat.div_eq_of_lt (by omega),
    Nat.mod_eq_of_lt (by omega), Nat.zero_add]

/-- The row that a gather brings for element `i`. -/
def gatheredRow (s : State) (g : GatherJob) (i : Nat) : List Byte :=
  if indexAt s g i < g.rows then bytesAt s (g.table + indexAt s g i * g.size) g.size else List.replicate g.size 0

/-- These elements have landed, and nothing lasting was met. -/
structure Brought (x : Acc) (g : GatherJob) (y : GatherAcc) (is : List Nat) : Prop where
  clean : y.bad = []
  lands : Lands (gatheredByte x.s g) x y.x (InElems g is)

section
variable {x : Acc} {g : GatherJob} (h : GatherFits g)
include h

/-- It has the row's length and the bytes that the gather brings. -/
theorem gatheredRow_spec {i : Nat} :
    (gatheredRow x.s g i).length = g.size ∧ ∀ k < g.size, (gatheredRow x.s g i)[k]? = some (gatheredByte x.s g (g.dst + i * g.pitch + k)) := by
  unfold gatheredRow
  split
  case isTrue hin =>
    refine ⟨length_bytesAt _ _ _, fun k hk => ?_⟩
    have hrow := tableRow_inside hin (size := g.size)
    have htable := h.table
    rw [getElem?_bytesAt_inOnePlace (.inl (by omega)) hk, gatheredByte_at x.s h.pitch hk, gathered, if_pos hin]
  case isFalse hout =>
    refine ⟨List.length_replicate, fun k hk => ?_⟩
    rw [gatheredByte_at x.s h.pitch hk, gathered, if_neg hout, List.getElem?_replicate, if_pos hk]

section
variable {y : GatherAcc} {is : List Nat} (hy : Brought x g y is) (his : ∀ i ∈ is, i < g.count)
include hy his

/-- Bytes below the windows that the output does not meet are still as they were. -/
theorem Brought.apart {b m a n : Nat} (hoff : overlaps g.dst (g.count * g.pitch) b m = false) (hb : b + m ≤ winBase0) (hfrom : b ≤ a)
    (hto : a + n ≤ b + m) : bytesAt y.x.s a n = bytesAt x.s a n := by
  have hplace : InOnePlace a n := .inl (by omega)
  refine List.ext_getElem? fun k => ?_
  rcases Nat.lt_or_ge k n with hk | hk
  · rw [getElem?_bytesAt_inOnePlace hplace hk, getElem?_bytesAt_inOnePlace hplace hk]
    exact congrArg some (hy.lands.painted.outside _ (not_inElems_of_apart h.pitch hoff his (by omega) (by omega)))
  · rw [List.getElem?_eq_none (by rwa [length_bytesAt]), List.getElem?_eq_none (by rwa [length_bytesAt])]

/-- The index of an element still reads as it did. -/
theorem Brought.index {i : Nat} (hi : i < g.count) : leNat (bytesAt y.x.s (g.index + 4 * i) 4) = indexAt x.s g i := by
  have hindex := h.index
  rw [hy.apart h his h.offIndex hindex (by omega) (by omega), bytesAt, inWindow_eq_none_of_lt (by omega)]
  rfl

/-- One more element is the write of its row. -/
theorem Brought.elem_eq {i : Nat} (hi : i < g.count) (master subj : Nat) : ∃ out, gatherElem {} master subj g [] y i
    = { x := writeAt {} master subj y.x (g.dst + i * g.pitch) (gatheredRow x.s g i), bad := y.bad, out := out } := by
  have hlen := (gatheredRow_spec h (x := x) (i := i)).1
  have hrow : (if indexAt x.s g i < g.rows then bytesAt y.x.s (g.table + indexAt x.s g i * g.size) g.size else List.replicate g.size 0)
      = gatheredRow x.s g i := by
    unfold gatheredRow
    split
    case isTrue hin =>
      have hin' := tableRow_inside hin (size := g.size)
      exact hy.apart h his h.offTable h.table (by omega) (by omega)
    case isFalse => rfl
  have hfound := (writeAt_lands master subj hy.lands.painted.clean (hlen.symm ▸ h.place i hi) (hlen.symm ▸ (gatheredRow_spec h).2)).found
  refine ⟨y.out + (if indexAt x.s g i < g.rows then 0 else 1), ?_⟩
  unfold gatherElem
  dsimp only
  rw [hy.index h his hi, hrow]
  simp only [touchesBad, List.any_nil, Bool.false_eq_true, and_false, if_false, hfound, if_true]

/-- One more element lands. -/
theorem Brought.elem {i : Nat} (hi : i < g.count) (master subj : Nat) : Brought x g (gatherElem {} master subj g [] y i) (is ++ [i]) := by
  obtain ⟨hlen, hbytes⟩ := gatheredRow_spec h (x := x) (i := i)
  obtain ⟨out, helem⟩ := hy.elem_eq h his hi master subj
  have hland := writeAt_lands master subj hy.lands.painted.clean (hlen.symm ▸ h.place i hi) (hlen.symm ▸ hbytes)
  rw [hlen] at hland
  rw [helem]
  exact ⟨hy.clean, (hy.lands.trans hland).congr fun a => by simp [InElems, or_and_right, exists_or]⟩

end

/-- Any run of elements lands. -/
theorem Brought.elems (master subj : Nat) {y : GatherAcc} {is : List Nat} (hy : Brought x g y is) (his : ∀ i ∈ is, i < g.count)
    {js : List Nat} (hjs : ∀ j ∈ js, j < g.count) : Brought x g (js.foldl (gatherElem {} master subj g []) y) (is ++ js) := by
  induction js generalizing y is with
  | nil => rwa [List.append_nil]
  | cons j r ih =>
    have hj := hjs j List.mem_cons_self
    have hnext := ih (hy.elem h his hj master subj) (List.forall_mem_append.2 ⟨his, by simpa using hj⟩)
      fun i hi => hjs i (List.mem_cons_of_mem _ hi)
    rwa [List.append_assoc] at hnext

/-- Any run of windows lands its elements. -/
theorem Brought.windows (master subj : Nat) (hbad : x.bad = []) {y : GatherAcc} {is : List Nat} (hy : Brought x g y is)
    (his : ∀ i ∈ is, i < g.count) (ws : List Nat) :
    Brought x g (gatherWindows {} master subj g ws y) (is ++ ws.flatMap (windowElems g.count)) := by
  induction ws generalizing y is with
  | nil => rwa [List.flatMap_nil, List.append_nil]
  | cons w r ih =>
    have hnext := ih (hy.elems h master subj his fun _ => windowElems_lt (w := w)) (List.forall_mem_append.2 ⟨his, fun _ => windowElems_lt⟩)
    rw [gatherWindows, if_pos hy.clean, gatherWindow_clean master subj g (hy.lands.found.trans hbad) hy.lands.painted.clean,
      List.flatMap_cons, ← List.append_assoc]
    exact hnext

/-- A whole gather. -/
theorem brought_all (master subj : Nat) (hclean : NoBad x.s) (hbad : x.bad = []) :
    Brought x g (gatherWindows {} master subj g (windowsOf g) { x := x }) (List.range g.count) := by
  have hnone : Brought x g { x := x } [] := ⟨rfl, (Lands.refl hclean).congr fun a => by simp [InElems]⟩
  have hall := hnone.windows h master subj hbad (fun i hi => absurd hi List.not_mem_nil) (windowsOf g)
  rwa [List.nil_append, windowsOf_elems] at hall

end

/-! ## The descriptor -/

section
variable {s : State} {l m : Nat} {j : Job}

/-- What a gather starts from: its elements are counted. -/
def gatherAcc (s : State) (l : Nat) (j : Job) : Acc := { s := bumpCore s l 17 (gatherDesc j.desc).count, tw := jobTrapWord j }

/-- The state that a gather with nothing lasting leaves: an index beyond the table raises one record. -/
def gatherEnd (y : GatherAcc) (l m subj : Nat) : State :=
  finishJob (if y.out = 0 then y.x.s else raiseEv y.x.s Status.gatherIndexRange 1 subj 0 0 0) l (m + 3)

theorem exec_moveGather (hruns : MoverRuns s l m 6 j) :
    let g := gatherDesc j.desc
    let subj := coreSubject s l (movMaster m)
    let y := gatherWindows {} (movMaster m) subj g (windowsOf g) { x := gatherAcc s l j }
    y.bad = [] → exec (.moveGather l m {}) s = .next (gatherEnd y l m subj) := by
  intro g subj y hclean
  obtain ⟨-, -, -, hgoes, -⟩ := id hruns
  refine congrArg _ ((moverRow_of_runs hruns _).trans ?_)
  simp only [hgoes, Bool.false_eq_true, if_false]
  exact if_neg (not_not.2 hclean)

/-- The record of a gather is not a byte of memory nor a descriptor. -/
theorem gatherEnd_keeps {y : GatherAcc} (subj : Nat) (hjob : (getEngine (getCore y.x.s l) (m + 3)).job = some j) :
    (getEngine (getCore (gatherEnd y l m subj) l) (m + 3)).job = some { j with stage := 4 } ∧ byteAt (gatherEnd y l m subj) = byteAt y.x.s := by
  let u := if y.out = 0 then y.x.s else raiseEv y.x.s Status.gatherIndexRange 1 subj 0 0 0
  have hu : { u with tel := y.x.s.tel } = y.x.s := by
    simp only [u]
    split
    · rfl
    · exact (recorded_raiseEv ..).frame
  have hcores : u.cores = y.x.s.cores := (congrArg State.cores hu :)
  refine ⟨job_finishJob (s := u) (by rwa [getCore, hcores]), funext fun a => ?_⟩
  have hbytes : byteAt (gatherEnd y l m subj) a = byteAt u a := by
    rw [byteAt, gatherEnd, finishJob, bytesAt_modJob]
    rfl
  exact hbytes.trans (byteAt_congr (congrArg State.mem hu :) hcores a)

end

/-- The half of O15 about MOVE_GATHER. -/
theorem moveGatherBringsTheIndexedRows : Claims.MoveGatherBringsTheIndexedRows := by
  intro s l m j hruns g idx hsize hpitch hindex htable hplace hoffIndex hoffTable
  have hfits : GatherFits g := ⟨hpitch, htable, hindex, hplace, hoffTable, hoffIndex⟩
  obtain ⟨-, -, -, -, hclean⟩ := id hruns
  have hbytes : byteAt (gatherAcc s l j).s = byteAt s := funext fun a => byteAt_congr rfl rfl a
  let subj := coreSubject s l (movMaster m)
  have hall := brought_all hfits (x := gatherAcc s l j) (movMaster m) subj hclean rfl
  obtain ⟨hdone, hend⟩ := gatherEnd_keeps subj ((job_of_besideScratch (hall.lands.beside l) _).trans (job_of_moverRuns hruns))
  refine ⟨_, exec_moveGather hruns hall.clean, hdone, fun i hi k hk => ?_, fun a hnone => ?_⟩
  · have hidx : indexAt (gatherAcc s l j).s g i = idx i := by
      simp only [idx]
      rw [bytesAt, inWindow_eq_none_of_lt (by omega)]
      rfl
    rw [hend, hall.lands.painted.inside _ ⟨i, List.mem_range.2 hi, by omega, by omega⟩, gatheredByte_at _ hpitch hk, gathered, hidx, hbytes]
  · rw [hend, ← hbytes]
    exact hall.lands.painted.outside a fun ⟨i, hi, hfrom, hto⟩ => hnone ⟨i, List.mem_range.1 hi, hfrom, hto⟩

end Sys2Proof.Machine

/-- Settles O15: burst by burst the last row that covers a byte sets it; a gather's elements land once each, apart from its list and
its table. -/
theorem moversWriteTheirRowsOnly : Obligations.MoversWriteTheirRowsOnly :=
  ⟨Sys2Proof.Machine.moveCopyAndFillWriteTheirRowsOnly, Sys2Proof.Machine.moveGatherBringsTheIndexedRows⟩

end

section
/-! The memory and margin tests of BIST_RUN (R245, R462), with nothing poisoned. -/

namespace Sys2Proof.Machine

open Sys2Proof.Claims

/-! ## Parts of what is written -/

/-- Part of a range reads as the part of what the range reads. -/
theorem memB_part (s : State) (a : Nat) {m k n : Nat} (h : k + n ≤ m) : memB s (a + k) n = ((memB s a m).drop k).take n := by
  have hrange : ((List.range m).drop k).take n = (List.range n).map (fun i => k + i) := by
    refine List.ext_getElem? fun i => ?_
    by_cases hi : i < n
    · rw [List.getElem?_take_of_lt hi, List.getElem?_drop, List.getElem?_range (by omega), List.getElem?_map, List.getElem?_range hi]
      rfl
    · rw [List.getElem?_eq_none (by simp; omega), List.getElem?_eq_none (by simp; omega)]
  rw [memB, memB, readB, readB, ← List.map_drop, ← List.map_take, hrange, List.map_map]
  simp [Function.comp_def, Nat.add_assoc]

/-- The records of a list, all of one length, stand in its order. -/
theorem flatMap_part {α β : Type} {f : α → List β} {w : Nat} (hf : ∀ x, (f x).length = w) {l : List α} {k : Nat} {x : α} (h : l[k]? = some x) :
    ((l.flatMap f).drop (w * k)).take w = f x := by
  induction l generalizing k with
  | nil => simp at h
  | cons y r ih =>
    cases k with
    | zero =>
      rw [List.getElem?_cons_zero, Option.some.injEq] at h
      rw [List.flatMap_cons, Nat.mul_zero, List.drop_zero, h, ← hf x, List.take_left]
    | succ k => rw [List.flatMap_cons, Nat.mul_succ, Nat.add_comm, ← List.drop_drop, ← hf y, List.drop_left, hf y, ih h]

/-- With nothing poisoned, a charge's answer stores its bytes and reports. -/
theorem putReport_clean {s : State} (c q a : Nat) (d : List Byte) (status result : Nat) (h : s.poison = []) :
    putReport s c q a d status result = report { s with mem := writeB s.mem a d } c q status result := by
  rw [putReport, writeDev, pieces_write noSubject _ { s := s } a d h (by omega)]

theorem length_flatMap_const {α β : Type} {f : α → List β} {w : Nat} (hf : ∀ x, (f x).length = w) (l : List α) :
    (l.flatMap f).length = w * l.length := by
  simp [List.length_flatMap, hf, Nat.mul_comm]

/-! ## Tested units -/

/-- A tested byte reads zero, and every other byte as it did, when a test takes whole units. -/
theorem memB_zeroTested (s : State) {tested : Nat → Bool} (hunit : ∀ a, tested (a / 64 * 64) = tested a) (bad : List Nat) (a : Nat) :
    memB (zeroTested s tested bad) a 1 = if tested a then [0] else memB s a 1 := by
  have hread : tget 0 (s.mem.filter (fun c => !tested (c.1 / 64 * 64))) a = if tested a then 0 else tget 0 s.mem a := by
    rw [tget_filter_key 0 (fun k => !tested (k / 64 * 64)), hunit]
    cases tested a <;> rfl
  change [tget 0 _ a] = _
  rw [zeroTested, hread]
  split <;> rfl

/-- The bytes that a test of the fast tier takes. -/
def fastTested (s : State) (e : Entry) (a : Nat) : Bool := inFast s a 1 && (bUnits e).contains (fastPlace s a).1

/-- The bytes that a test of the deep tier takes. -/
def deepTested (s : State) (e : Entry) (a : Nat) : Bool := inDeep s a 1 && (bUnits e).contains (channelOf s a)

/-- The tiers are made of whole units. -/
theorem inFast_unit (s : State) (a : Nat) : inFast s (a / 64 * 64) 1 = inFast s a 1 := by
  rw [Bool.eq_iff_iff, inFast, inFast, decide_eq_true_iff, decide_eq_true_iff, fastBytes]
  split <;> omega

theorem inDeep_unit (s : State) (a : Nat) : inDeep s (a / 64 * 64) 1 = inDeep s a 1 := by
  rw [Bool.eq_iff_iff]
  simp only [inDeep, Bool.and_eq_true, decide_eq_true_eq]
  unfold deepBytes deepBase
  split <;> omega

/-- A unit lies in one stack (R222). -/
theorem fastPlace_unit (s : State) (a : Nat) : (fastPlace s (a / 64 * 64)).1 = (fastPlace s a).1 := by
  unfold fastPlace
  dsimp only
  split
  · by_cases h : a < 0x4000000000
    · rw [if_pos h, if_pos (by omega)]; omega
    · rw [if_neg h, if_neg (by omega)]; omega
  · by_cases h : a < 0x3000000000
    · rw [if_pos h, if_pos (by omega)]; omega
    · rw [if_neg h, if_neg (by omega)]; omega

/-- A deep-tier unit lies in one channel (R238). -/
theorem channelOf_deep {s : State} {a : Nat} (h : inDeep s a 1 = true) : channelOf s a = (deepPlace s a).1 := by
  have hfast : inFast s a 1 = false := by
    have hlow : fastBytes s < deepBase := by unfold fastBytes; split <;> decide
    rw [inDeep, Bool.and_eq_true, decide_eq_true_eq] at h
    exact decide_eq_false (by omega)
  rw [channelOf, memUnit, hfast, if_neg Bool.false_ne_true]
  omega

theorem deepPlace_channel (s : State) (a : Nat) : (deepPlace s a).1 = (a - deepBase) / 512 % deepChannels s := rfl

theorem deepPlace_unit (s : State) (a : Nat) : (deepPlace s (a / 64 * 64)).1 = (deepPlace s a).1 := by
  have hpiece : ∀ b, (a / 64 * 64 - 64 * b) / 512 = (a - 64 * b) / 512 := fun b => by omega
  have hbase : deepBase = 64 * 0x400000000 := by norm_num [deepBase]
  rw [deepPlace_channel, deepPlace_channel, hbase, hpiece]

theorem fastTested_unit (s : State) (e : Entry) (a : Nat) : fastTested s e (a / 64 * 64) = fastTested s e a := by
  rw [fastTested, fastTested, inFast_unit, fastPlace_unit]

theorem deepTested_unit (s : State) (e : Entry) (a : Nat) : deepTested s e (a / 64 * 64) = deepTested s e a := by
  unfold deepTested
  cases h : inDeep s a 1 with
  | false => rw [inDeep_unit, h, Bool.false_and, Bool.false_and]
  | true => rw [channelOf_deep h, channelOf_deep ((inDeep_unit s a).trans h), deepPlace_unit, inDeep_unit, h]

/-! ## The fast tier -/

/-- A candidate changes the repair state alone. -/
theorem addCand_frame (s : State) (key src : Nat) : { addCand s key src with repair := s.repair } = s := by
  unfold addCand
  dsimp only
  split
  · rfl
  · split <;> rfl

theorem foldl_addCand_frame (s : State) (rows : List Nat) (src : Nat) :
    { rows.foldl (fun s k => addCand s k src) s with repair := s.repair } = s :=
  foldl_keeps (P := fun t : State => { t with repair := s.repair } = s)
    (fun t k ht => (congrArg (fun y : State => { y with repair := s.repair }) (addCand_frame t k src)).trans ht) rows rfl

/-- The rows that a test of the fast tier reports: those of the stacks that it takes. -/
def testedRows (e : Entry) (rows : List Nat) : List Nat := rows.filter (fun k => (bUnits e).contains (rowStack k))

/-- A test of the fast tier zeroes what it takes, poisons its failing rows and changes nothing else but the repair state, where without a
failing row no candidate is entered. -/
theorem testFast_spec (s : State) (e : Entry) (rows : List Nat) :
    let t := testFast s e rows
    let z := zeroTested s (fastTested s e) ((testedRows e rows).dedup.flatMap (rowUnits s))
    { t with repair := s.repair } = z ∧ (testedRows e rows = [] → t.repair.cands = s.repair.cands) := by
  intro t z
  have hframe : { t with repair := s.repair } = z :=
    (congrArg (fun y : State => { y with repair := s.repair }) (foldl_addCand_frame z (testedRows e rows) 2) :)
  refine ⟨hframe, fun hnone => ?_⟩
  change ((testedRows e rows).foldl (fun s k => addCand s k 2) z).repair.cands = _
  rw [hnone]
  rfl

/-! ## Margins -/

/-- The word of a link's margin test: what the test reports, open where it reports nothing (log 7). -/
def marginWord (s : State) (links : List (Nat × Nat × Nat × Nat)) (n : Nat) : Nat :=
  match links.find? (fun x => x.1 = n) with
  | some x => x.2.1 % 2 ^ 16 + x.2.2.1 % 2 ^ 16 * 2 ^ 16 + x.2.2.2 % 2 ^ 8 * 2 ^ 32
  | none => (Config.freeWord (s.free + n)).toNat % 2 ^ 40

theorem testMargin_eq (s : State) (c q : Nat) (e : Entry) (links : List (Nat × Nat × Nat × Nat)) :
    testMargin s c q e links = putReport { s with free := s.free + 48 } c q (bDst e) ((bUnits e).flatMap (fun n => toLE 16 (marginWord s links n))) 0
      (bUnits e).length := rfl

/-! ## The charge -/

section
variable {s : State} {c q : Nat} {e : Entry} (hsole : Sole s c q 0x900 e) (hphase : e.phase = 0) (found : BistFound)
include hsole hphase

theorem exec_bistRun : exec (.bistRun c q found) s = .next (
    if bistStatus s c e ≠ 0 then report s c q (bistStatus s c e) 0
    else if bTest e = 0 then report (testFast s e found.rows) c q 0 (testedRows e found.rows).length
    else if bTest e = 1 then testDeep s c q e found.units
    else if bTest e = 2 then testMargin s c q e found.links
    else startLoops s c q e) :=
  congrArg _ ((onCharge_running _ hsole.1).trans (if_neg (not_not.2 hphase)))

/-- A failing check is reported. -/
theorem bistRun_refused (h : bistStatus s c e ≠ 0) : exec (.bistRun c q found) s = .next (report s c q (bistStatus s c e) 0) :=
  (exec_bistRun hsole hphase found).trans (congrArg _ (if_pos h))

/-- A test of the fast tier zeroes what it takes, poisons the rows that fail and reports their number. -/
theorem bistRun_fast (hpoison : s.poison = []) (hok : bistStatus s c e = 0) (htest : bTest e = 0) :
    let rows := testedRows e found.rows
    ∃ t, exec (.bistRun c q found) s = .next t ∧ Reports s t c q 0 rows.length
      ∧ (∀ a, memB t a 1 = if fastTested s e a then [0] else memB s a 1) ∧ (∀ k ∈ rows, ∀ u ∈ rowUnits s k, u ∈ t.poison)
      ∧ (rows = [] → t.poison = [] ∧ t.repair.cands = s.repair.cands)
      ∧ { t with mem := s.mem, poison := s.poison, repair := s.repair, ctxs := s.ctxs } = s := by
  intro rows
  obtain ⟨hframe, hcands⟩ := testFast_spec s e found.rows
  have hmem : (testFast s e found.rows).mem = (zeroTested s (fastTested s e) (rows.dedup.flatMap (rowUnits s))).mem := (congrArg State.mem hframe :)
  have hpoisoned : (testFast s e found.rows).poison = (rows.dedup.flatMap (rowUnits s)).foldl insNat [] := by
    refine (congrArg State.poison hframe :).trans ?_
    change List.foldl insNat (s.poison.filter _) _ = _
    rw [hpoison]
    rfl
  refine ⟨_, (exec_bistRun hsole hphase found).trans (congrArg _ ((if_neg (not_not.2 hok)).trans (if_pos htest))), ?_, fun a => ?_,
    fun k hk u hu => ?_, fun hnone => ⟨?_, hcands hnone⟩, ?_⟩
  · exact report_ctxs (congrArg State.ctxs hframe :) c q 0 _
  · exact (congrArg (fun m => readB m a 1) hmem).trans (memB_zeroTested s (fastTested_unit s e) _ a)
  · change u ∈ (testFast s e found.rows).poison
    rw [hpoisoned, mem_foldl_insNat]
    exact .inr (List.mem_flatMap.2 ⟨k, List.mem_dedup.2 hk, hu⟩)
  · change (testFast s e found.rows).poison = []
    rw [hpoisoned, hnone]
    rfl
  · exact (congrArg (fun y : State => { y with mem := s.mem, poison := s.poison, ctxs := s.ctxs }) hframe :)

/-- A test of the deep tier that finds nothing zeroes what it takes, and writes a count of 0 for each channel. -/
theorem bistRun_deep (hpoison : s.poison = []) (hok : bistStatus s c e = 0) (htest : bTest e = 1) (hunits : found.units = []) :
    let n := 8 * (bUnits e).length
    ∃ t, exec (.bistRun c q found) s = .next t ∧ Reports s t c q 0 0 ∧ memB t (bDst e) n = List.replicate n 0
      ∧ (∀ a, a < bDst e ∨ bDst e + n ≤ a → memB t a 1 = if deepTested s e a then [0] else memB s a 1) ∧ t.poison = [] := by
  intro n
  let z := zeroTested s (deepTested s e) []
  let u := if bUnits e = [] then z else dropImages z
  let d := (bUnits e).flatMap (fun _ => toLE 8 0)
  have hlen : d.length = n := length_flatMap_const (fun _ => length_toLE 8 0) _
  have hzero : d = List.replicate n 0 := List.eq_replicate_iff.2 ⟨hlen, fun b hb => by
    obtain ⟨-, -, hb⟩ := List.mem_flatMap.1 hb
    simpa [toLE] using hb⟩
  have hu : { u with twin := z.twin } = z := by
    simp only [u]
    split <;> rfl
  have hclean : u.poison = [] := (congrArg State.poison hu :).trans (by simp [z, zeroTested, hpoison])
  have hexec : exec (.bistRun c q found) s = .next (putReport u c q (bDst e) d 0 0) := by
    refine (exec_bistRun hsole hphase found).trans (congrArg _ ?_)
    rw [if_neg (not_not.2 hok), if_neg (by omega), if_pos htest, hunits]
    rfl
  obtain ⟨hreports, ⟨hin, hout⟩, hframe⟩ := putReport_writes (s := u) c q (bDst e) d 0 0 hclean
  rw [hlen] at hin hout
  refine ⟨_, hexec, hreports.trans (report_ctxs (congrArg State.ctxs hu :) c q 0 0), hin.trans hzero, fun a ha => ?_, ?_⟩
  · rw [hout a ha, ← memB_zeroTested s (deepTested_unit s e) [] a]
    exact (congrArg (fun y : State => memB y a 1) hu :)
  · rw [putReport_clean c q _ d 0 0 hclean]
    exact hclean

/-- A margin test writes its figures of each link. -/
theorem bistRun_margin (hpoison : s.poison = []) (hok : bistStatus s c e = 0) (htest : bTest e = 2) :
    let n := 16 * (bUnits e).length
    ∃ t, exec (.bistRun c q found) s = .next t ∧ Reports s t c q 0 (bUnits e).length ∧ (∃ d, d.length = n ∧ MemWritten s t (bDst e) d)
      ∧ t.links = s.links ∧ ∀ k x, (bUnits e)[k]? = some x → ∀ y, found.links.find? (fun y => y.1 = x) = some y →
          memB t (bDst e + 16 * k) 16 = toLE 16 (y.2.1 % 2 ^ 16 + y.2.2.1 % 2 ^ 16 * 2 ^ 16 + y.2.2.2 % 2 ^ 8 * 2 ^ 32) := by
  intro n
  let u := { s with free := s.free + 48 }
  let d := (bUnits e).flatMap (fun x => toLE 16 (marginWord s found.links x))
  have hlen : d.length = n := length_flatMap_const (fun x => length_toLE 16 (marginWord s found.links x)) _
  have hexec : exec (.bistRun c q found) s = .next (putReport u c q (bDst e) d 0 (bUnits e).length) := by
    refine (exec_bistRun hsole hphase found).trans (congrArg _ ?_)
    rw [if_neg (not_not.2 hok), if_neg (by omega), if_neg (by omega), if_pos htest, testMargin_eq]
  obtain ⟨hreports, hwritten, hframe⟩ := putReport_writes (s := u) c q (bDst e) d 0 (bUnits e).length hpoison
  refine ⟨_, hexec, hreports, ⟨d, hlen, hwritten⟩, (congrArg State.links hframe :), fun k x hx y hy => ?_⟩
  have hk : k < (bUnits e).length := (List.getElem?_eq_some_iff.1 hx).1
  rw [memB_part _ _ (show 16 * k + 16 ≤ d.length by omega), hwritten.1, flatMap_part (fun x => length_toLE 16 (marginWord s found.links x)) hx]
  rw [marginWord, hy]

end

end Sys2Proof.Machine
end

section
/-! Loopback tests, repairs, the records of repair, and tests of reserve sites (R245 to R247, R462, R463, R465). -/

namespace Sys2Proof.Machine

open Sys2Proof.Claims

/-! ## Links in loopback (R462) -/

/-- Changes of distinct links, one after another. -/
theorem foldl_modLink (f : Nat × Nat → Link → Link) {xs : List (Nat × Nat)} (hd : (xs.map Prod.fst).Nodup) (s : State) :
    let t := xs.foldl (fun s x => modLink s x.1 (f x)) s
    { t with links := s.links } = s ∧ (∀ n, n ∉ xs.map Prod.fst → getLink t n = getLink s n)
      ∧ ∀ x ∈ xs, getLink t x.1 = f x (getLink s x.1) := by
  induction xs generalizing s with
  | nil => exact ⟨rfl, fun _ _ => rfl, fun x hx => absurd hx List.not_mem_nil⟩
  | cons x r ih =>
    rw [List.map_cons, List.nodup_cons] at hd
    obtain ⟨hxr, hr⟩ := hd
    obtain ⟨hframe, hout, hin⟩ := ih hr (modLink s x.1 (f x))
    refine ⟨(congrArg (fun y : State => { y with links := s.links }) hframe :), fun n hn => ?_, List.forall_mem_cons.2 ⟨?_, fun y hy => ?_⟩⟩
    · obtain ⟨hnx, hnr⟩ := not_or.1 (mt List.mem_cons.2 hn)
      exact (hout n hnr).trans (getLink_setLink_ne s hnx _)
    · exact (hout x.1 hxr).trans (getLink_setLink s x.1 _)
    · have hne : y.1 ≠ x.1 := fun h => hxr (h ▸ List.mem_map_of_mem hy)
      rw [List.foldl_cons, hin y hy, modLink, getLink_setLink_ne s hne]

/-- A link enters loopback with its place for the result. -/
def looped (e : Entry) (x : Nat × Nat) (l : Link) : Link := { l with loopback := some l.st, loopDst := bDst e + 16 * x.2 }

section
variable {s : State} {c q : Nat} {e : Entry} (hsole : Sole s c q 0x900 e)
include hsole

/-- A loopback test puts its links into loopback, each with its place at DST, and waits for their ends. -/
theorem bistRun_loopback (hphase : e.phase = 0) (found : BistFound) (hok : bistStatus s c e = 0) (htest : bTest e = 3) (hne : bUnits e ≠ []) :
    ∃ t, exec (.bistRun c q found) s = .next t
      ∧ (∀ k n, (bUnits e)[k]? = some n → getLink t n = { getLink s n with loopback := some (getLink s n).st, loopDst := bDst e + 16 * k })
      ∧ (∀ n, n ∉ bUnits e → getLink t n = getLink s n) ∧ { e with phase := 1, items := bUnits e } ∈ (getCtx t c).entries ∧ t.mem = s.mem := by
  have hfst : (bUnits e).zipIdx.map Prod.fst = bUnits e := List.zipIdx_map_fst 0 _
  obtain ⟨hframe, hout, hin⟩ := foldl_modLink (looped e) (xs := (bUnits e).zipIdx) (by rw [hfst]; exact nodup_bitsOf 64 _) s
  rw [hfst] at hout
  let u := (bUnits e).zipIdx.foldl (fun s x => modLink s x.1 (looped e x)) s
  have hexec : exec (.bistRun c q found) s = .next (modRunning u c q (fun x => { x with phase := 1, items := bUnits e })) := by
    refine (exec_bistRun hsole hphase found).trans (congrArg _ ?_)
    rw [if_neg (not_not.2 hok), if_neg (by omega), if_neg (by omega), if_neg (by omega)]
    exact if_neg hne
  refine ⟨_, hexec, fun k n hk => ?_, hout, ?_, (congrArg State.mem hframe :)⟩
  · exact hin (n, k) (List.mem_zipIdx_iff_getElem?.2 hk)
  · exact modRunning_entry (sole_congr (congrArg State.ctxs hframe :) hsole) fun x => { x with phase := 1, items := bUnits e }

end

/-- The result word of a link is written, and the link leaves loopback. -/
def loopWritten (s : State) (n word : Nat) : State :=
  modLink { s with mem := writeB s.mem (getLink s n).loopDst (toLE 16 word) } n (fun l => { l with loopback := none })

/-- The charge of a loopback test counts the end of one link, and reports with the last one. -/
def loopCounted (s : State) (c q n measured : Nat) : State :=
  let u := modRunning s c q (fun e => { e with items := e.items.filter (· ≠ n), result := e.result + measured })
  match running u c q 0x900 with
  | some e => if e.items = [] then report u c q 0 e.result else u
  | none => u

/-- With nothing poisoned the word of the result is stored, and the charge of the test, where one runs, counts the link. -/
theorem endLoop_clean {s : State} (hpoison : s.poison = []) (n word measured : Nat) : endLoop s n word measured =
    match loopTest s n with
    | some (c, q) => loopCounted (loopWritten s n word) c q n measured
    | none => loopWritten s n word := by
  unfold endLoop
  rw [writeDev, pieces_write noSubject _ { s := s } _ _ hpoison (by omega)]
  rfl

theorem loopCounted_frame (s : State) (c q n measured : Nat) : { loopCounted s c q n measured with ctxs := s.ctxs } = s := by
  unfold loopCounted
  dsimp only
  split
  · split <;> rfl
  · rfl

/-- The end of the last link reports the links measured. -/
theorem loopCounted_reports {s : State} {c q n : Nat} {e : Entry} (hsole : Sole s c q 0x900 e) (hitems : e.items = [n]) (measured : Nat) :
    Reported (loopCounted s c q n measured) c q 0 (e.result + measured) := by
  have hcounted := sole_modRunning hsole (f := fun e => { e with items := e.items.filter (· ≠ n), result := e.result + measured })
    (fun _ => rfl) rfl rfl rfl rfl
  have hend := reported_of_sole hcounted 0 (e.result + measured)
  unfold loopCounted
  dsimp only
  rw [hcounted.1]
  dsimp only
  rwa [if_pos (by simp [hitems])]

/-- LOOPBACK_TEST_END writes the error count and ends the link's loopback; the last link ends the charge. -/
theorem loopbackTestEnd_ends {s : State} (hpoison : s.poison = []) {n : Nat} (errs : Nat) (h : (getLink s n).loopback.isSome = true) :
    ∃ t, exec (.loopbackTestEnd n errs) s = .next t ∧ getLink t n = { getLink s n with loopback := none } ∧ OnlyLink s t n
      ∧ MemWritten s t (getLink s n).loopDst (toLE 16 (errs % 2 ^ 48))
      ∧ ∀ c q e, loopTest s n = some (c, q) → Sole s c q 0x900 e → e.items = [n] → Reported t c q 0 (e.result + 1) := by
  let u := loopWritten s n (errs % 2 ^ 48)
  let t := endLoop s n (errs % 2 ^ 48) 1
  have hend := endLoop_clean hpoison n (errs % 2 ^ 48) 1
  have ht : { t with ctxs := u.ctxs } = u := by
    simp only [t, hend]
    split
    · exact loopCounted_frame u _ _ n 1
    · rfl
  have hlink : ∀ k, getLink t k = getLink u k := fun k => (congrArg (fun y : State => getLink y k) ht :)
  have hmem : ∀ a m, memB t a m = memB u a m := fun a m => (congrArg (fun y : State => memB y a m) ht :)
  refine ⟨t, congrArg _ (if_pos h), ?_, fun k hk => ?_, ⟨?_, fun a ha => ?_⟩, fun c q e htest hsole hitems => ?_⟩
  · exact (hlink n).trans (getLink_setLink _ n _)
  · exact (hlink k).trans (getLink_setLink_ne _ hk _)
  · exact (hmem _ _).trans (readB_writeB s.mem _ _)
  · exact (hmem _ _).trans (readB_writeB_disjoint s.mem _ a 1 _ (ha.imp_left Nat.succ_le_of_lt))
  · rw [htest] at hend
    rw [show t = loopCounted u c q n 1 from hend]
    exact loopCounted_reports (sole_congr (t := u) rfl hsole) hitems 1

/-! ## Repairs (R245, R246, R463) -/

/-- A read by a charge leaves all but records, poison and repair candidates as it was, and no spare is used by it. -/
structure ReadsOnly (s t : State) : Prop where
  frame : { t with tel := s.tel, poison := s.poison, repair := s.repair } = s
  hardUsed : t.repair.hardUsed = s.repair.hardUsed
  softUsed : t.repair.softUsed = s.repair.softUsed

theorem ReadsOnly.refl (s : State) : ReadsOnly s s := ⟨rfl, rfl, rfl⟩

theorem ReadsOnly.trans {s t u : State} (h : ReadsOnly s t) (k : ReadsOnly t u) : ReadsOnly s u :=
  ⟨(congrArg (fun y : State => { y with tel := s.tel, poison := s.poison, repair := s.repair }) k.frame).trans h.frame,
    k.hardUsed.trans h.hardUsed, k.softUsed.trans h.softUsed⟩

theorem Recorded.readsOnly {s t : State} (h : Recorded s t) : ReadsOnly s t := by
  rw [h.eq]
  exact ⟨rfl, rfl, rfl⟩

theorem readsOnly_addCand (s : State) (key src : Nat) : ReadsOnly s (addCand s key src) := by
  unfold addCand
  dsimp only
  split
  · exact ⟨rfl, rfl, rfl⟩
  · split <;> exact ⟨rfl, rfl, rfl⟩

theorem readsOnly_lastingUnit (x : Acc) (subj src u : Nat) : ReadsOnly x.s (lastingUnit x subj src u).s := by
  unfold lastingUnit
  extract_lets t z c
  have ht : ReadsOnly x.s t := by
    simp only [t]
    split
    · exact readsOnly_addCand ..
    · exact .refl x.s
  have hz : ReadsOnly t z := ⟨rfl, rfl, rfl⟩
  exact (ht.trans hz).trans (recorded_raiseEv ..).readsOnly

theorem readsOnly_readUnit (f : Finds) (subj src : Nat) (x : Acc) (u : Nat) : ReadsOnly x.s (readUnit f subj src x u).s := by
  unfold readUnit
  split
  · exact (recorded_bump ..).readsOnly
  · split
    · exact readsOnly_lastingUnit ..
    · exact ((recorded_bump ..).trans (recorded_raiseEv ..)).readsOnly
    · split
      · exact (recorded_bump ..).readsOnly
      · exact .refl x.s

theorem readsOnly_readUnits (f : Finds) (subj : Nat) (x : Acc) (us : List Nat) : ReadsOnly x.s (readUnits f subj x us).s :=
  foldl_keeps (P := fun y : Acc => ReadsOnly x.s y.s) (fun y u h => h.trans (readsOnly_readUnit f subj 0 y u)) _ (.refl x.s)

/-- A repair marks its row and takes the spare of the row's bank group; a hard one frees the spare of a soft one (log 63). -/
def repairedRow (r : Repair) (key : Nat) (hard : Bool) : Repair :=
  let was := (r.cands.find? (fun c => c.1 = key)).any (fun c => c.2.2.2 = 1)
  { r with
    cands := r.cands.map (fun c => if c.1 = key then (c.1, c.2.1, c.2.2.1, if hard then 2 else 1) else c)
    hardUsed := if hard then insNat r.hardUsed (rowGroup key) else r.hardUsed
    softUsed := if !hard then insNat r.softUsed (rowGroup key)
      else if was then r.softUsed.filter (· ≠ rowGroup key) else r.softUsed }

theorem repairedRow_takes (r : Repair) (key : Nat) (hard : Bool) :
    rowGroup key ∈ (if hard then (repairedRow r key hard).hardUsed else (repairedRow r key hard).softUsed) := by
  cases hard <;> exact (mem_insNat _ _ _).2 (.inl rfl)

section
variable {s : State} {c q : Nat} {e : Entry} (hsole : Sole s c q 0x901 e) (hres : fld (pw e 0) 34 0 = 0) (hres' : fld (pw e 8) 63 1 = 0)
  (htail : tailZero e 0x10 = true)
include hsole hres hres' htail

theorem exec_hbmRepair (f : Finds) :
    let k := pw e 0 / 2 ^ 35
    let hard := bitOf (pw e 8) 0
    let u := (readUnits f noSubject { s := s } (rowUnits s k)).s
    exec (.hbmRepair c q f) s = .next (
      if (rowOk s k && s.repair.cands.any (fun x => x.1 = k)) = false then report s c q Status.repairTargetInvalid 0
      else if rowGroup k ∈ (if hard then s.repair.hardUsed else s.repair.softUsed) then report s c q Status.repairNoSpare 0
      else report { bump u 3 (8 * rowStack k + (if hard then 6 else 5)) 1 with repair := repairedRow u.repair k hard } c q 0 (if hard then 2 else 1)) := by
  intro k hard u
  refine congrArg Host.Outcome.next ((onCharge_running _ hsole.1).trans ?_)
  have hfields : (decide (fld (pw e 0) 34 0 = 0) && decide (fld (pw e 8) 63 1 = 0) && tailZero e 0x10) = true := by simp [hres, hres', htail]
  have hused : (if hard then s.repair.hardUsed else s.repair.softUsed).contains (rowGroup k)
      = decide (rowGroup k ∈ (if hard then s.repair.hardUsed else s.repair.softUsed)) := List.contains_eq_mem _ _
  dsimp only
  rw [firstFail_cons, if_pos hfields, firstFail_cons, firstFail_cons, firstFail_nil, hused]
  cases hok : rowOk s k && s.repair.cands.any (fun x => x.1 = k) with
  | false => rfl
  | true =>
    by_cases hmem : rowGroup k ∈ (if hard then s.repair.hardUsed else s.repair.softUsed)
    · rw [decide_eq_true hmem, if_pos hmem]
      rfl
    · rw [decide_eq_false hmem, if_neg hmem]
      rfl

/-- HBM_REPAIR refuses a row that is not listed and a bank group without a spare; else it takes the spare and changes no byte. -/
theorem hbmRepair_repairs (hpoison : s.poison = []) (f : Finds) :
    let k := pw e 0 / 2 ^ 35
    let hard := bitOf (pw e 8) 0
    let ok := rowOk s k && s.repair.cands.any (fun x => x.1 = k)
    let used := if hard then s.repair.hardUsed else s.repair.softUsed
    (ok = false → exec (.hbmRepair c q f) s = .next (report s c q Status.repairTargetInvalid 0))
    ∧ (ok = true → rowGroup k ∈ used → exec (.hbmRepair c q f) s = .next (report s c q Status.repairNoSpare 0))
    ∧ (ok = true → rowGroup k ∉ used → ∃ t, exec (.hbmRepair c q f) s = .next t ∧ Reports s t c q 0 (if hard then 2 else 1)
        ∧ rowGroup k ∈ (if hard then t.repair.hardUsed else t.repair.softUsed)
        ∧ t.mem = s.mem ∧ (f = {} → t.tel = (bump s 3 (8 * rowStack k + (if hard then 6 else 5)) 1).tel
            ∧ { t with repair := s.repair, ctxs := s.ctxs, tel := s.tel } = s)) := by
  intro k hard ok used
  have hexec := exec_hbmRepair hsole hres hres' htail f
  refine ⟨fun hok => hexec.trans (congrArg _ (if_pos hok)), fun hok hmem => ?_, fun hok hmem => ?_⟩
  · exact hexec.trans (congrArg _ ((if_neg ((Bool.not_eq_false _).mpr hok)).trans (if_pos hmem)))
  · obtain ⟨hframe, hhard, hsoft⟩ := readsOnly_readUnits f noSubject { s := s } (rowUnits s k)
    refine ⟨_, hexec.trans (congrArg _ ((if_neg ((Bool.not_eq_false _).mpr hok)).trans (if_neg hmem))), ?_, repairedRow_takes _ k hard,
      (congrArg State.mem hframe :), ?_⟩
    · exact report_ctxs (congrArg State.ctxs hframe :) c q 0 _
    · rintro rfl
      rw [readUnits_clean noSubject { s := s } _ hpoison]
      exact ⟨rfl, rfl⟩


end

/-! ## The records of repair (R247, R463) -/

/-- MBIST_READ writes the records, wherever memory is populated (log 63). -/
theorem mbistRead_writes {s : State} {c q : Nat} {e : Entry} (hpoison : s.poison = []) (hsole : Sole s c q 0x902 e)
    (hres : fld (pw e 8) 63 1 = 0) (htail : tailZero e 0x10 = true) :
    let b := mbistBytes s (bitOf (pw e 8) 0)
    if inMem s (pw e 0) b.length then ∃ t, exec (.mbistRead c q) s = .next t ∧ Reports s t c q 0 (64 * (fittedStacks s).length)
        ∧ MemWritten s t (pw e 0) b ∧ { t with mem := s.mem, poison := s.poison, ctxs := s.ctxs } = s
      else exec (.mbistRead c q) s = .next (report s c q Status.addressUnpopulated 0) := by
  intro b
  have hexec : exec (.mbistRead c q) s = .next (if inMem s (pw e 0) b.length then putReport s c q (pw e 0) b 0 (64 * (fittedStacks s).length)
      else report s c q Status.addressUnpopulated 0) := by
    refine congrArg Host.Outcome.next ((onCharge_running _ hsole.1).trans ?_)
    cases h : inMem s (pw e 0) b.length <;> simp [firstFail_cons, hres, htail, b, h, Status.addressUnpopulated]
  split
  case isTrue h => exact ⟨_, hexec.trans (congrArg _ (if_pos h)), putReport_writes c q (pw e 0) b 0 _ hpoison⟩
  case isFalse h => exact hexec.trans (congrArg _ (if_neg h))

/-! ## Tests of reserve sites (R465) -/

/-- Watts that go back from reservoirs change cores alone. -/
theorem drawOne_frame (p : State × Nat) (l : Nat) : { (drawOne p l).1 with cores := p.1.cores } = p.1 := by
  unfold drawOne
  dsimp only
  split <;> rfl

theorem drawBack_frame (s : State) (need : Nat) : { drawBack s need with cores := s.cores, free := s.free } = s := by
  unfold drawBack
  split
  · rfl
  · dsimp only
    have hdraw := foldl_keeps (P := fun p : State × Nat => { p.1 with cores := s.cores } = bumpFree s)
      (fun p l hp => (congrArg (fun y : State => { y with cores := s.cores }) (drawOne_frame p l)).trans hp)
      (List.range' ((Config.freeWord s.free).toNat % 88) (88 - (Config.freeWord s.free).toNat % 88) ++ List.range ((Config.freeWord s.free).toNat % 88))
      (b := (bumpFree s, need)) rfl
    exact (congrArg (fun y : State => { y with free := s.free }) hdraw :)

/-- A site is under test for a charge. -/
def siteTesting (s : State) (y : Nat × Nat × Nat) : State := { s with fence := { s.fence with testing := s.fence.testing ++ [y] } }

/-- It holds the watts of its test. -/
theorem grantedW_siteTesting (s : State) (y : Nat × Nat × Nat) : grantedW (siteTesting s y) = grantedW s + watts 20 s.power.applied := by
  simp only [grantedW, heldW, siteTesting, List.length_append, List.length_singleton, Nat.mul_add, Nat.mul_one]
  omega

theorem endSiteTest_spec (s : State) (x : Nat) : let t := endSiteTest s x
    { t with cores := s.cores, power := s.power, fence := s.fence } = s
      ∧ t.fence = { s.fence with testing := s.fence.testing.filter (fun y => y.1 ≠ x) } := by
  intro t
  obtain ⟨cores, applied, hrail⟩ := settleRail_shape { s with fence := { s.fence with testing := s.fence.testing.filter (fun y => y.1 ≠ x) } }
  rw [show t = _ from hrail]
  exact ⟨rfl, rfl⟩

/-- The state that the end of a test leaves before its charge reports: a pass with CLEAR_FENCE takes the site out of the fence record. -/
def siteTested (s : State) (e : Entry) (unit : Nat) : State :=
  let t := endSiteTest s (fld (pw e 0) 7 0)
  if unit = 0 ∧ bitOf (pw e 0) 8 = true then { t with fence := { t.fence with fenced := t.fence.fenced.filter (· ≠ fld (pw e 0) 7 0) } } else t

theorem siteTested_spec (s : State) (e : Entry) (unit : Nat) : let x := fld (pw e 0) 7 0
    let t := siteTested s e unit
    { t with cores := s.cores, power := s.power, fence := s.fence } = s ∧ (∀ y ∈ t.fence.testing, y.1 ≠ x)
      ∧ t.fence.fenced = (if unit = 0 ∧ bitOf (pw e 0) 8 = true then s.fence.fenced.filter (· ≠ x) else s.fence.fenced) := by
  intro x t
  obtain ⟨hframe, hfence⟩ := endSiteTest_spec s x
  have hfenced : (endSiteTest s x).fence.fenced = s.fence.fenced := by rw [hfence]
  have hgone : ∀ y ∈ (endSiteTest s x).fence.testing, y.1 ≠ x := fun y hy => by
    rw [hfence] at hy
    simpa using (List.mem_filter.1 hy).2
  simp only [t, siteTested]
  split
  · exact ⟨hframe, hgone, congrArg (List.filter (· ≠ x)) hfenced⟩
  · exact ⟨hframe, hgone, hfenced⟩

section
variable {s : State} {c q : Nat} {e : Entry} (hsole : Sole s c q 0x904 e) (unit : Nat)
include hsole

/-- A failing check is reported. -/
theorem siteTest_refused (hphase : e.phase = 0) (hst : siteStatus s e ≠ 0) :
    exec (.siteTest c q unit) s = .next (report s c q (siteStatus s e) 0) :=
  congrArg Host.Outcome.next ((onCharge_running _ hsole.1).trans ((if_pos hphase).trans (if_pos hst)))

/-- A test starts when the pool has room for its watts beside those held (log 64). -/
theorem siteTest_starts (hphase : e.phase = 0) (hst : siteStatus s e = 0) (hraise : raisePending s = false) (hwait : s.power.waiting = [])
    (hroom : heldW s + watts 20 s.power.applied ≤ poolW s) :
    ∃ t, exec (.siteTest c q unit) s = .next t ∧ t.fence.testing = s.fence.testing ++ [(fld (pw e 0) 7 0, c, q)]
      ∧ { e with phase := 1 } ∈ (getCtx t c).entries ∧ t.mem = s.mem
      ∧ (grantedW s + watts 20 s.power.applied ≤ poolW s → grantedW t = grantedW s + watts 20 s.power.applied
          ∧ { t with fence := s.fence, ctxs := s.ctxs } = s) := by
  let u := drawBack s (grantedW s + watts 20 s.power.applied - poolW s)
  let v := siteTesting u (fld (pw e 0) 7 0, c, q)
  have hframe : { u with cores := s.cores, free := s.free } = s := drawBack_frame s _
  have hfence : u.fence = s.fence := (congrArg State.fence hframe :)
  have hctxs : v.ctxs = s.ctxs := (congrArg State.ctxs hframe :)
  have hexec : exec (.siteTest c q unit) s = .next (modRunning v c q (fun e => { e with phase := 1 })) := by
    refine congrArg Host.Outcome.next ((onCharge_running _ hsole.1).trans ((if_pos hphase).trans ((if_neg (not_not.2 hst)).trans (if_neg ?_))))
    simp [hraise, hwait, hroom]
  refine ⟨_, hexec, ?_, modRunning_entry (sole_congr hctxs hsole) fun e => { e with phase := 1 }, (congrArg State.mem hframe :), fun hfits => ?_⟩
  · change u.fence.testing ++ _ = _
    rw [hfence]
  · have hu : u = s := if_pos (by omega)
    have hv : v = siteTesting s (fld (pw e 0) 7 0, c, q) := congrArg (siteTesting · _) hu
    rw [hv]
    exact ⟨grantedW_siteTesting s _, rfl⟩

/-- A test that has started ends with the unit that failed. -/
theorem siteTest_ends (hphase : e.phase ≠ 0) :
    let x := fld (pw e 0) 7 0
    ∃ t, exec (.siteTest c q unit) s = .next t ∧ (∀ y ∈ t.fence.testing, y.1 ≠ x)
      ∧ Reports s t c q (if unit = 0 then 0 else Status.siteTestFailed) (unit % 256)
      ∧ t.fence.fenced = (if unit = 0 ∧ bitOf (pw e 0) 8 = true then s.fence.fenced.filter (· ≠ x) else s.fence.fenced) ∧ t.mem = s.mem := by
  intro x
  obtain ⟨hframe, hgone, hfenced⟩ := siteTested_spec s e unit
  have hexec : exec (.siteTest c q unit) s
      = .next (report (siteTested s e unit) c q (if unit = 0 then 0 else Status.siteTestFailed) (unit % 256)) := by
    refine congrArg Host.Outcome.next ((onCharge_running _ hsole.1).trans ((if_neg hphase).trans ?_))
    rcases Nat.eq_zero_or_pos unit with rfl | hpos
    · simp [siteTested]
    · have hne : unit ≠ 0 := by omega
      simp [siteTested, hne]
  exact ⟨_, hexec, hgone, report_ctxs (congrArg State.ctxs hframe :) c q _ _, hfenced, (congrArg State.mem hframe :)⟩

end

end Sys2Proof.Machine

open Sys2Proof Sys2Proof.Machine

/-- Settles O54: a rule for each test of BIST_RUN and for each charge of repair; that MBIST_READ takes any DST of the fast and deep tiers
is log 63's choice, that a site test waits for its 20 W log 64's. -/
theorem testsAndRepairsReportWhatTheyFind : Obligations.TestsAndRepairsReportWhatTheyFind := by
  intro s c q e hpoison
  refine ⟨fun hsole hphase found => ⟨bistRun_refused hsole hphase found, bistRun_fast hsole hphase found hpoison,
      bistRun_deep hsole hphase found hpoison, bistRun_margin hsole hphase found hpoison, bistRun_loopback hsole hphase found⟩,
    fun n errs hloop => ?_, fun hsole hres hres' htail => hbmRepair_repairs hsole hres hres' htail hpoison,
    mbistRead_writes hpoison, fun hsole unit => ⟨siteTest_refused hsole unit, siteTest_starts hsole unit, siteTest_ends hsole unit⟩⟩
  obtain ⟨t, hexec, hlink, honly, hwritten, hreported⟩ := loopbackTestEnd_ends hpoison errs hloop
  exact ⟨t, hexec, hlink, honly, hwritten, hreported c q e⟩

end
